-- ==== Sys2Proof/Word.lean ====
section
/-! DEFINITION. The units of data of the i486 (20_memory R100, R101; 10_state R21): byte, word (16), dword (32);
operand widths and the two size attributes (30_encoding R260 to R263). -/
namespace Sys2Proof

/-- One byte (R101). -/
abbrev Byte := BitVec 8
/-- A word: 16 bits (R101). -/
abbrev Word := BitVec 16
/-- A doubleword: 32 bits (R101); the width of a general register (R21). -/
abbrev DWord := BitVec 32
/-- An extended real: sign, 15-bit biased exponent, 64-bit significand (11_fpu_state R78). -/
abbrev Ext := BitVec 80
/-- A three-bit register number of an encoding (30_encoding R281), or the `i` of ST(i). -/
abbrev RegNum := BitVec 3

/-- A size attribute, 16 or 32 bits: OperandSize, AddressSize or StackAddrSize (30_encoding R260, R263). -/
inductive Size where
  | s16
  | s32
  deriving DecidableEq, Repr

/-- The width of an integer operand (30_encoding R262). -/
inductive Width where
  | w8
  | w16
  | w32
  deriving DecidableEq, Repr

/-- The width in bits, the N of the flag rules (10_state R38). -/
def Width.bits : Width → Nat
  | .w8 => 8
  | .w16 => 16
  | .w32 => 32

/-- The width in bytes. -/
def Width.bytes : Width → Nat
  | .w8 => 1
  | .w16 => 2
  | .w32 => 4

/-- The operand width an operand-size attribute selects for a word-or-dword form (30_encoding R262). -/
def Size.width : Size → Width
  | .s16 => .w16
  | .s32 => .w32

/-- A size attribute in bytes. -/
def Size.bytes : Size → Nat
  | .s16 => 2
  | .s32 => 4

/-- A size attribute in bits. -/
def Size.bits : Size → Nat
  | .s16 => 16
  | .s32 => 32

end Sys2Proof
end

