-- ==== Sys2Proof/Syntax.lean ====
section
/-! DEFINITION. The abstract syntax: effective-address forms (30_encoding R282 to R285), register-or-memory operands
and the instructions of spec/opcode_table.json (30_encoding R314). -/
namespace Sys2Proof

/-- The displacement that follows ModR/M or SIB (30_encoding R282, R284). -/
inductive Disp where
  | none
  | d8 (v : Byte)
  | d16 (v : Word)
  | d32 (v : DWord)
  deriving DecidableEq, Repr

/-- A memory operand as the ModR/M and SIB bytes give it (30_encoding R282, R284, R285). -/
inductive Mem where
  /-- 16-bit form: base by r/m, then a displacement. -/
  | a16 (rm : RegNum) (d : Disp)
  /-- 16-bit form mod = 00, r/m = 110: disp16 alone. -/
  | abs16 (v : Word)
  /-- 32-bit form without SIB: base register r/m, then a displacement. -/
  | a32 (rm : RegNum) (d : Disp)
  /-- 32-bit form mod = 00, r/m = 101: disp32 alone. -/
  | abs32 (v : DWord)
  /-- SIB form with a base register: scale, index, base, displacement. -/
  | sib (ss : BitVec 2) (index base : RegNum) (d : Disp)
  /-- SIB form mod = 00, base = 101: disp32 with a scaled index and no base. -/
  | sibAbs (ss : BitVec 2) (index : RegNum) (v : DWord)
  deriving DecidableEq, Repr

/-- The operand of the r/m field: a register (mod = 11B) or memory (30_encoding R280). -/
inductive Rm where
  | reg (r : RegNum)
  | mem (m : Mem)
  deriving DecidableEq, Repr

/-- Whether the operand is in memory. -/
def Rm.isMem : Rm → Bool
  | .reg _ => false
  | .mem _ => true

/-- The rows of a two-operand arithmetic or logical instruction: one constructor per row of the table. -/
inductive AluForm where
  /-- `00 /r`, `08 /r`, `10 /r`, `18 /r`, `20 /r`, `28 /r`, `30 /r`, `38 /r` -/
  | ebGb (r : RegNum) (m : Rm)
  /-- `01 /r`, `09 /r`, `11 /r`, `19 /r`, `21 /r`, `29 /r`, `31 /r`, `39 /r` -/
  | evGv (r : RegNum) (m : Rm)
  /-- `02 /r`, `0A /r`, `12 /r`, `1A /r`, `22 /r`, `2A /r`, `32 /r`, `3A /r` -/
  | gbEb (r : RegNum) (m : Rm)
  /-- `03 /r`, `0B /r`, `13 /r`, `1B /r`, `23 /r`, `2B /r`, `33 /r`, `3B /r` -/
  | gvEv (r : RegNum) (m : Rm)
  /-- `04 ib`, `0C ib`, `14 ib`, `1C ib`, `24 ib`, `2C ib`, `34 ib`, `3C ib` -/
  | alIb (imm : Byte)
  /-- `05 iw|id`, `0D iw|id`, `15 iw|id`, `1D iw|id`, `25 iw|id`, `2D iw|id`, `35 iw|id`, `3D iw|id` -/
  | eaxIv (imm : DWord)
  /-- `80 /0 ib`, `80 /1 ib`, `80 /2 ib`, `80 /3 ib`, `80 /4 ib`, `80 /5 ib`, `80 /6 ib`, `80 /7 ib` -/
  | eb80 (m : Rm) (imm : Byte)
  /-- `81 /0 iw|id`, `81 /1 iw|id`, `81 /2 iw|id`, `81 /3 iw|id`, `81 /4 iw|id`, `81 /5 iw|id`, `81 /6 iw|id`, `81 /7 iw|id` -/
  | ev81 (m : Rm) (imm : DWord)
  /-- `82 /0 ib`, `82 /1 ib`, `82 /2 ib`, `82 /3 ib`, `82 /4 ib`, `82 /5 ib`, `82 /6 ib`, `82 /7 ib` -/
  | eb82 (m : Rm) (imm : Byte)
  /-- `83 /0 ib`, `83 /1 ib`, `83 /2 ib`, `83 /3 ib`, `83 /4 ib`, `83 /5 ib`, `83 /6 ib`, `83 /7 ib` -/
  | ev83 (m : Rm) (imm : Byte)
  deriving DecidableEq, Repr

/-- The rows of PUSH: one constructor per row of the table. -/
inductive PushForm where
  /-- `06` -/
  | es
  /-- `0E` -/
  | cs
  /-- `16` -/
  | ss
  /-- `1E` -/
  | ds
  /-- `0F A0` -/
  | fs
  /-- `0F A8` -/
  | gs
  /-- `50+rw|rd` -/
  | reg (r : RegNum)
  /-- `68 iw|id` -/
  | iv (imm : DWord)
  /-- `6A ib` -/
  | ib (imm : Byte)
  /-- `FF /6` -/
  | ev (m : Rm)
  deriving DecidableEq, Repr

/-- The rows of POP: one constructor per row of the table. -/
inductive PopForm where
  /-- `07` -/
  | es
  /-- `17` -/
  | ss
  /-- `1F` -/
  | ds
  /-- `0F A1` -/
  | fs
  /-- `0F A9` -/
  | gs
  /-- `58+rw|rd` -/
  | reg (r : RegNum)
  /-- `8F /0` -/
  | ev (m : Rm)
  deriving DecidableEq, Repr

/-- The rows of INC and of DEC: one constructor per row of the table. -/
inductive IncForm where
  /-- `40+rw|rd`, `48+rw|rd` -/
  | reg (r : RegNum)
  /-- `FE /0`, `FE /1` -/
  | eb (m : Rm)
  /-- `FF /0`, `FF /1` -/
  | ev (m : Rm)
  deriving DecidableEq, Repr

/-- The rows of IMUL: one constructor per row of the table. -/
inductive ImulForm where
  /-- `69 /r iw|id` -/
  | gvEvIv (r : RegNum) (m : Rm) (imm : DWord)
  /-- `6B /r ib` -/
  | gvEvIb (r : RegNum) (m : Rm) (imm : Byte)
  /-- `F6 /5` -/
  | eb (m : Rm)
  /-- `F7 /5` -/
  | ev (m : Rm)
  /-- `0F AF /r` -/
  | gvEv (r : RegNum) (m : Rm)
  deriving DecidableEq, Repr

/-- The rows of a conditional jump: one constructor per row of the table. -/
inductive JccForm where
  /-- `70 cb`, `71 cb`, `72 cb`, `73 cb`, `74 cb`, `75 cb`, `76 cb`, `77 cb` ... -/
  | short (rel : Byte)
  /-- `0F 80 cw|cd`, `0F 81 cw|cd`, `0F 82 cw|cd`, `0F 83 cw|cd`, `0F 84 cw|cd`, `0F 85 cw|cd`, `0F 86 cw|cd`, `0F 87 cw|cd` ... -/
  | near (rel : DWord)
  deriving DecidableEq, Repr

/-- The rows of TEST: one constructor per row of the table. -/
inductive TestForm where
  /-- `84 /r` -/
  | ebGb (r : RegNum) (m : Rm)
  /-- `85 /r` -/
  | evGv (r : RegNum) (m : Rm)
  /-- `A8 ib` -/
  | alIb (imm : Byte)
  /-- `A9 iw|id` -/
  | eaxIv (imm : DWord)
  /-- `F6 /0 ib` -/
  | ebIb (m : Rm) (imm : Byte)
  /-- `F7 /0 iw|id` -/
  | evIv (m : Rm) (imm : DWord)
  deriving DecidableEq, Repr

/-- The rows of XCHG: one constructor per row of the table. -/
inductive XchgForm where
  /-- `86 /r` -/
  | ebGb (r : RegNum) (m : Rm)
  /-- `87 /r` -/
  | evGv (r : RegNum) (m : Rm)
  /-- `90+rw|rd` -/
  | eaxReg (r : RegNum)
  deriving DecidableEq, Repr

/-- The rows of MOV: one constructor per row of the table. -/
inductive MovForm where
  /-- `88 /r` -/
  | ebGb (r : RegNum) (m : Rm)
  /-- `89 /r` -/
  | evGv (r : RegNum) (m : Rm)
  /-- `8A /r` -/
  | gbEb (r : RegNum) (m : Rm)
  /-- `8B /r` -/
  | gvEv (r : RegNum) (m : Rm)
  /-- `8C /r` -/
  | ewSw (r : RegNum) (m : Rm)
  /-- `8E /r` -/
  | swEw (r : RegNum) (m : Rm)
  /-- `A0 moffs` -/
  | alOb (off : DWord)
  /-- `A1 moffs` -/
  | eaxOv (off : DWord)
  /-- `A2 moffs` -/
  | obAl (off : DWord)
  /-- `A3 moffs` -/
  | ovEax (off : DWord)
  /-- `B0+rb ib` -/
  | r8Ib (r : RegNum) (imm : Byte)
  /-- `B8+rw|rd iw|id` -/
  | regIv (r : RegNum) (imm : DWord)
  /-- `C6 /0 ib` -/
  | ebIb (m : Rm) (imm : Byte)
  /-- `C7 /0 iw|id` -/
  | evIv (m : Rm) (imm : DWord)
  /-- `0F 20 /r` -/
  | fromCr (mode : BitVec 2) (c : RegNum) (r : RegNum)
  /-- `0F 21 /r` -/
  | fromDr (mode : BitVec 2) (c : RegNum) (r : RegNum)
  /-- `0F 22 /r` -/
  | toCr (mode : BitVec 2) (c : RegNum) (r : RegNum)
  /-- `0F 23 /r` -/
  | toDr (mode : BitVec 2) (c : RegNum) (r : RegNum)
  /-- `0F 24 /r` -/
  | fromTr (mode : BitVec 2) (c : RegNum) (r : RegNum)
  /-- `0F 26 /r` -/
  | toTr (mode : BitVec 2) (c : RegNum) (r : RegNum)
  deriving DecidableEq, Repr

/-- The rows of CALL: one constructor per row of the table. -/
inductive CallForm where
  /-- `9A cd|cp` -/
  | far (off : DWord) (sel : Word)
  /-- `E8 cw|cd` -/
  | rel (rel : DWord)
  /-- `FF /2` -/
  | ev (m : Rm)
  /-- `FF /3` -/
  | mp (m : Mem)
  deriving DecidableEq, Repr

/-- The rows of a rotate or shift: one constructor per row of the table. -/
inductive ShiftForm where
  /-- `C0 /0 ib`, `C0 /1 ib`, `C0 /2 ib`, `C0 /3 ib`, `C0 /5 ib`, `C0 /7 ib` -/
  | ebIb (m : Rm) (imm : Byte)
  /-- `C1 /0 ib`, `C1 /1 ib`, `C1 /2 ib`, `C1 /3 ib`, `C1 /5 ib`, `C1 /7 ib` -/
  | evIb (m : Rm) (imm : Byte)
  /-- `D0 /0`, `D0 /1`, `D0 /2`, `D0 /3`, `D0 /5`, `D0 /7` -/
  | eb1 (m : Rm)
  /-- `D1 /0`, `D1 /1`, `D1 /2`, `D1 /3`, `D1 /5`, `D1 /7` -/
  | ev1 (m : Rm)
  /-- `D2 /0`, `D2 /1`, `D2 /2`, `D2 /3`, `D2 /5`, `D2 /7` -/
  | ebCl (m : Rm)
  /-- `D3 /0`, `D3 /1`, `D3 /2`, `D3 /3`, `D3 /5`, `D3 /7` -/
  | evCl (m : Rm)
  deriving DecidableEq, Repr

/-- The rows of SHL / SAL: /4, and its alias /6: one constructor per row of the table. -/
inductive ShlForm where
  /-- `C0 /4 ib` -/
  | ebIb (m : Rm) (imm : Byte)
  /-- `C1 /4 ib` -/
  | evIb (m : Rm) (imm : Byte)
  /-- `D0 /4` -/
  | eb1 (m : Rm)
  /-- `D1 /4` -/
  | ev1 (m : Rm)
  /-- `D2 /4` -/
  | ebCl (m : Rm)
  /-- `D3 /4` -/
  | evCl (m : Rm)
  /-- `C0 /6 ib` -/
  | ebIb6 (m : Rm) (imm : Byte)
  /-- `C1 /6 ib` -/
  | evIb6 (m : Rm) (imm : Byte)
  /-- `D0 /6` -/
  | eb16 (m : Rm)
  /-- `D1 /6` -/
  | ev16 (m : Rm)
  /-- `D2 /6` -/
  | ebCl6 (m : Rm)
  /-- `D3 /6` -/
  | evCl6 (m : Rm)
  deriving DecidableEq, Repr

/-- The rows of RET and of RETF: one constructor per row of the table. -/
inductive RetForm where
  /-- `C2 iw`, `CA iw` -/
  | iw (imm : Word)
  /-- `C3`, `CB` -/
  | plain
  deriving DecidableEq, Repr

/-- The rows of the undefined encodings: one constructor per row of the table. -/
inductive UndefForm where
  /-- `D6` -/
  | opD6
  /-- `F1` -/
  | opF1
  /-- `F6 /1` -/
  | opF6 (m : Rm)
  /-- `F7 /1` -/
  | opF7 (m : Rm)
  /-- `FF /7` -/
  | opFF7 (m : Rm)
  /-- `FE /2../7` -/
  | opFE (r : RegNum) (m : Rm)
  /-- `8F /1../7` -/
  | op8F (r : RegNum) (m : Rm)
  /-- `C6 /1../7` -/
  | opC6 (r : RegNum) (m : Rm)
  /-- `C7 /1../7` -/
  | opC7 (r : RegNum) (m : Rm)
  /-- `62 /r, mod = 11` -/
  | op62 (r : RegNum) (i : RegNum)
  /-- `8D /r, mod = 11` -/
  | op8D (r : RegNum) (i : RegNum)
  /-- `C4 /r, mod = 11` -/
  | opC4 (r : RegNum) (i : RegNum)
  /-- `C5 /r, mod = 11` -/
  | opC5 (r : RegNum) (i : RegNum)
  /-- `FF /3, mod = 11` -/
  | opFF3 (i : RegNum)
  /-- `FF /5, mod = 11` -/
  | opFF5 (i : RegNum)
  /-- `0F 00 /6` -/
  | op0F006 (m : Rm)
  /-- `0F 00 /7` -/
  | op0F007 (m : Rm)
  /-- `0F 01 /5` -/
  | op0F015 (m : Rm)
  /-- `0F BA /0../3 ib` -/
  | op0FBA (r : RegNum) (m : Rm)
  /-- `0F 25 /r`, a second byte with no other row: it has a ModR/M byte (30_encoding R313) -/
  | op0F25 (mode : BitVec 2) (c : RegNum) (r : RegNum)
  /-- `0F xx (any second byte with no other row)` -/
  | op0F (b : Byte) (m : Option (RegNum × RegNum))
  deriving DecidableEq, Repr

/-- The rows of IN: one constructor per row of the table. -/
inductive InForm where
  /-- `E4 ib` -/
  | alIb (imm : Byte)
  /-- `E5 ib` -/
  | eaxIb (imm : Byte)
  /-- `EC` -/
  | alDx
  /-- `ED` -/
  | eaxDx
  deriving DecidableEq, Repr

/-- The rows of OUT: one constructor per row of the table. -/
inductive OutForm where
  /-- `E6 ib` -/
  | ibAl (imm : Byte)
  /-- `E7 ib` -/
  | ibEax (imm : Byte)
  /-- `EE` -/
  | dxAl
  /-- `EF` -/
  | dxEax
  deriving DecidableEq, Repr

/-- The rows of JMP: one constructor per row of the table. -/
inductive JmpForm where
  /-- `E9 cw|cd` -/
  | rel (rel : DWord)
  /-- `EA cd|cp` -/
  | far (off : DWord) (sel : Word)
  /-- `EB cb` -/
  | rel8 (rel : Byte)
  /-- `FF /4` -/
  | ev (m : Rm)
  /-- `FF /5` -/
  | mp (m : Mem)
  deriving DecidableEq, Repr

/-- The rows of a one-operand instruction of group 3: one constructor per row of the table. -/
inductive UnaryForm where
  /-- `F6 /2`, `F6 /3`, `F6 /4`, `F6 /6`, `F6 /7` -/
  | eb (m : Rm)
  /-- `F7 /2`, `F7 /3`, `F7 /4`, `F7 /6`, `F7 /7` -/
  | ev (m : Rm)
  deriving DecidableEq, Repr

/-- The rows of a bit test: one constructor per row of the table. -/
inductive BitForm where
  /-- `0F A3 /r`, `0F AB /r`, `0F B3 /r`, `0F BB /r` -/
  | evGv (r : RegNum) (m : Rm)
  /-- `0F BA /4 ib`, `0F BA /5 ib`, `0F BA /6 ib`, `0F BA /7 ib` -/
  | evIb (m : Rm) (imm : Byte)
  deriving DecidableEq, Repr

/-- The rows of a double-precision shift: one constructor per row of the table. -/
inductive DshiftForm where
  /-- `0F A4 /r ib`, `0F AC /r ib` -/
  | ib (r : RegNum) (m : Rm) (imm : Byte)
  /-- `0F A5 /r`, `0F AD /r` -/
  | cl (r : RegNum) (m : Rm)
  deriving DecidableEq, Repr

/-- The rows of XADD and of CMPXCHG: one constructor per row of the table. -/
inductive XaddForm where
  /-- `0F B0 /r`, `0F C0 /r` -/
  | ebGb (r : RegNum) (m : Rm)
  /-- `0F B1 /r`, `0F C1 /r` -/
  | evGv (r : RegNum) (m : Rm)
  deriving DecidableEq, Repr

/-- The rows of MOVZX and of MOVSX: one constructor per row of the table. -/
inductive MovxForm where
  /-- `0F B6 /r`, `0F BE /r` -/
  | gvEb (r : RegNum) (m : Rm)
  /-- `0F B7 /r`, `0F BF /r` -/
  | gvEw (r : RegNum) (m : Rm)
  deriving DecidableEq, Repr

/-- The rows of FLD and of FSTP: one constructor per row of the table. -/
inductive FldForm where
  /-- `D9 /0`, `D9 /3` -/
  | m32 (m : Mem)
  /-- `DD /0`, `DD /3` -/
  | m64 (m : Mem)
  /-- `DB /5`, `DB /7` -/
  | m80 (m : Mem)
  /-- `D9 C0+i`, `DD D8+i` -/
  | st (i : RegNum)
  deriving DecidableEq, Repr

/-- The rows of FILD and of FISTP: one constructor per row of the table. -/
inductive FildForm where
  /-- `DF /0`, `DF /3` -/
  | m16 (m : Mem)
  /-- `DB /0`, `DB /3` -/
  | m32 (m : Mem)
  /-- `DF /5`, `DF /7` -/
  | m64 (m : Mem)
  deriving DecidableEq, Repr

/-- The rows of FST, FCOM and FCOMP: one constructor per row of the table. -/
inductive FstForm where
  /-- `D9 /2`, `D8 /2`, `D8 /3` -/
  | m32 (m : Mem)
  /-- `DD /2`, `DC /2`, `DC /3` -/
  | m64 (m : Mem)
  /-- `DD D0+i`, `D8 D0+i`, `D8 D8+i` -/
  | st (i : RegNum)
  deriving DecidableEq, Repr

/-- The rows of the FPU instructions with a 16- or 32-bit integer operand: one constructor per row of the table. -/
inductive FistForm where
  /-- `DF /2`, `DE /0`, `DE /1`, `DE /4`, `DE /5`, `DE /6`, `DE /7`, `DE /2` ... -/
  | m16 (m : Mem)
  /-- `DB /2`, `DA /0`, `DA /1`, `DA /4`, `DA /5`, `DA /6`, `DA /7`, `DA /2` ... -/
  | m32 (m : Mem)
  deriving DecidableEq, Repr

/-- The rows of a basic FPU arithmetic instruction: one constructor per row of the table. -/
inductive FarithForm where
  /-- `D8 /0`, `D8 /1`, `D8 /4`, `D8 /5`, `D8 /6`, `D8 /7` -/
  | m32 (m : Mem)
  /-- `DC /0`, `DC /1`, `DC /4`, `DC /5`, `DC /6`, `DC /7` -/
  | m64 (m : Mem)
  /-- `D8 C0+i`, `D8 C8+i`, `D8 E0+i`, `D8 E8+i`, `D8 F0+i`, `D8 F8+i` -/
  | stSti (i : RegNum)
  /-- `DC C0+i`, `DC C8+i`, `DC E8+i`, `DC E0+i`, `DC F8+i`, `DC F0+i` -/
  | stiSt (i : RegNum)
  deriving DecidableEq, Repr

/-- The rows of FNSTSW: one constructor per row of the table. -/
inductive FnstswForm where
  /-- `DD /7` -/
  | mem (m : Mem)
  /-- `DF E0` -/
  | ax
  deriving DecidableEq, Repr

/-- The rows of the undefined ESC encodings: one constructor per row of the table. -/
inductive EscForm where
  /-- `D8 (any ModR/M with no other row)` -/
  | d8 (r : RegNum) (m : Rm)
  /-- `D9 (any ModR/M with no other row)` -/
  | d9 (r : RegNum) (m : Rm)
  /-- `DA (any ModR/M with no other row)` -/
  | da (r : RegNum) (m : Rm)
  /-- `DB (any ModR/M with no other row)` -/
  | db (r : RegNum) (m : Rm)
  /-- `DC (any ModR/M with no other row)` -/
  | dc (r : RegNum) (m : Rm)
  /-- `DD (any ModR/M with no other row)` -/
  | dd (r : RegNum) (m : Rm)
  /-- `DE (any ModR/M with no other row)` -/
  | de (r : RegNum) (m : Rm)
  /-- `DF (any ModR/M with no other row)` -/
  | df (r : RegNum) (m : Rm)
  deriving DecidableEq, Repr

/-- The instructions: one constructor per mnemonic of spec/opcode_table.json, in the table's order; a mnemonic with
several rows takes a form with one constructor per row, so that rows and terms correspond one to one. Argument names:
`r` the reg field or the register number in the opcode, `m` the r/m operand, `i` the number of ST(i), `imm` an
immediate, `rel` a relative displacement, `off` and `sel` a far pointer or a moffs offset. -/
inductive Instr where
  /-- REP/REPE/REPZ (prefix) (R270), `F3`. -/
  | repPrefix
  /-- REPNE/REPNZ (prefix) (R270), `F2`. -/
  | repnePrefix
  /-- LOCK (prefix) (R275), `F0`. -/
  | lockPrefix
  /-- CS: (prefix) (R271), `2E`. -/
  | csPrefix
  /-- SS: (prefix) (R271), `36`. -/
  | ssPrefix
  /-- DS: (prefix) (R271), `3E`. -/
  | dsPrefix
  /-- ES: (prefix) (R271), `26`. -/
  | esPrefix
  /-- FS: (prefix) (R271), `64`. -/
  | fsPrefix
  /-- GS: (prefix) (R271), `65`. -/
  | gsPrefix
  /-- operand-size (prefix) (R272), `66`. -/
  | opsizePrefix
  /-- address-size (prefix) (R272), `67`. -/
  | addrsizePrefix
  /-- ADD (R335). -/
  | add (f : AluForm)
  /-- OR (R397). -/
  | or (f : AluForm)
  /-- ADC (R334). -/
  | adc (f : AluForm)
  /-- SBB (R386). -/
  | sbb (f : AluForm)
  /-- AND (R336). -/
  | and (f : AluForm)
  /-- SUB (R385). -/
  | sub (f : AluForm)
  /-- XOR (R398). -/
  | xor (f : AluForm)
  /-- CMP (R387). -/
  | cmp (f : AluForm)
  /-- AAA (R330), `37`. -/
  | aaa
  /-- AAS (R333), `3F`. -/
  | aas
  /-- AAD (R331), `D5 ib`. -/
  | aad (imm : Byte)
  /-- AAM (R332), `D4 ib`. -/
  | aam (imm : Byte)
  /-- DAA (R395), `27`. -/
  | daa
  /-- DAS (R396), `2F`. -/
  | das
  /-- ARPL (R337), `63 /r`. -/
  | arpl (r : RegNum) (m : Rm)
  /-- BOUND (R338), `62 /r`. -/
  | bound (r : RegNum) (m : Mem)
  /-- PUSH (R366). -/
  | push (f : PushForm)
  /-- POP (R367). -/
  | pop (f : PopForm)
  /-- INC (R388). -/
  | inc (f : IncForm)
  /-- DEC (R389). -/
  | dec (f : IncForm)
  /-- PUSHA/PUSHAD (R368), `60`. -/
  | pusha
  /-- POPA/POPAD (R369), `61`. -/
  | popa
  /-- IMUL (R392). -/
  | imul (f : ImulForm)
  /-- INSB (R456), `6C`. -/
  | insb
  /-- INSW/INSD (R456), `6D`. -/
  | insv
  /-- OUTSB (R457), `6E`. -/
  | outsb
  /-- OUTSW/OUTSD (R457), `6F`. -/
  | outsv
  /-- JO (R492). -/
  | jO (f : JccForm)
  /-- JNO (R492). -/
  | jNo (f : JccForm)
  /-- JB/C/NAE (R492). -/
  | jB (f : JccForm)
  /-- JAE/NB/NC (R492). -/
  | jAe (f : JccForm)
  /-- JE/Z (R492). -/
  | jE (f : JccForm)
  /-- JNE/NZ (R492). -/
  | jNe (f : JccForm)
  /-- JBE/NA (R492). -/
  | jBe (f : JccForm)
  /-- JA/NBE (R492). -/
  | jA (f : JccForm)
  /-- JS (R492). -/
  | jS (f : JccForm)
  /-- JNS (R492). -/
  | jNs (f : JccForm)
  /-- JP/PE (R492). -/
  | jP (f : JccForm)
  /-- JNP/PO (R492). -/
  | jNp (f : JccForm)
  /-- JL/NGE (R492). -/
  | jL (f : JccForm)
  /-- JGE/NL (R492). -/
  | jGe (f : JccForm)
  /-- JLE/NG (R492). -/
  | jLe (f : JccForm)
  /-- JG/NLE (R492). -/
  | jG (f : JccForm)
  /-- SETO (R409), `0F 90 /r`. -/
  | setO (r : RegNum) (m : Rm)
  /-- SETNO (R409), `0F 91 /r`. -/
  | setNo (r : RegNum) (m : Rm)
  /-- SETB/C/NAE (R409), `0F 92 /r`. -/
  | setB (r : RegNum) (m : Rm)
  /-- SETAE/NB/NC (R409), `0F 93 /r`. -/
  | setAe (r : RegNum) (m : Rm)
  /-- SETE/Z (R409), `0F 94 /r`. -/
  | setE (r : RegNum) (m : Rm)
  /-- SETNE/NZ (R409), `0F 95 /r`. -/
  | setNe (r : RegNum) (m : Rm)
  /-- SETBE/NA (R409), `0F 96 /r`. -/
  | setBe (r : RegNum) (m : Rm)
  /-- SETA/NBE (R409), `0F 97 /r`. -/
  | setA (r : RegNum) (m : Rm)
  /-- SETS (R409), `0F 98 /r`. -/
  | setS (r : RegNum) (m : Rm)
  /-- SETNS (R409), `0F 99 /r`. -/
  | setNs (r : RegNum) (m : Rm)
  /-- SETP/PE (R409), `0F 9A /r`. -/
  | setP (r : RegNum) (m : Rm)
  /-- SETNP/PO (R409), `0F 9B /r`. -/
  | setNp (r : RegNum) (m : Rm)
  /-- SETL/NGE (R409), `0F 9C /r`. -/
  | setL (r : RegNum) (m : Rm)
  /-- SETGE/NL (R409), `0F 9D /r`. -/
  | setGe (r : RegNum) (m : Rm)
  /-- SETLE/NG (R409), `0F 9E /r`. -/
  | setLe (r : RegNum) (m : Rm)
  /-- SETG/NLE (R409), `0F 9F /r`. -/
  | setG (r : RegNum) (m : Rm)
  /-- TEST (R400). -/
  | test (f : TestForm)
  /-- XCHG (R365). -/
  | xchg (f : XchgForm)
  /-- MOV (R361, R362, R549, R550, R551). -/
  | mov (f : MovForm)
  /-- LEA (R370), `8D /r`. -/
  | lea (r : RegNum) (m : Mem)
  /-- NOP (R408), `90`. -/
  | nop
  /-- CBW/CWDE (R372), `98`. -/
  | cbw
  /-- CWD/CDQ (R373), `99`. -/
  | cwd
  /-- CALL (R498, R497). -/
  | call (f : CallForm)
  /-- WAIT/FWAIT (R812), `9B`. -/
  | wait
  /-- PUSHF/PUSHFD (R377), `9C`. -/
  | pushf
  /-- POPF/POPFD (R378), `9D`. -/
  | popf
  /-- SAHF (R376), `9E`. -/
  | sahf
  /-- LAHF (R375), `9F`. -/
  | lahf
  /-- MOVSB (R451), `A4`. -/
  | movsb
  /-- MOVSW/MOVSD (R451), `A5`. -/
  | movsv
  /-- CMPSB (R452), `A6`. -/
  | cmpsb
  /-- CMPSW/CMPSD (R452), `A7`. -/
  | cmpsv
  /-- STOSB (R455), `AA`. -/
  | stosb
  /-- STOSW/STOSD (R455), `AB`. -/
  | stosv
  /-- LODSB (R454), `AC`. -/
  | lodsb
  /-- LODSW/LODSD (R454), `AD`. -/
  | lodsv
  /-- SCASB (R453), `AE`. -/
  | scasb
  /-- SCASW/SCASD (R453), `AF`. -/
  | scasv
  /-- ROL (R430). -/
  | rol (f : ShiftForm)
  /-- ROR (R431). -/
  | ror (f : ShiftForm)
  /-- RCL (R432). -/
  | rcl (f : ShiftForm)
  /-- RCR (R433). -/
  | rcr (f : ShiftForm)
  /-- SHL/SAL (R434). -/
  | shl (f : ShlForm)
  /-- SHR (R435). -/
  | shr (f : ShiftForm)
  /-- SAR (R436). -/
  | sar (f : ShiftForm)
  /-- RET (R499). -/
  | ret (f : RetForm)
  /-- LES (R374), `C4 /r`. -/
  | les (r : RegNum) (m : Mem)
  /-- LDS (R374), `C5 /r`. -/
  | lds (r : RegNum) (m : Mem)
  /-- LSS (R374), `0F B2 /r`. -/
  | lss (r : RegNum) (m : Mem)
  /-- LFS (R374), `0F B4 /r`. -/
  | lfs (r : RegNum) (m : Mem)
  /-- LGS (R374), `0F B5 /r`. -/
  | lgs (r : RegNum) (m : Mem)
  /-- ENTER (R504), `C8 iw ib`. -/
  | enter (size : Word) (level : Byte)
  /-- LEAVE (R505), `C9`. -/
  | leave
  /-- RETF (R500). -/
  | retf (f : RetForm)
  /-- INT 3 (R501), `CC`. -/
  | int3
  /-- INT (R501), `CD ib`. -/
  | intIb (imm : Byte)
  /-- INTO (R502), `CE`. -/
  | into
  /-- IRET/IRETD (R503), `CF`. -/
  | iret
  /-- (undefined) (R595). -/
  | undefined (f : UndefForm)
  /-- XLAT/XLATB (R371), `D7`. -/
  | xlat
  /-- LOOPNE/LOOPNZ (R494), `E0 cb`. -/
  | loopne (rel : Byte)
  /-- LOOPE/LOOPZ (R494), `E1 cb`. -/
  | loope (rel : Byte)
  /-- LOOP (R494), `E2 cb`. -/
  | loop (rel : Byte)
  /-- JCXZ/JECXZ (R493), `E3 cb`. -/
  | jcxz (rel : Byte)
  /-- IN (R379). -/
  | in_ (f : InForm)
  /-- OUT (R380). -/
  | out (f : OutForm)
  /-- JMP (R490, R491). -/
  | jmp (f : JmpForm)
  /-- HLT (R506), `F4`. -/
  | hlt
  /-- CMC (R403), `F5`. -/
  | cmc
  /-- NOT (R399). -/
  | not (f : UnaryForm)
  /-- NEG (R390). -/
  | neg (f : UnaryForm)
  /-- MUL (R391). -/
  | mul (f : UnaryForm)
  /-- DIV (R393). -/
  | div (f : UnaryForm)
  /-- IDIV (R394). -/
  | idiv (f : UnaryForm)
  /-- CLC (R401), `F8`. -/
  | clc
  /-- STC (R402), `F9`. -/
  | stc
  /-- CLI (R406), `FA`. -/
  | cli
  /-- STI (R407), `FB`. -/
  | sti
  /-- CLD (R404), `FC`. -/
  | cld
  /-- STD (R405), `FD`. -/
  | std
  /-- SLDT (R543), `0F 00 /0`. -/
  | sldt (m : Rm)
  /-- STR (R545), `0F 00 /1`. -/
  | str (m : Rm)
  /-- LLDT (R542), `0F 00 /2`. -/
  | lldt (m : Rm)
  /-- LTR (R544), `0F 00 /3`. -/
  | ltr (m : Rm)
  /-- VERR (R554), `0F 00 /4`. -/
  | verr (m : Rm)
  /-- VERW (R554), `0F 00 /5`. -/
  | verw (m : Rm)
  /-- SGDT (R541), `0F 01 /0`. -/
  | sgdt (m : Mem)
  /-- SIDT (R541), `0F 01 /1`. -/
  | sidt (m : Mem)
  /-- LGDT (R540), `0F 01 /2`. -/
  | lgdt (m : Mem)
  /-- LIDT (R540), `0F 01 /3`. -/
  | lidt (m : Mem)
  /-- SMSW (R547), `0F 01 /4`. -/
  | smsw (m : Rm)
  /-- LMSW (R546), `0F 01 /6`. -/
  | lmsw (m : Rm)
  /-- INVLPG (R592), `0F 01 /7`. -/
  | invlpg (m : Mem)
  /-- LAR (R552), `0F 02 /r`. -/
  | lar (r : RegNum) (m : Rm)
  /-- LSL (R553), `0F 03 /r`. -/
  | lsl (r : RegNum) (m : Rm)
  /-- CLTS (R548), `0F 06`. -/
  | clts
  /-- INVD (R590), `0F 08`. -/
  | invd
  /-- WBINVD (R591), `0F 09`. -/
  | wbinvd
  /-- BT (R343). -/
  | bt (f : BitForm)
  /-- SHLD (R437). -/
  | shld (f : DshiftForm)
  /-- BTS (R440). -/
  | bts (f : BitForm)
  /-- SHRD (R438). -/
  | shrd (f : DshiftForm)
  /-- CMPXCHG (R382). -/
  | cmpxchg (f : XaddForm)
  /-- BTR (R441). -/
  | btr (f : BitForm)
  /-- MOVZX (R364). -/
  | movzx (f : MovxForm)
  /-- BTC (R442). -/
  | btc (f : BitForm)
  /-- BSF (R339), `0F BC /r`. -/
  | bsf (r : RegNum) (m : Rm)
  /-- BSR (R340), `0F BD /r`. -/
  | bsr (r : RegNum) (m : Rm)
  /-- MOVSX (R363). -/
  | movsx (f : MovxForm)
  /-- XADD (R381). -/
  | xadd (f : XaddForm)
  /-- BSWAP (R342), `0F C8+rd`. -/
  | bswap (r : RegNum)
  /-- FLD (R680). -/
  | fld (f : FldForm)
  /-- FILD (R681). -/
  | fild (f : FildForm)
  /-- FBLD (R682), `DF /4`. -/
  | fbld (m : Mem)
  /-- FST (R685). -/
  | fst (f : FstForm)
  /-- FIST (R686). -/
  | fist (f : FistForm)
  /-- FSTP (R688). -/
  | fstp (f : FldForm)
  /-- FISTP (R689). -/
  | fistp (f : FildForm)
  /-- FBSTP (R690), `DF /6`. -/
  | fbstp (m : Mem)
  /-- FXCH (R693), `D9 C8+i`. -/
  | fxch (i : RegNum)
  /-- FLD1 (R700), `D9 E8`. -/
  | fld1
  /-- FLDL2T (R700), `D9 E9`. -/
  | fldl2t
  /-- FLDL2E (R700), `D9 EA`. -/
  | fldl2e
  /-- FLDPI (R700), `D9 EB`. -/
  | fldpi
  /-- FLDLG2 (R700), `D9 EC`. -/
  | fldlg2
  /-- FLDLN2 (R700), `D9 ED`. -/
  | fldln2
  /-- FLDZ (R700), `D9 EE`. -/
  | fldz
  /-- FADD (R723). -/
  | fadd (f : FarithForm)
  /-- FIADD (R723). -/
  | fiadd (f : FistForm)
  /-- FADDP (R723), `DE C0+i`. -/
  | faddp (i : RegNum)
  /-- FMUL (R726). -/
  | fmul (f : FarithForm)
  /-- FIMUL (R726). -/
  | fimul (f : FistForm)
  /-- FMULP (R726), `DE C8+i`. -/
  | fmulp (i : RegNum)
  /-- FSUB (R724). -/
  | fsub (f : FarithForm)
  /-- FISUB (R724). -/
  | fisub (f : FistForm)
  /-- FSUBP (R724), `DE E8+i`. -/
  | fsubp (i : RegNum)
  /-- FSUBR (R725). -/
  | fsubr (f : FarithForm)
  /-- FISUBR (R725). -/
  | fisubr (f : FistForm)
  /-- FSUBRP (R725), `DE E0+i`. -/
  | fsubrp (i : RegNum)
  /-- FDIV (R727). -/
  | fdiv (f : FarithForm)
  /-- FIDIV (R727). -/
  | fidiv (f : FistForm)
  /-- FDIVP (R727), `DE F8+i`. -/
  | fdivp (i : RegNum)
  /-- FDIVR (R728). -/
  | fdivr (f : FarithForm)
  /-- FIDIVR (R728). -/
  | fidivr (f : FistForm)
  /-- FDIVRP (R728), `DE F0+i`. -/
  | fdivrp (i : RegNum)
  /-- FSQRT (R735), `D9 FA`. -/
  | fsqrt
  /-- FSCALE (R736), `D9 FD`. -/
  | fscale
  /-- FPREM (R741), `D9 F8`. -/
  | fprem
  /-- FPREM1 (R742), `D9 F5`. -/
  | fprem1
  /-- FRNDINT (R743), `D9 FC`. -/
  | frndint
  /-- FXTRACT (R744), `D9 F4`. -/
  | fxtract
  /-- FABS (R745), `D9 E1`. -/
  | fabs
  /-- FCHS (R746), `D9 E0`. -/
  | fchs
  /-- FCOM (R751). -/
  | fcom (f : FstForm)
  /-- FCOMP (R752). -/
  | fcomp (f : FstForm)
  /-- FCOMPP (R753), `DE D9`. -/
  | fcompp
  /-- FICOM (R754). -/
  | ficom (f : FistForm)
  /-- FICOMP (R755). -/
  | ficomp (f : FistForm)
  /-- FUCOM (R756), `DD E0+i`. -/
  | fucom (i : RegNum)
  /-- FUCOMP (R757), `DD E8+i`. -/
  | fucomp (i : RegNum)
  /-- FUCOMPP (R758), `DA E9`. -/
  | fucompp
  /-- FTST (R759), `D9 E4`. -/
  | ftst
  /-- FXAM (R760), `D9 E5`. -/
  | fxam
  /-- FPTAN (R775), `D9 F2`. -/
  | fptan
  /-- FPATAN (R776), `D9 F3`. -/
  | fpatan
  /-- FSIN (R777), `D9 FE`. -/
  | fsin
  /-- FCOS (R778), `D9 FF`. -/
  | fcos
  /-- FSINCOS (R779), `D9 FB`. -/
  | fsincos
  /-- F2XM1 (R782), `D9 F0`. -/
  | f2xm1
  /-- FYL2X (R783), `D9 F1`. -/
  | fyl2x
  /-- FYL2XP1 (R784), `D9 F9`. -/
  | fyl2xp1
  /-- FNINIT (R802), `DB E3`. -/
  | fninit
  /-- FLDCW (R803), `D9 /5`. -/
  | fldcw (m : Mem)
  /-- FNSTCW (R804), `D9 /7`. -/
  | fnstcw (m : Mem)
  /-- FNSTSW (R805, R806). -/
  | fnstsw (f : FnstswForm)
  /-- FNCLEX (R807), `DB E2`. -/
  | fnclex
  /-- FINCSTP (R808), `D9 F7`. -/
  | fincstp
  /-- FDECSTP (R809), `D9 F6`. -/
  | fdecstp
  /-- FFREE (R810), `DD C0+i`. -/
  | ffree (i : RegNum)
  /-- FNOP (R811), `D9 D0`. -/
  | fnop
  /-- FENI (R813), `DB E0`. -/
  | feni
  /-- FDISI (R813), `DB E1`. -/
  | fdisi
  /-- FSETPM (R813), `DB E4`. -/
  | fsetpm
  /-- FNSTENV (R816), `D9 /6`. -/
  | fnstenv (m : Mem)
  /-- FLDENV (R817), `D9 /4`. -/
  | fldenv (m : Mem)
  /-- FNSAVE (R820), `DD /6`. -/
  | fnsave (m : Mem)
  /-- FRSTOR (R821), `DD /4`. -/
  | frstor (m : Mem)
  /-- (undefined ESC) (R595). -/
  | undefinedEsc (f : EscForm)
  deriving DecidableEq, Repr

end Sys2Proof
end

