-- ==== Sys2Proof/WellFormed.lean ====
section
/-! DEFINITION. Well-formed instructions: the terms that the encoding of 30_encoding can write, for given operand and
address sizes. Every check has an ill-formed term in Tests/Slice0.lean that it refuses. -/
namespace Sys2Proof

/-- A displacement a 16-bit addressing form can hold (30_encoding R282). -/
def Disp.wf16 : Disp → Bool
  | .d32 _ => false
  | _ => true

/-- A displacement a 32-bit addressing form can hold (30_encoding R284). -/
def Disp.wf32 : Disp → Bool
  | .d16 _ => false
  | _ => true

/-- The memory forms of the address size `asz` (30_encoding R282, R284, R285): a base written r/m = 110 (16-bit),
r/m = 101 or SIB base = 101 (32-bit) has a displacement, and r/m = 100 (32-bit) is the SIB escape. -/
def Mem.wf (asz : Size) : Mem → Bool
  | .a16 rm d => asz == .s16 && d.wf16 && !(rm == 6 && d == .none)
  | .abs16 _ => asz == .s16
  | .a32 rm d => asz == .s32 && d.wf32 && rm != 4 && !(rm == 5 && d == .none)
  | .abs32 _ => asz == .s32
  | .sib _ _ base d => asz == .s32 && d.wf32 && !(base == 5 && d == .none)
  | .sibAbs _ _ _ => asz == .s32

/-- A register operand is always well formed; a memory operand by its form. -/
def Rm.wf (asz : Size) : Rm → Bool
  | .reg _ => true
  | .mem m => m.wf asz

/-- An immediate, displacement or offset that a field of size `sz` can hold (30_encoding R290). -/
def fits (sz : Size) (v : DWord) : Bool :=
  match sz with
  | .s16 => decide (v.toNat < 65536)
  | .s32 => true

/-- The memory forms of the ESC opcodes D8H to DFH that the table defines: opcode and reg field. -/
def escMemDefined (op reg : Nat) : Bool :=
  match op with
  | 0xD8 => [0x00, 0x01, 0x02, 0x03, 0x04, 0x05, 0x06, 0x07].contains reg
  | 0xD9 => [0x00, 0x02, 0x03, 0x04, 0x05, 0x06, 0x07].contains reg
  | 0xDA => [0x00, 0x01, 0x02, 0x03, 0x04, 0x05, 0x06, 0x07].contains reg
  | 0xDB => [0x00, 0x02, 0x03, 0x05, 0x07].contains reg
  | 0xDC => [0x00, 0x01, 0x02, 0x03, 0x04, 0x05, 0x06, 0x07].contains reg
  | 0xDD => [0x00, 0x02, 0x03, 0x04, 0x06, 0x07].contains reg
  | 0xDE => [0x00, 0x01, 0x02, 0x03, 0x04, 0x05, 0x06, 0x07].contains reg
  | 0xDF => [0x00, 0x02, 0x03, 0x04, 0x05, 0x06, 0x07].contains reg
  | _ => false

/-- The register forms of the ESC opcodes that the table defines: opcode, reg field and r/m field. -/
def escRegDefined (op reg rm : Nat) : Bool :=
  match op with
  | 0xD8 => [0x00, 0x01, 0x02, 0x03, 0x04, 0x05, 0x06, 0x07].contains reg || [].contains (reg * 8 + rm)
  | 0xD9 => [0x00, 0x01, 0x06, 0x07].contains reg || [0x10, 0x20, 0x21, 0x24, 0x25, 0x28, 0x29, 0x2A, 0x2B, 0x2C, 0x2D, 0x2E].contains (reg * 8 + rm)
  | 0xDA => [].contains reg || [0x29].contains (reg * 8 + rm)
  | 0xDB => [].contains reg || [0x20, 0x21, 0x22, 0x23, 0x24].contains (reg * 8 + rm)
  | 0xDC => [0x00, 0x01, 0x04, 0x05, 0x06, 0x07].contains reg || [].contains (reg * 8 + rm)
  | 0xDD => [0x00, 0x02, 0x03, 0x04, 0x05].contains reg || [].contains (reg * 8 + rm)
  | 0xDE => [0x00, 0x01, 0x04, 0x05, 0x06, 0x07].contains reg || [0x19].contains (reg * 8 + rm)
  | 0xDF => [].contains reg || [0x20].contains (reg * 8 + rm)
  | _ => false

/-- Whether some row of the table other than `undefined_ESC` matches the ESC opcode with this ModR/M byte (R314). -/
def escDefined (op : Nat) (reg : RegNum) : Rm → Bool
  | .mem _ => escMemDefined op reg.toNat
  | .reg r => escRegDefined op reg.toNat r.toNat

/-- The second bytes of the two-byte opcodes that have a row of their own (30_encoding R312). -/
def twoByteKnown : List Nat :=
  [0x00, 0x01, 0x02, 0x03, 0x06, 0x08, 0x09, 0x20, 0x21, 0x22, 0x23, 0x24, 0x25, 0x26, 0x80, 0x81, 0x82, 0x83, 0x84, 0x85, 0x86, 0x87, 0x88, 0x89, 0x8A, 0x8B, 0x8C, 0x8D, 0x8E, 0x8F, 0x90, 0x91, 0x92, 0x93, 0x94, 0x95, 0x96, 0x97, 0x98, 0x99, 0x9A] ++
  [0x9B, 0x9C, 0x9D, 0x9E, 0x9F, 0xA0, 0xA1, 0xA3, 0xA4, 0xA5, 0xA8, 0xA9, 0xAB, 0xAC, 0xAD, 0xAF, 0xB0, 0xB1, 0xB2, 0xB3, 0xB4, 0xB5, 0xB6, 0xB7, 0xBA, 0xBB, 0xBC, 0xBD, 0xBE, 0xBF, 0xC0, 0xC1, 0xC8, 0xC9, 0xCA, 0xCB, 0xCC, 0xCD, 0xCE, 0xCF]

/-- The two-byte opcodes that raise #UD for want of another row (30_encoding R312, R313): an unknown second byte, or a
memory-only opcode with mod = 11B. -/
def undefTwoByteWf (b : Byte) : Option (RegNum × RegNum) → Bool
  | .none => !twoByteKnown.contains b.toNat
  | .some (r, _) =>
    (b == 0x01 && [0, 1, 2, 3, 7].contains r.toNat) || b == 0xB2 || b == 0xB4 || b == 0xB5

/-- A well-formed instruction for operand size `osz` and address size `asz`: exactly what the decoder can answer. -/
def Instr.wf (osz asz : Size) : Instr → Bool
  | .repPrefix => true
  | .repnePrefix => true
  | .lockPrefix => true
  | .csPrefix => true
  | .ssPrefix => true
  | .dsPrefix => true
  | .esPrefix => true
  | .fsPrefix => true
  | .gsPrefix => true
  | .opsizePrefix => true
  | .addrsizePrefix => true
  | .add (.ebGb _ m) => m.wf asz
  | .add (.evGv _ m) => m.wf asz
  | .add (.gbEb _ m) => m.wf asz
  | .add (.gvEv _ m) => m.wf asz
  | .add (.alIb _) => true
  | .add (.eaxIv imm) => fits osz imm
  | .add (.eb80 m _) => m.wf asz
  | .add (.ev81 m imm) => m.wf asz && fits osz imm
  | .add (.eb82 m _) => m.wf asz
  | .add (.ev83 m _) => m.wf asz
  | .or (.ebGb _ m) => m.wf asz
  | .or (.evGv _ m) => m.wf asz
  | .or (.gbEb _ m) => m.wf asz
  | .or (.gvEv _ m) => m.wf asz
  | .or (.alIb _) => true
  | .or (.eaxIv imm) => fits osz imm
  | .or (.eb80 m _) => m.wf asz
  | .or (.ev81 m imm) => m.wf asz && fits osz imm
  | .or (.eb82 m _) => m.wf asz
  | .or (.ev83 m _) => m.wf asz
  | .adc (.ebGb _ m) => m.wf asz
  | .adc (.evGv _ m) => m.wf asz
  | .adc (.gbEb _ m) => m.wf asz
  | .adc (.gvEv _ m) => m.wf asz
  | .adc (.alIb _) => true
  | .adc (.eaxIv imm) => fits osz imm
  | .adc (.eb80 m _) => m.wf asz
  | .adc (.ev81 m imm) => m.wf asz && fits osz imm
  | .adc (.eb82 m _) => m.wf asz
  | .adc (.ev83 m _) => m.wf asz
  | .sbb (.ebGb _ m) => m.wf asz
  | .sbb (.evGv _ m) => m.wf asz
  | .sbb (.gbEb _ m) => m.wf asz
  | .sbb (.gvEv _ m) => m.wf asz
  | .sbb (.alIb _) => true
  | .sbb (.eaxIv imm) => fits osz imm
  | .sbb (.eb80 m _) => m.wf asz
  | .sbb (.ev81 m imm) => m.wf asz && fits osz imm
  | .sbb (.eb82 m _) => m.wf asz
  | .sbb (.ev83 m _) => m.wf asz
  | .and (.ebGb _ m) => m.wf asz
  | .and (.evGv _ m) => m.wf asz
  | .and (.gbEb _ m) => m.wf asz
  | .and (.gvEv _ m) => m.wf asz
  | .and (.alIb _) => true
  | .and (.eaxIv imm) => fits osz imm
  | .and (.eb80 m _) => m.wf asz
  | .and (.ev81 m imm) => m.wf asz && fits osz imm
  | .and (.eb82 m _) => m.wf asz
  | .and (.ev83 m _) => m.wf asz
  | .sub (.ebGb _ m) => m.wf asz
  | .sub (.evGv _ m) => m.wf asz
  | .sub (.gbEb _ m) => m.wf asz
  | .sub (.gvEv _ m) => m.wf asz
  | .sub (.alIb _) => true
  | .sub (.eaxIv imm) => fits osz imm
  | .sub (.eb80 m _) => m.wf asz
  | .sub (.ev81 m imm) => m.wf asz && fits osz imm
  | .sub (.eb82 m _) => m.wf asz
  | .sub (.ev83 m _) => m.wf asz
  | .xor (.ebGb _ m) => m.wf asz
  | .xor (.evGv _ m) => m.wf asz
  | .xor (.gbEb _ m) => m.wf asz
  | .xor (.gvEv _ m) => m.wf asz
  | .xor (.alIb _) => true
  | .xor (.eaxIv imm) => fits osz imm
  | .xor (.eb80 m _) => m.wf asz
  | .xor (.ev81 m imm) => m.wf asz && fits osz imm
  | .xor (.eb82 m _) => m.wf asz
  | .xor (.ev83 m _) => m.wf asz
  | .cmp (.ebGb _ m) => m.wf asz
  | .cmp (.evGv _ m) => m.wf asz
  | .cmp (.gbEb _ m) => m.wf asz
  | .cmp (.gvEv _ m) => m.wf asz
  | .cmp (.alIb _) => true
  | .cmp (.eaxIv imm) => fits osz imm
  | .cmp (.eb80 m _) => m.wf asz
  | .cmp (.ev81 m imm) => m.wf asz && fits osz imm
  | .cmp (.eb82 m _) => m.wf asz
  | .cmp (.ev83 m _) => m.wf asz
  | .aaa => true
  | .aas => true
  | .aad _ => true
  | .aam _ => true
  | .daa => true
  | .das => true
  | .arpl _ m => m.wf asz
  | .bound _ m => m.wf asz
  | .push .es => true
  | .push .cs => true
  | .push .ss => true
  | .push .ds => true
  | .pop .es => true
  | .pop .ss => true
  | .pop .ds => true
  | .push .fs => true
  | .pop .fs => true
  | .push .gs => true
  | .pop .gs => true
  | .inc (.reg _) => true
  | .dec (.reg _) => true
  | .push (.reg _) => true
  | .pop (.reg _) => true
  | .pusha => true
  | .popa => true
  | .push (.iv imm) => fits osz imm
  | .push (.ib _) => true
  | .imul (.gvEvIv _ m imm) => m.wf asz && fits osz imm
  | .imul (.gvEvIb _ m _) => m.wf asz
  | .insb => true
  | .insv => true
  | .outsb => true
  | .outsv => true
  | .jO (.short _) => true
  | .jNo (.short _) => true
  | .jB (.short _) => true
  | .jAe (.short _) => true
  | .jE (.short _) => true
  | .jNe (.short _) => true
  | .jBe (.short _) => true
  | .jA (.short _) => true
  | .jS (.short _) => true
  | .jNs (.short _) => true
  | .jP (.short _) => true
  | .jNp (.short _) => true
  | .jL (.short _) => true
  | .jGe (.short _) => true
  | .jLe (.short _) => true
  | .jG (.short _) => true
  | .jO (.near rel) => fits osz rel
  | .jNo (.near rel) => fits osz rel
  | .jB (.near rel) => fits osz rel
  | .jAe (.near rel) => fits osz rel
  | .jE (.near rel) => fits osz rel
  | .jNe (.near rel) => fits osz rel
  | .jBe (.near rel) => fits osz rel
  | .jA (.near rel) => fits osz rel
  | .jS (.near rel) => fits osz rel
  | .jNs (.near rel) => fits osz rel
  | .jP (.near rel) => fits osz rel
  | .jNp (.near rel) => fits osz rel
  | .jL (.near rel) => fits osz rel
  | .jGe (.near rel) => fits osz rel
  | .jLe (.near rel) => fits osz rel
  | .jG (.near rel) => fits osz rel
  | .setO _ m => m.wf asz
  | .setNo _ m => m.wf asz
  | .setB _ m => m.wf asz
  | .setAe _ m => m.wf asz
  | .setE _ m => m.wf asz
  | .setNe _ m => m.wf asz
  | .setBe _ m => m.wf asz
  | .setA _ m => m.wf asz
  | .setS _ m => m.wf asz
  | .setNs _ m => m.wf asz
  | .setP _ m => m.wf asz
  | .setNp _ m => m.wf asz
  | .setL _ m => m.wf asz
  | .setGe _ m => m.wf asz
  | .setLe _ m => m.wf asz
  | .setG _ m => m.wf asz
  | .test (.ebGb _ m) => m.wf asz
  | .test (.evGv _ m) => m.wf asz
  | .xchg (.ebGb _ m) => m.wf asz
  | .xchg (.evGv _ m) => m.wf asz
  | .mov (.ebGb _ m) => m.wf asz
  | .mov (.evGv _ m) => m.wf asz
  | .mov (.gbEb _ m) => m.wf asz
  | .mov (.gvEv _ m) => m.wf asz
  | .mov (.ewSw _ m) => m.wf asz
  | .lea _ m => m.wf asz
  | .mov (.swEw _ m) => m.wf asz
  | .pop (.ev m) => m.wf asz
  | .nop => true
  | .xchg (.eaxReg r) => r != 0
  | .cbw => true
  | .cwd => true
  | .call (.far off _) => fits osz off
  | .wait => true
  | .pushf => true
  | .popf => true
  | .sahf => true
  | .lahf => true
  | .mov (.alOb off) => fits asz off
  | .mov (.eaxOv off) => fits asz off
  | .mov (.obAl off) => fits asz off
  | .mov (.ovEax off) => fits asz off
  | .movsb => true
  | .movsv => true
  | .cmpsb => true
  | .cmpsv => true
  | .test (.alIb _) => true
  | .test (.eaxIv imm) => fits osz imm
  | .stosb => true
  | .stosv => true
  | .lodsb => true
  | .lodsv => true
  | .scasb => true
  | .scasv => true
  | .mov (.r8Ib _ _) => true
  | .mov (.regIv _ imm) => fits osz imm
  | .rol (.ebIb m _) => m.wf asz
  | .rol (.evIb m _) => m.wf asz
  | .rol (.eb1 m) => m.wf asz
  | .rol (.ev1 m) => m.wf asz
  | .rol (.ebCl m) => m.wf asz
  | .rol (.evCl m) => m.wf asz
  | .ror (.ebIb m _) => m.wf asz
  | .ror (.evIb m _) => m.wf asz
  | .ror (.eb1 m) => m.wf asz
  | .ror (.ev1 m) => m.wf asz
  | .ror (.ebCl m) => m.wf asz
  | .ror (.evCl m) => m.wf asz
  | .rcl (.ebIb m _) => m.wf asz
  | .rcl (.evIb m _) => m.wf asz
  | .rcl (.eb1 m) => m.wf asz
  | .rcl (.ev1 m) => m.wf asz
  | .rcl (.ebCl m) => m.wf asz
  | .rcl (.evCl m) => m.wf asz
  | .rcr (.ebIb m _) => m.wf asz
  | .rcr (.evIb m _) => m.wf asz
  | .rcr (.eb1 m) => m.wf asz
  | .rcr (.ev1 m) => m.wf asz
  | .rcr (.ebCl m) => m.wf asz
  | .rcr (.evCl m) => m.wf asz
  | .shl (.ebIb m _) => m.wf asz
  | .shl (.evIb m _) => m.wf asz
  | .shl (.eb1 m) => m.wf asz
  | .shl (.ev1 m) => m.wf asz
  | .shl (.ebCl m) => m.wf asz
  | .shl (.evCl m) => m.wf asz
  | .shr (.ebIb m _) => m.wf asz
  | .shr (.evIb m _) => m.wf asz
  | .shr (.eb1 m) => m.wf asz
  | .shr (.ev1 m) => m.wf asz
  | .shr (.ebCl m) => m.wf asz
  | .shr (.evCl m) => m.wf asz
  | .shl (.ebIb6 m _) => m.wf asz
  | .shl (.evIb6 m _) => m.wf asz
  | .shl (.eb16 m) => m.wf asz
  | .shl (.ev16 m) => m.wf asz
  | .shl (.ebCl6 m) => m.wf asz
  | .shl (.evCl6 m) => m.wf asz
  | .sar (.ebIb m _) => m.wf asz
  | .sar (.evIb m _) => m.wf asz
  | .sar (.eb1 m) => m.wf asz
  | .sar (.ev1 m) => m.wf asz
  | .sar (.ebCl m) => m.wf asz
  | .sar (.evCl m) => m.wf asz
  | .ret (.iw _) => true
  | .ret .plain => true
  | .les _ m => m.wf asz
  | .lds _ m => m.wf asz
  | .lss _ m => m.wf asz
  | .lfs _ m => m.wf asz
  | .lgs _ m => m.wf asz
  | .mov (.ebIb m _) => m.wf asz
  | .mov (.evIv m imm) => m.wf asz && fits osz imm
  | .enter _ _ => true
  | .leave => true
  | .retf (.iw _) => true
  | .retf .plain => true
  | .int3 => true
  | .intIb _ => true
  | .into => true
  | .iret => true
  | .undefined .opD6 => true
  | .xlat => true
  | .loopne _ => true
  | .loope _ => true
  | .loop _ => true
  | .jcxz _ => true
  | .in_ (.alIb _) => true
  | .in_ (.eaxIb _) => true
  | .out (.ibAl _) => true
  | .out (.ibEax _) => true
  | .call (.rel rel) => fits osz rel
  | .jmp (.rel rel) => fits osz rel
  | .jmp (.far off _) => fits osz off
  | .jmp (.rel8 _) => true
  | .in_ .alDx => true
  | .in_ .eaxDx => true
  | .out .dxAl => true
  | .out .dxEax => true
  | .undefined .opF1 => true
  | .hlt => true
  | .cmc => true
  | .test (.ebIb m _) => m.wf asz
  | .test (.evIv m imm) => m.wf asz && fits osz imm
  | .not (.eb m) => m.wf asz
  | .not (.ev m) => m.wf asz
  | .neg (.eb m) => m.wf asz
  | .neg (.ev m) => m.wf asz
  | .mul (.eb m) => m.wf asz
  | .mul (.ev m) => m.wf asz
  | .imul (.eb m) => m.wf asz
  | .imul (.ev m) => m.wf asz
  | .div (.eb m) => m.wf asz
  | .div (.ev m) => m.wf asz
  | .idiv (.eb m) => m.wf asz
  | .idiv (.ev m) => m.wf asz
  | .undefined (.opF6 m) => m.wf asz
  | .undefined (.opF7 m) => m.wf asz
  | .clc => true
  | .stc => true
  | .cli => true
  | .sti => true
  | .cld => true
  | .std => true
  | .inc (.eb m) => m.wf asz
  | .dec (.eb m) => m.wf asz
  | .inc (.ev m) => m.wf asz
  | .dec (.ev m) => m.wf asz
  | .call (.ev m) => m.wf asz
  | .call (.mp m) => m.wf asz
  | .jmp (.ev m) => m.wf asz
  | .jmp (.mp m) => m.wf asz
  | .push (.ev m) => m.wf asz
  | .undefined (.opFF7 m) => m.wf asz
  | .undefined (.opFE r m) => m.wf asz && decide (2 ≤ r.toNat)
  | .undefined (.op8F r m) => m.wf asz && r != 0
  | .undefined (.opC6 r m) => m.wf asz && r != 0
  | .undefined (.opC7 r m) => m.wf asz && r != 0
  | .undefined (.op62 _ _) => true
  | .undefined (.op8D _ _) => true
  | .undefined (.opC4 _ _) => true
  | .undefined (.opC5 _ _) => true
  | .undefined (.opFF3 _) => true
  | .undefined (.opFF5 _) => true
  | .sldt m => m.wf asz
  | .str m => m.wf asz
  | .lldt m => m.wf asz
  | .ltr m => m.wf asz
  | .verr m => m.wf asz
  | .verw m => m.wf asz
  | .undefined (.op0F006 m) => m.wf asz
  | .undefined (.op0F007 m) => m.wf asz
  | .sgdt m => m.wf asz
  | .sidt m => m.wf asz
  | .lgdt m => m.wf asz
  | .lidt m => m.wf asz
  | .smsw m => m.wf asz
  | .undefined (.op0F015 m) => m.wf asz
  | .lmsw m => m.wf asz
  | .invlpg m => m.wf asz
  | .lar _ m => m.wf asz
  | .lsl _ m => m.wf asz
  | .clts => true
  | .invd => true
  | .wbinvd => true
  | .mov (.fromCr _ _ _) => true
  | .mov (.fromDr _ _ _) => true
  | .mov (.toCr _ _ _) => true
  | .mov (.toDr _ _ _) => true
  | .mov (.fromTr _ _ _) => true
  | .mov (.toTr _ _ _) => true
  | .bt (.evGv _ m) => m.wf asz
  | .shld (.ib _ m _) => m.wf asz
  | .shld (.cl _ m) => m.wf asz
  | .bts (.evGv _ m) => m.wf asz
  | .shrd (.ib _ m _) => m.wf asz
  | .shrd (.cl _ m) => m.wf asz
  | .imul (.gvEv _ m) => m.wf asz
  | .cmpxchg (.ebGb _ m) => m.wf asz
  | .cmpxchg (.evGv _ m) => m.wf asz
  | .btr (.evGv _ m) => m.wf asz
  | .movzx (.gvEb _ m) => m.wf asz
  | .movzx (.gvEw _ m) => m.wf asz
  | .undefined (.op0FBA r m) => m.wf asz && decide (r.toNat < 4)
  | .bt (.evIb m _) => m.wf asz
  | .bts (.evIb m _) => m.wf asz
  | .btr (.evIb m _) => m.wf asz
  | .btc (.evIb m _) => m.wf asz
  | .btc (.evGv _ m) => m.wf asz
  | .bsf _ m => m.wf asz
  | .bsr _ m => m.wf asz
  | .movsx (.gvEb _ m) => m.wf asz
  | .movsx (.gvEw _ m) => m.wf asz
  | .xadd (.ebGb _ m) => m.wf asz
  | .xadd (.evGv _ m) => m.wf asz
  | .bswap _ => true
  | .undefined (.op0F25 _ _ _) => true
  | .undefined (.op0F b m) => undefTwoByteWf b m
  | .fld (.m32 m) => m.wf asz
  | .fld (.m64 m) => m.wf asz
  | .fld (.m80 m) => m.wf asz
  | .fld (.st _) => true
  | .fild (.m16 m) => m.wf asz
  | .fild (.m32 m) => m.wf asz
  | .fild (.m64 m) => m.wf asz
  | .fbld m => m.wf asz
  | .fst (.m32 m) => m.wf asz
  | .fst (.m64 m) => m.wf asz
  | .fst (.st _) => true
  | .fist (.m16 m) => m.wf asz
  | .fist (.m32 m) => m.wf asz
  | .fstp (.m32 m) => m.wf asz
  | .fstp (.m64 m) => m.wf asz
  | .fstp (.m80 m) => m.wf asz
  | .fstp (.st _) => true
  | .fistp (.m16 m) => m.wf asz
  | .fistp (.m32 m) => m.wf asz
  | .fistp (.m64 m) => m.wf asz
  | .fbstp m => m.wf asz
  | .fxch _ => true
  | .fld1 => true
  | .fldl2t => true
  | .fldl2e => true
  | .fldpi => true
  | .fldlg2 => true
  | .fldln2 => true
  | .fldz => true
  | .fadd (.m32 m) => m.wf asz
  | .fadd (.m64 m) => m.wf asz
  | .fiadd (.m32 m) => m.wf asz
  | .fiadd (.m16 m) => m.wf asz
  | .fadd (.stSti _) => true
  | .fadd (.stiSt _) => true
  | .faddp _ => true
  | .fmul (.m32 m) => m.wf asz
  | .fmul (.m64 m) => m.wf asz
  | .fimul (.m32 m) => m.wf asz
  | .fimul (.m16 m) => m.wf asz
  | .fmul (.stSti _) => true
  | .fmul (.stiSt _) => true
  | .fmulp _ => true
  | .fsub (.m32 m) => m.wf asz
  | .fsub (.m64 m) => m.wf asz
  | .fisub (.m32 m) => m.wf asz
  | .fisub (.m16 m) => m.wf asz
  | .fsub (.stSti _) => true
  | .fsub (.stiSt _) => true
  | .fsubp _ => true
  | .fsubr (.m32 m) => m.wf asz
  | .fsubr (.m64 m) => m.wf asz
  | .fisubr (.m32 m) => m.wf asz
  | .fisubr (.m16 m) => m.wf asz
  | .fsubr (.stSti _) => true
  | .fsubr (.stiSt _) => true
  | .fsubrp _ => true
  | .fdiv (.m32 m) => m.wf asz
  | .fdiv (.m64 m) => m.wf asz
  | .fidiv (.m32 m) => m.wf asz
  | .fidiv (.m16 m) => m.wf asz
  | .fdiv (.stSti _) => true
  | .fdiv (.stiSt _) => true
  | .fdivp _ => true
  | .fdivr (.m32 m) => m.wf asz
  | .fdivr (.m64 m) => m.wf asz
  | .fidivr (.m32 m) => m.wf asz
  | .fidivr (.m16 m) => m.wf asz
  | .fdivr (.stSti _) => true
  | .fdivr (.stiSt _) => true
  | .fdivrp _ => true
  | .fsqrt => true
  | .fscale => true
  | .fprem => true
  | .fprem1 => true
  | .frndint => true
  | .fxtract => true
  | .fabs => true
  | .fchs => true
  | .fcom (.m32 m) => m.wf asz
  | .fcom (.m64 m) => m.wf asz
  | .fcom (.st _) => true
  | .fcomp (.m32 m) => m.wf asz
  | .fcomp (.m64 m) => m.wf asz
  | .fcomp (.st _) => true
  | .fcompp => true
  | .ficom (.m16 m) => m.wf asz
  | .ficom (.m32 m) => m.wf asz
  | .ficomp (.m16 m) => m.wf asz
  | .ficomp (.m32 m) => m.wf asz
  | .fucom _ => true
  | .fucomp _ => true
  | .fucompp => true
  | .ftst => true
  | .fxam => true
  | .fptan => true
  | .fpatan => true
  | .fsin => true
  | .fcos => true
  | .fsincos => true
  | .f2xm1 => true
  | .fyl2x => true
  | .fyl2xp1 => true
  | .fninit => true
  | .fldcw m => m.wf asz
  | .fnstcw m => m.wf asz
  | .fnstsw (.mem m) => m.wf asz
  | .fnstsw .ax => true
  | .fnclex => true
  | .fincstp => true
  | .fdecstp => true
  | .ffree _ => true
  | .fnop => true
  | .feni => true
  | .fdisi => true
  | .fsetpm => true
  | .fnstenv m => m.wf asz
  | .fldenv m => m.wf asz
  | .fnsave m => m.wf asz
  | .frstor m => m.wf asz
  | .undefinedEsc (.d8 r m) => m.wf asz && !escDefined 0xD8 r m
  | .undefinedEsc (.d9 r m) => m.wf asz && !escDefined 0xD9 r m
  | .undefinedEsc (.da r m) => m.wf asz && !escDefined 0xDA r m
  | .undefinedEsc (.db r m) => m.wf asz && !escDefined 0xDB r m
  | .undefinedEsc (.dc r m) => m.wf asz && !escDefined 0xDC r m
  | .undefinedEsc (.dd r m) => m.wf asz && !escDefined 0xDD r m
  | .undefinedEsc (.de r m) => m.wf asz && !escDefined 0xDE r m
  | .undefinedEsc (.df r m) => m.wf asz && !escDefined 0xDF r m

end Sys2Proof
end

