-- ==== Sys2Proof/Decode.lean ====
section
/-! DEFINITION. The decoder, total on any bytes, and the encoder (30_encoding R264 to R267, R280 to R286, R290, R305,
R310 to R314). Both go through `Raw`, the layout of one item of the instruction stream: opcode, ModR/M part, immediate
part. The decoder reads ONE item: a prefix byte is an item of its own (its constructors stand for it), and `step` reads
items until one is not a prefix, with the sizes that the prefixes before it give (R305). -/
namespace Sys2Proof

/-- Why a byte string is no instruction. -/
inductive DecodeError where
  /-- The bytes end before the item does. -/
  | truncated
  /-- No row of the table: never answered for bytes that a table row matches. -/
  | undefined
  deriving DecidableEq, Repr

/-- What follows the opcode before the immediate: nothing, a register number inside the opcode (+rb, +rw, +rd),
ModR/M with SIB and displacement, or a ModR/M byte whose mod field is ignored (MOV to and from CRn, DRn, TRn). -/
inductive Tail where
  | none
  | opreg (r : RegNum)
  | rm (reg : RegNum) (m : Rm)
  | raw (mode : BitVec 2) (reg rm : RegNum)
  deriving DecidableEq, Repr

/-- The immediate part (30_encoding R290); `ib` also holds `cb`, `iv` also `cv`. -/
inductive Imm where
  | none
  | ib (v : Byte)
  | iw (v : Word)
  | iv (v : DWord)
  | cp (off : DWord) (sel : Word)
  | moffs (off : DWord)
  | enter (size : Word) (level : Byte)
  deriving DecidableEq, Repr

/-- The layout of one item: whether the opcode has the 0FH escape, the opcode byte (for `opreg` without its register
number), ModR/M part and immediate part. -/
structure Raw where
  two : Bool
  op : Byte
  tail : Tail
  imm : Imm
  deriving DecidableEq, Repr

/-! ### Little-endian pieces (30_encoding R266) -/

/-- The two bytes of a word, low byte first. -/
def bytes2 (w : Word) : List Byte := [w.extractLsb' 0 8, w.extractLsb' 8 8]

/-- The four bytes of a dword, low byte first. -/
def bytes4 (d : DWord) : List Byte :=
  [d.extractLsb' 0 8, d.extractLsb' 8 8, d.extractLsb' 16 8, d.extractLsb' 24 8]

/-- Reads one byte. -/
def take1 : List Byte → Except DecodeError (Byte × List Byte)
  | b :: bs => .ok (b, bs)
  | [] => .error .truncated

/-- Reads a word. -/
def take2 : List Byte → Except DecodeError (Word × List Byte)
  | b0 :: b1 :: bs => .ok (b1 ++ b0, bs)
  | _ => .error .truncated

/-- Reads a dword. -/
def take4 : List Byte → Except DecodeError (DWord × List Byte)
  | b0 :: b1 :: b2 :: b3 :: bs => .ok (b3 ++ b2 ++ b1 ++ b0, bs)
  | _ => .error .truncated

/-- Reads a 2- or 4-byte value by a size attribute, zero-extended. -/
def takeV (sz : Size) (bs : List Byte) : Except DecodeError (DWord × List Byte) :=
  match sz with
  | .s16 => match take2 bs with
    | .ok (w, bs) => .ok (w.setWidth 32, bs)
    | .error e => .error e
  | .s32 => take4 bs

/-- The bytes of a 2- or 4-byte value by a size attribute. -/
def bytesV (sz : Size) (v : DWord) : List Byte :=
  match sz with
  | .s16 => bytes2 (v.setWidth 16)
  | .s32 => bytes4 v

/-! ### ModR/M, SIB and displacement -/

/-- The mod field of a form with displacement `d` (30_encoding R282, R284). -/
def Disp.mode : Disp → BitVec 2
  | .none => 0
  | .d8 _ => 1
  | .d16 _ => 2
  | .d32 _ => 2

/-- The bytes of a displacement. -/
def Disp.bytes : Disp → List Byte
  | .none => []
  | .d8 v => [v]
  | .d16 v => bytes2 v
  | .d32 v => bytes4 v

/-- The mod field of a memory form. -/
def Mem.mode : Mem → BitVec 2
  | .a16 _ d => d.mode
  | .abs16 _ => 0
  | .a32 _ d => d.mode
  | .abs32 _ => 0
  | .sib _ _ _ d => d.mode
  | .sibAbs _ _ _ => 0

/-- The r/m field of a memory form. -/
def Mem.rmField : Mem → RegNum
  | .a16 rm _ => rm
  | .abs16 _ => 6
  | .a32 rm _ => rm
  | .abs32 _ => 5
  | .sib _ _ _ _ => 4
  | .sibAbs _ _ _ => 4

/-- The bytes that follow ModR/M: SIB and displacement. -/
def Mem.restBytes : Mem → List Byte
  | .a16 _ d => d.bytes
  | .abs16 v => bytes2 v
  | .a32 _ d => d.bytes
  | .abs32 v => bytes4 v
  | .sib ss index base d => (ss ++ index ++ base) :: d.bytes
  | .sibAbs ss index v => (ss ++ index ++ (5 : RegNum)) :: bytes4 v

/-- ModR/M and what follows it (30_encoding R280). -/
def encodeRm (reg : RegNum) : Rm → List Byte
  | .reg r => [(3 : BitVec 2) ++ reg ++ r]
  | .mem m => (m.mode ++ reg ++ m.rmField) :: m.restBytes

/-- Reads the displacement of a 16-bit form with mod 00, 01 or 10 (30_encoding R282). -/
def takeDisp16 (mode : BitVec 2) (bs : List Byte) : Except DecodeError (Disp × List Byte) :=
  match mode.toNat with
  | 0 => .ok (.none, bs)
  | 1 => match take1 bs with
    | .ok (v, bs) => .ok (.d8 v, bs)
    | .error e => .error e
  | _ => match take2 bs with
    | .ok (v, bs) => .ok (.d16 v, bs)
    | .error e => .error e

/-- Reads the displacement of a 32-bit form with mod 00, 01 or 10 (30_encoding R284). -/
def takeDisp32 (mode : BitVec 2) (bs : List Byte) : Except DecodeError (Disp × List Byte) :=
  match mode.toNat with
  | 0 => .ok (.none, bs)
  | 1 => match take1 bs with
    | .ok (v, bs) => .ok (.d8 v, bs)
    | .error e => .error e
  | _ => match take4 bs with
    | .ok (v, bs) => .ok (.d32 v, bs)
    | .error e => .error e

/-- Reads a 16-bit memory form (30_encoding R282). -/
def takeMem16 (mode : BitVec 2) (rm : RegNum) (bs : List Byte) : Except DecodeError (Mem × List Byte) :=
  if mode = 0 ∧ rm = 6 then
    match take2 bs with
    | .ok (v, bs) => .ok (.abs16 v, bs)
    | .error e => .error e
  else
    match takeDisp16 mode bs with
    | .ok (d, bs) => .ok (.a16 rm d, bs)
    | .error e => .error e

/-- Reads a SIB form after its ModR/M byte (30_encoding R285). -/
def takeSib (mode : BitVec 2) (bs : List Byte) : Except DecodeError (Mem × List Byte) :=
  match take1 bs with
  | .error e => .error e
  | .ok (s, bs) =>
    let ss : BitVec 2 := s.extractLsb' 6 2
    let index : RegNum := s.extractLsb' 3 3
    let base : RegNum := s.extractLsb' 0 3
    if mode = 0 ∧ base = 5 then
      match take4 bs with
      | .ok (v, bs) => .ok (.sibAbs ss index v, bs)
      | .error e => .error e
    else
      match takeDisp32 mode bs with
      | .ok (d, bs) => .ok (.sib ss index base d, bs)
      | .error e => .error e

/-- Reads a 32-bit memory form (30_encoding R284, R285). -/
def takeMem32 (mode : BitVec 2) (rm : RegNum) (bs : List Byte) : Except DecodeError (Mem × List Byte) :=
  if rm = 4 then takeSib mode bs
  else if mode = 0 ∧ rm = 5 then
    match take4 bs with
    | .ok (v, bs) => .ok (.abs32 v, bs)
    | .error e => .error e
  else
    match takeDisp32 mode bs with
    | .ok (d, bs) => .ok (.a32 rm d, bs)
    | .error e => .error e

/-- Reads ModR/M and what follows it (30_encoding R280 to R285): the reg field and the r/m operand. -/
def takeRm (asz : Size) (bs : List Byte) : Except DecodeError ((RegNum × Rm) × List Byte) :=
  match take1 bs with
  | .error e => .error e
  | .ok (b, bs) =>
    let mode : BitVec 2 := b.extractLsb' 6 2
    let reg : RegNum := b.extractLsb' 3 3
    let rm : RegNum := b.extractLsb' 0 3
    if mode = 3 then .ok ((reg, .reg rm), bs)
    else
      match (match asz with
        | .s16 => takeMem16 mode rm bs
        | .s32 => takeMem32 mode rm bs) with
      | .ok (m, bs) => .ok ((reg, .mem m), bs)
      | .error e => .error e

/-! ### Opcode classes (30_encoding R310 to R314) -/

/-- What follows an opcode byte. -/
inductive TailKind where
  | none
  | opreg
  | rm
  | raw
  deriving DecidableEq, Repr

/-- The kind of immediate part. -/
inductive ImmKind where
  | none
  | ib
  | iw
  | iv
  | cp
  | moffs
  | enter
  deriving DecidableEq, Repr

/-- One-byte opcodes with a register number in the low three bits (R310, R311). -/
def opregOne : List Nat := [0x40, 0x48, 0x50, 0x58, 0x90, 0xB0, 0xB8]

/-- One-byte opcodes with a ModR/M byte (R313). -/
def modrmOne : List Nat :=
  [0x00, 0x01, 0x02, 0x03, 0x08, 0x09, 0x0A, 0x0B, 0x10, 0x11, 0x12, 0x13, 0x18, 0x19, 0x1A, 0x1B, 0x20, 0x21, 0x22, 0x23, 0x28, 0x29, 0x2A, 0x2B, 0x30, 0x31, 0x32, 0x33, 0x38, 0x39, 0x3A, 0x3B, 0x62, 0x63, 0x69, 0x6B, 0x80, 0x81, 0x82, 0x83, 0x84, 0x85, 0x86, 0x87, 0x88, 0x89, 0x8A, 0x8B, 0x8C, 0x8D, 0x8E, 0x8F, 0xC0, 0xC1, 0xC4, 0xC5, 0xC6, 0xC7, 0xD0, 0xD1, 0xD2, 0xD3, 0xD8, 0xD9, 0xDA, 0xDB, 0xDC, 0xDD, 0xDE, 0xDF, 0xF6, 0xF7, 0xFE, 0xFF]

/-- Two-byte opcodes with a ModR/M byte (R313). -/
def modrmTwo : List Nat :=
  [0x00, 0x01, 0x02, 0x03, 0x90, 0x91, 0x92, 0x93, 0x94, 0x95, 0x96, 0x97, 0x98, 0x99, 0x9A, 0x9B, 0x9C, 0x9D, 0x9E, 0x9F, 0xA3, 0xA4, 0xA5, 0xAB, 0xAC, 0xAD, 0xAF, 0xB0, 0xB1, 0xB2, 0xB3, 0xB4, 0xB5, 0xB6, 0xB7, 0xBA, 0xBB, 0xBC, 0xBD, 0xBE, 0xBF, 0xC0, 0xC1]

/-- The two-byte opcodes MOV to and from CRn, DRn, TRn, whose mod field is ignored (R313). Among them R313 lists 25, which no
row defines: its ModR/M byte is taken as theirs is, with nothing after it. DEDUCED (notes/assumptions/71, UNSAFE). -/
def modrmIgnored : List Nat := [0x20, 0x21, 0x22, 0x23, 0x24, 0x25, 0x26]

/-- What follows the opcode byte. -/
def tailKind (two : Bool) (op : Nat) : TailKind :=
  if two then
    if modrmTwo.contains op then .rm
    else if modrmIgnored.contains op then .raw
    else if op / 8 * 8 = 0xC8 then .opreg
    else .none
  else
    if modrmOne.contains op then .rm
    else if opregOne.contains (op / 8 * 8) then .opreg
    else .none

/-- The immediate part of a one-byte opcode; `reg` is the reg field, which decides for C6, C7, F6 and F7. -/
def immKindOne (op reg : Nat) : ImmKind :=
  if [0x04, 0x0C, 0x14, 0x1C, 0x24, 0x2C, 0x34, 0x3C, 0x6A, 0x6B, 0x70, 0x71, 0x72, 0x73, 0x74, 0x75, 0x76, 0x77, 0x78, 0x79, 0x7A, 0x7B, 0x7C, 0x7D, 0x7E, 0x7F, 0x80, 0x82, 0x83, 0xA8, 0xB0, 0xC0, 0xC1, 0xCD, 0xD4, 0xD5, 0xE0, 0xE1, 0xE2, 0xE3, 0xE4, 0xE5, 0xE6, 0xE7, 0xEB].contains op then .ib
  else if [0x05, 0x0D, 0x15, 0x1D, 0x25, 0x2D, 0x35, 0x3D, 0x68, 0x69, 0x81, 0xA9, 0xB8, 0xE8, 0xE9].contains op then .iv
  else if op = 0xC6 ∨ op = 0xF6 then (if reg = 0 then .ib else .none)
  else if op = 0xC7 ∨ op = 0xF7 then (if reg = 0 then .iv else .none)
  else if [0xA0, 0xA1, 0xA2, 0xA3].contains op then .moffs
  else if [0xC2, 0xCA].contains op then .iw
  else if [0x9A, 0xEA].contains op then .cp
  else if op = 0xC8 then .enter
  else .none

/-- The immediate part of a two-byte opcode; `reg` decides for 0F BA: /0 to /3, which raise #UD (42_integer R442), fetch no imm8,
and so meet no fetch fault and no length of it. R312 writes the group as 0F BA /n ib and opcode_table.json the format of this
row with ib, but the row lists no `imm` item, which R314 reads as none: DESIGN CHOICE (notes/assumptions/83, UNSAFE). -/
def immKindTwo (op reg : Nat) : ImmKind :=
  if 0x80 ≤ op ∧ op ≤ 0x8F then .iv
  else if op = 0xA4 ∨ op = 0xAC then .ib
  else if op = 0xBA ∧ 4 ≤ reg then .ib
  else .none

/-- The immediate part. -/
def immKind (two : Bool) (op reg : Nat) : ImmKind :=
  if two then immKindTwo op reg else immKindOne op reg

/-- The reg field of a ModR/M part, 0 without one. -/
def Tail.regField : Tail → Nat
  | .rm reg _ => reg.toNat
  | _ => 0

/-- Reads what follows the opcode byte `op`. -/
def takeTail (asz : Size) (k : TailKind) (op : Byte) (bs : List Byte) : Except DecodeError (Tail × List Byte) :=
  match k with
  | .none => .ok (.none, bs)
  | .opreg => .ok (.opreg (op.extractLsb' 0 3), bs)
  | .rm => match takeRm asz bs with
    | .ok ((reg, m), bs) => .ok (.rm reg m, bs)
    | .error e => .error e
  | .raw => match take1 bs with
    | .ok (b, bs) => .ok (.raw (b.extractLsb' 6 2) (b.extractLsb' 3 3) (b.extractLsb' 0 3), bs)
    | .error e => .error e

/-- Reads the immediate part (30_encoding R290; a far pointer is offset first, R266). -/
def takeImm (osz asz : Size) (k : ImmKind) (bs : List Byte) : Except DecodeError (Imm × List Byte) :=
  match k with
  | .none => .ok (.none, bs)
  | .ib => match take1 bs with
    | .ok (v, bs) => .ok (.ib v, bs)
    | .error e => .error e
  | .iw => match take2 bs with
    | .ok (v, bs) => .ok (.iw v, bs)
    | .error e => .error e
  | .iv => match takeV osz bs with
    | .ok (v, bs) => .ok (.iv v, bs)
    | .error e => .error e
  | .cp => match takeV osz bs with
    | .ok (v, bs) => match take2 bs with
      | .ok (w, bs) => .ok (.cp v w, bs)
      | .error e => .error e
    | .error e => .error e
  | .moffs => match takeV asz bs with
    | .ok (v, bs) => .ok (.moffs v, bs)
    | .error e => .error e
  | .enter => match take2 bs with
    | .ok (w, bs) => match take1 bs with
      | .ok (v, bs) => .ok (.enter w v, bs)
      | .error e => .error e
    | .error e => .error e

/-- The opcode byte without the register number it may hold. -/
def opBase (k : TailKind) (op : Byte) : Byte :=
  match k with
  | .opreg => op &&& 0xF8
  | _ => op

/-- Reads an item whose opcode byte (after the 0FH escape, if `two`) is `op`. -/
def takeItem (osz asz : Size) (two : Bool) (op : Byte) (bs : List Byte) : Except DecodeError (Raw × List Byte) :=
  let k := tailKind two op.toNat
  match takeTail asz k op bs with
  | .error e => .error e
  | .ok (t, bs) =>
    let base := opBase k op
    match takeImm osz asz (immKind two base.toNat t.regField) bs with
    | .error e => .error e
    | .ok (im, bs) => .ok (⟨two, base, t, im⟩, bs)

/-- Reads one item (30_encoding R305): opcode, ModR/M, SIB, displacement, immediate. -/
def takeRaw (osz asz : Size) (bs : List Byte) : Except DecodeError (Raw × List Byte) :=
  match take1 bs with
  | .error e => .error e
  | .ok (b, bs) =>
    if b = 0x0F then
      match take1 bs with
      | .error e => .error e
      | .ok (b, bs) => takeItem osz asz true b bs
    else takeItem osz asz false b bs

/-! ### From layout to instruction -/

/-- The rows of opcode 62 (R314). -/
def op62 (r : RegNum) (m : Rm) (im : Imm) : Option Instr :=
  match im, m with
  | .none, .mem m =>
    match r.toNat with
    | _ => some (.bound r m)
  | .none, .reg i =>
    match r.toNat, i.toNat with
    | _, _ => some (.undefined (.op62 r i))
  | _, _ => none

/-- The rows of opcode 80 (R314). -/
def op80 (r : RegNum) (m : Rm) (im : Imm) : Option Instr :=
  match im with
  | .ib x =>
    match r.toNat with
    | 0 => some (.add (.eb80 m x))
    | 1 => some (.or (.eb80 m x))
    | 2 => some (.adc (.eb80 m x))
    | 3 => some (.sbb (.eb80 m x))
    | 4 => some (.and (.eb80 m x))
    | 5 => some (.sub (.eb80 m x))
    | 6 => some (.xor (.eb80 m x))
    | 7 => some (.cmp (.eb80 m x))
    | _ => none
  | _ => none

/-- The rows of opcode 81 (R314). -/
def op81 (r : RegNum) (m : Rm) (im : Imm) : Option Instr :=
  match im with
  | .iv x =>
    match r.toNat with
    | 0 => some (.add (.ev81 m x))
    | 1 => some (.or (.ev81 m x))
    | 2 => some (.adc (.ev81 m x))
    | 3 => some (.sbb (.ev81 m x))
    | 4 => some (.and (.ev81 m x))
    | 5 => some (.sub (.ev81 m x))
    | 6 => some (.xor (.ev81 m x))
    | 7 => some (.cmp (.ev81 m x))
    | _ => none
  | _ => none

/-- The rows of opcode 82 (R314). -/
def op82 (r : RegNum) (m : Rm) (im : Imm) : Option Instr :=
  match im with
  | .ib x =>
    match r.toNat with
    | 0 => some (.add (.eb82 m x))
    | 1 => some (.or (.eb82 m x))
    | 2 => some (.adc (.eb82 m x))
    | 3 => some (.sbb (.eb82 m x))
    | 4 => some (.and (.eb82 m x))
    | 5 => some (.sub (.eb82 m x))
    | 6 => some (.xor (.eb82 m x))
    | 7 => some (.cmp (.eb82 m x))
    | _ => none
  | _ => none

/-- The rows of opcode 83 (R314). -/
def op83 (r : RegNum) (m : Rm) (im : Imm) : Option Instr :=
  match im with
  | .ib x =>
    match r.toNat with
    | 0 => some (.add (.ev83 m x))
    | 1 => some (.or (.ev83 m x))
    | 2 => some (.adc (.ev83 m x))
    | 3 => some (.sbb (.ev83 m x))
    | 4 => some (.and (.ev83 m x))
    | 5 => some (.sub (.ev83 m x))
    | 6 => some (.xor (.ev83 m x))
    | 7 => some (.cmp (.ev83 m x))
    | _ => none
  | _ => none

/-- The rows of opcode 8D (R314). -/
def op8D (r : RegNum) (m : Rm) (im : Imm) : Option Instr :=
  match im, m with
  | .none, .mem m =>
    match r.toNat with
    | _ => some (.lea r m)
  | .none, .reg i =>
    match r.toNat, i.toNat with
    | _, _ => some (.undefined (.op8D r i))
  | _, _ => none

/-- The rows of opcode 8F (R314). -/
def op8F (r : RegNum) (m : Rm) (im : Imm) : Option Instr :=
  match im with
  | .none =>
    match r.toNat with
    | 0 => some (.pop (.ev m))
    | _ => some (.undefined (.op8F r m))
  | _ => none

/-- The rows of opcode C0 (R314). -/
def opC0 (r : RegNum) (m : Rm) (im : Imm) : Option Instr :=
  match im with
  | .ib x =>
    match r.toNat with
    | 0 => some (.rol (.ebIb m x))
    | 1 => some (.ror (.ebIb m x))
    | 2 => some (.rcl (.ebIb m x))
    | 3 => some (.rcr (.ebIb m x))
    | 4 => some (.shl (.ebIb m x))
    | 5 => some (.shr (.ebIb m x))
    | 6 => some (.shl (.ebIb6 m x))
    | 7 => some (.sar (.ebIb m x))
    | _ => none
  | _ => none

/-- The rows of opcode C1 (R314). -/
def opC1 (r : RegNum) (m : Rm) (im : Imm) : Option Instr :=
  match im with
  | .ib x =>
    match r.toNat with
    | 0 => some (.rol (.evIb m x))
    | 1 => some (.ror (.evIb m x))
    | 2 => some (.rcl (.evIb m x))
    | 3 => some (.rcr (.evIb m x))
    | 4 => some (.shl (.evIb m x))
    | 5 => some (.shr (.evIb m x))
    | 6 => some (.shl (.evIb6 m x))
    | 7 => some (.sar (.evIb m x))
    | _ => none
  | _ => none

/-- The rows of opcode C4 (R314). -/
def opC4 (r : RegNum) (m : Rm) (im : Imm) : Option Instr :=
  match im, m with
  | .none, .mem m =>
    match r.toNat with
    | _ => some (.les r m)
  | .none, .reg i =>
    match r.toNat, i.toNat with
    | _, _ => some (.undefined (.opC4 r i))
  | _, _ => none

/-- The rows of opcode C5 (R314). -/
def opC5 (r : RegNum) (m : Rm) (im : Imm) : Option Instr :=
  match im, m with
  | .none, .mem m =>
    match r.toNat with
    | _ => some (.lds r m)
  | .none, .reg i =>
    match r.toNat, i.toNat with
    | _, _ => some (.undefined (.opC5 r i))
  | _, _ => none

/-- The rows of opcode C6 (R314). -/
def opC6 (r : RegNum) (m : Rm) (im : Imm) : Option Instr :=
  match r.toNat with
  | 0 => (match im with | .ib x => some (.mov (.ebIb m x)) | _ => none)
  | _ => some (.undefined (.opC6 r m))

/-- The rows of opcode C7 (R314). -/
def opC7 (r : RegNum) (m : Rm) (im : Imm) : Option Instr :=
  match r.toNat with
  | 0 => (match im with | .iv x => some (.mov (.evIv m x)) | _ => none)
  | _ => some (.undefined (.opC7 r m))

/-- The rows of opcode D0 (R314). -/
def opD0 (r : RegNum) (m : Rm) (im : Imm) : Option Instr :=
  match im with
  | .none =>
    match r.toNat with
    | 0 => some (.rol (.eb1 m))
    | 1 => some (.ror (.eb1 m))
    | 2 => some (.rcl (.eb1 m))
    | 3 => some (.rcr (.eb1 m))
    | 4 => some (.shl (.eb1 m))
    | 5 => some (.shr (.eb1 m))
    | 6 => some (.shl (.eb16 m))
    | 7 => some (.sar (.eb1 m))
    | _ => none
  | _ => none

/-- The rows of opcode D1 (R314). -/
def opD1 (r : RegNum) (m : Rm) (im : Imm) : Option Instr :=
  match im with
  | .none =>
    match r.toNat with
    | 0 => some (.rol (.ev1 m))
    | 1 => some (.ror (.ev1 m))
    | 2 => some (.rcl (.ev1 m))
    | 3 => some (.rcr (.ev1 m))
    | 4 => some (.shl (.ev1 m))
    | 5 => some (.shr (.ev1 m))
    | 6 => some (.shl (.ev16 m))
    | 7 => some (.sar (.ev1 m))
    | _ => none
  | _ => none

/-- The rows of opcode D2 (R314). -/
def opD2 (r : RegNum) (m : Rm) (im : Imm) : Option Instr :=
  match im with
  | .none =>
    match r.toNat with
    | 0 => some (.rol (.ebCl m))
    | 1 => some (.ror (.ebCl m))
    | 2 => some (.rcl (.ebCl m))
    | 3 => some (.rcr (.ebCl m))
    | 4 => some (.shl (.ebCl m))
    | 5 => some (.shr (.ebCl m))
    | 6 => some (.shl (.ebCl6 m))
    | 7 => some (.sar (.ebCl m))
    | _ => none
  | _ => none

/-- The rows of opcode D3 (R314). -/
def opD3 (r : RegNum) (m : Rm) (im : Imm) : Option Instr :=
  match im with
  | .none =>
    match r.toNat with
    | 0 => some (.rol (.evCl m))
    | 1 => some (.ror (.evCl m))
    | 2 => some (.rcl (.evCl m))
    | 3 => some (.rcr (.evCl m))
    | 4 => some (.shl (.evCl m))
    | 5 => some (.shr (.evCl m))
    | 6 => some (.shl (.evCl6 m))
    | 7 => some (.sar (.evCl m))
    | _ => none
  | _ => none

/-- The rows of opcode D8 (R314). -/
def opD8 (r : RegNum) (m : Rm) (im : Imm) : Option Instr :=
  match im, m with
  | .none, .mem m =>
    match r.toNat with
    | 0 => some (.fadd (.m32 m))
    | 1 => some (.fmul (.m32 m))
    | 4 => some (.fsub (.m32 m))
    | 5 => some (.fsubr (.m32 m))
    | 6 => some (.fdiv (.m32 m))
    | 7 => some (.fdivr (.m32 m))
    | 2 => some (.fcom (.m32 m))
    | 3 => some (.fcomp (.m32 m))
    | _ => some (.undefinedEsc (.d8 r (.mem m)))
  | .none, .reg i =>
    match r.toNat, i.toNat with
    | 0, _ => some (.fadd (.stSti i))
    | 1, _ => some (.fmul (.stSti i))
    | 4, _ => some (.fsub (.stSti i))
    | 5, _ => some (.fsubr (.stSti i))
    | 6, _ => some (.fdiv (.stSti i))
    | 7, _ => some (.fdivr (.stSti i))
    | 2, _ => some (.fcom (.st i))
    | 3, _ => some (.fcomp (.st i))
    | _, _ => some (.undefinedEsc (.d8 r (.reg i)))
  | _, _ => none

/-- The rows of opcode D9 (R314). -/
def opD9 (r : RegNum) (m : Rm) (im : Imm) : Option Instr :=
  match im, m with
  | .none, .mem m =>
    match r.toNat with
    | 0 => some (.fld (.m32 m))
    | 2 => some (.fst (.m32 m))
    | 3 => some (.fstp (.m32 m))
    | 5 => some (.fldcw m)
    | 7 => some (.fnstcw m)
    | 6 => some (.fnstenv m)
    | 4 => some (.fldenv m)
    | _ => some (.undefinedEsc (.d9 r (.mem m)))
  | .none, .reg i =>
    match r.toNat, i.toNat with
    | 5, 0 => some (.fld1)
    | 5, 1 => some (.fldl2t)
    | 5, 2 => some (.fldl2e)
    | 5, 3 => some (.fldpi)
    | 5, 4 => some (.fldlg2)
    | 5, 5 => some (.fldln2)
    | 5, 6 => some (.fldz)
    | 7, 2 => some (.fsqrt)
    | 7, 5 => some (.fscale)
    | 7, 0 => some (.fprem)
    | 6, 5 => some (.fprem1)
    | 7, 4 => some (.frndint)
    | 6, 4 => some (.fxtract)
    | 4, 1 => some (.fabs)
    | 4, 0 => some (.fchs)
    | 4, 4 => some (.ftst)
    | 4, 5 => some (.fxam)
    | 6, 2 => some (.fptan)
    | 6, 3 => some (.fpatan)
    | 7, 6 => some (.fsin)
    | 7, 7 => some (.fcos)
    | 7, 3 => some (.fsincos)
    | 6, 0 => some (.f2xm1)
    | 6, 1 => some (.fyl2x)
    | 7, 1 => some (.fyl2xp1)
    | 6, 7 => some (.fincstp)
    | 6, 6 => some (.fdecstp)
    | 2, 0 => some (.fnop)
    | 0, _ => some (.fld (.st i))
    | 1, _ => some (.fxch i)
    | _, _ => some (.undefinedEsc (.d9 r (.reg i)))
  | _, _ => none

/-- The rows of opcode DA (R314). -/
def opDA (r : RegNum) (m : Rm) (im : Imm) : Option Instr :=
  match im, m with
  | .none, .mem m =>
    match r.toNat with
    | 0 => some (.fiadd (.m32 m))
    | 1 => some (.fimul (.m32 m))
    | 4 => some (.fisub (.m32 m))
    | 5 => some (.fisubr (.m32 m))
    | 6 => some (.fidiv (.m32 m))
    | 7 => some (.fidivr (.m32 m))
    | 2 => some (.ficom (.m32 m))
    | 3 => some (.ficomp (.m32 m))
    | _ => some (.undefinedEsc (.da r (.mem m)))
  | .none, .reg i =>
    match r.toNat, i.toNat with
    | 5, 1 => some (.fucompp)
    | _, _ => some (.undefinedEsc (.da r (.reg i)))
  | _, _ => none

/-- The rows of opcode DB (R314). -/
def opDB (r : RegNum) (m : Rm) (im : Imm) : Option Instr :=
  match im, m with
  | .none, .mem m =>
    match r.toNat with
    | 5 => some (.fld (.m80 m))
    | 0 => some (.fild (.m32 m))
    | 2 => some (.fist (.m32 m))
    | 7 => some (.fstp (.m80 m))
    | 3 => some (.fistp (.m32 m))
    | _ => some (.undefinedEsc (.db r (.mem m)))
  | .none, .reg i =>
    match r.toNat, i.toNat with
    | 4, 3 => some (.fninit)
    | 4, 2 => some (.fnclex)
    | 4, 0 => some (.feni)
    | 4, 1 => some (.fdisi)
    | 4, 4 => some (.fsetpm)
    | _, _ => some (.undefinedEsc (.db r (.reg i)))
  | _, _ => none

/-- The rows of opcode DC (R314). -/
def opDC (r : RegNum) (m : Rm) (im : Imm) : Option Instr :=
  match im, m with
  | .none, .mem m =>
    match r.toNat with
    | 0 => some (.fadd (.m64 m))
    | 1 => some (.fmul (.m64 m))
    | 4 => some (.fsub (.m64 m))
    | 5 => some (.fsubr (.m64 m))
    | 6 => some (.fdiv (.m64 m))
    | 7 => some (.fdivr (.m64 m))
    | 2 => some (.fcom (.m64 m))
    | 3 => some (.fcomp (.m64 m))
    | _ => some (.undefinedEsc (.dc r (.mem m)))
  | .none, .reg i =>
    match r.toNat, i.toNat with
    | 0, _ => some (.fadd (.stiSt i))
    | 1, _ => some (.fmul (.stiSt i))
    | 5, _ => some (.fsub (.stiSt i))
    | 4, _ => some (.fsubr (.stiSt i))
    | 7, _ => some (.fdiv (.stiSt i))
    | 6, _ => some (.fdivr (.stiSt i))
    | _, _ => some (.undefinedEsc (.dc r (.reg i)))
  | _, _ => none

/-- The rows of opcode DD (R314). -/
def opDD (r : RegNum) (m : Rm) (im : Imm) : Option Instr :=
  match im, m with
  | .none, .mem m =>
    match r.toNat with
    | 0 => some (.fld (.m64 m))
    | 2 => some (.fst (.m64 m))
    | 3 => some (.fstp (.m64 m))
    | 7 => some (.fnstsw (.mem m))
    | 6 => some (.fnsave m)
    | 4 => some (.frstor m)
    | _ => some (.undefinedEsc (.dd r (.mem m)))
  | .none, .reg i =>
    match r.toNat, i.toNat with
    | 2, _ => some (.fst (.st i))
    | 3, _ => some (.fstp (.st i))
    | 4, _ => some (.fucom i)
    | 5, _ => some (.fucomp i)
    | 0, _ => some (.ffree i)
    | _, _ => some (.undefinedEsc (.dd r (.reg i)))
  | _, _ => none

/-- The rows of opcode DE (R314). -/
def opDE (r : RegNum) (m : Rm) (im : Imm) : Option Instr :=
  match im, m with
  | .none, .mem m =>
    match r.toNat with
    | 0 => some (.fiadd (.m16 m))
    | 1 => some (.fimul (.m16 m))
    | 4 => some (.fisub (.m16 m))
    | 5 => some (.fisubr (.m16 m))
    | 6 => some (.fidiv (.m16 m))
    | 7 => some (.fidivr (.m16 m))
    | 2 => some (.ficom (.m16 m))
    | 3 => some (.ficomp (.m16 m))
    | _ => some (.undefinedEsc (.de r (.mem m)))
  | .none, .reg i =>
    match r.toNat, i.toNat with
    | 3, 1 => some (.fcompp)
    | 0, _ => some (.faddp i)
    | 1, _ => some (.fmulp i)
    | 5, _ => some (.fsubp i)
    | 4, _ => some (.fsubrp i)
    | 7, _ => some (.fdivp i)
    | 6, _ => some (.fdivrp i)
    | _, _ => some (.undefinedEsc (.de r (.reg i)))
  | _, _ => none

/-- The rows of opcode DF (R314). -/
def opDF (r : RegNum) (m : Rm) (im : Imm) : Option Instr :=
  match im, m with
  | .none, .mem m =>
    match r.toNat with
    | 0 => some (.fild (.m16 m))
    | 5 => some (.fild (.m64 m))
    | 4 => some (.fbld m)
    | 2 => some (.fist (.m16 m))
    | 3 => some (.fistp (.m16 m))
    | 7 => some (.fistp (.m64 m))
    | 6 => some (.fbstp m)
    | _ => some (.undefinedEsc (.df r (.mem m)))
  | .none, .reg i =>
    match r.toNat, i.toNat with
    | 4, 0 => some (.fnstsw .ax)
    | _, _ => some (.undefinedEsc (.df r (.reg i)))
  | _, _ => none

/-- The rows of opcode F6 (R314). -/
def opF6 (r : RegNum) (m : Rm) (im : Imm) : Option Instr :=
  match r.toNat with
  | 0 => (match im with | .ib x => some (.test (.ebIb m x)) | _ => none)
  | 2 => some (.not (.eb m))
  | 3 => some (.neg (.eb m))
  | 4 => some (.mul (.eb m))
  | 5 => some (.imul (.eb m))
  | 6 => some (.div (.eb m))
  | 7 => some (.idiv (.eb m))
  | 1 => some (.undefined (.opF6 m))
  | _ => none

/-- The rows of opcode F7 (R314). -/
def opF7 (r : RegNum) (m : Rm) (im : Imm) : Option Instr :=
  match r.toNat with
  | 0 => (match im with | .iv x => some (.test (.evIv m x)) | _ => none)
  | 2 => some (.not (.ev m))
  | 3 => some (.neg (.ev m))
  | 4 => some (.mul (.ev m))
  | 5 => some (.imul (.ev m))
  | 6 => some (.div (.ev m))
  | 7 => some (.idiv (.ev m))
  | 1 => some (.undefined (.opF7 m))
  | _ => none

/-- The rows of opcode FE (R314). -/
def opFE (r : RegNum) (m : Rm) (im : Imm) : Option Instr :=
  match im with
  | .none =>
    match r.toNat with
    | 0 => some (.inc (.eb m))
    | 1 => some (.dec (.eb m))
    | _ => some (.undefined (.opFE r m))
  | _ => none

/-- The rows of opcode FF (R314). -/
def opFF (r : RegNum) (m : Rm) (im : Imm) : Option Instr :=
  match im, m with
  | .none, .mem m =>
    match r.toNat with
    | 0 => some (.inc (.ev (.mem m)))
    | 1 => some (.dec (.ev (.mem m)))
    | 2 => some (.call (.ev (.mem m)))
    | 3 => some (.call (.mp m))
    | 4 => some (.jmp (.ev (.mem m)))
    | 5 => some (.jmp (.mp m))
    | 6 => some (.push (.ev (.mem m)))
    | 7 => some (.undefined (.opFF7 (.mem m)))
    | _ => none
  | .none, .reg i =>
    match r.toNat, i.toNat with
    | 3, _ => some (.undefined (.opFF3 i))
    | 5, _ => some (.undefined (.opFF5 i))
    | 0, _ => some (.inc (.ev (.reg i)))
    | 1, _ => some (.dec (.ev (.reg i)))
    | 2, _ => some (.call (.ev (.reg i)))
    | 4, _ => some (.jmp (.ev (.reg i)))
    | 6, _ => some (.push (.ev (.reg i)))
    | 7, _ => some (.undefined (.opFF7 (.reg i)))
    | _, _ => none
  | _, _ => none

/-- The rows of opcode 0F 00 (R314). -/
def opF00 (r : RegNum) (m : Rm) (im : Imm) : Option Instr :=
  match im with
  | .none =>
    match r.toNat with
    | 0 => some (.sldt m)
    | 1 => some (.str m)
    | 2 => some (.lldt m)
    | 3 => some (.ltr m)
    | 4 => some (.verr m)
    | 5 => some (.verw m)
    | 6 => some (.undefined (.op0F006 m))
    | 7 => some (.undefined (.op0F007 m))
    | _ => none
  | _ => none

/-- The rows of opcode 0F 01 (R314). -/
def opF01 (r : RegNum) (m : Rm) (im : Imm) : Option Instr :=
  match im, m with
  | .none, .mem m =>
    match r.toNat with
    | 0 => some (.sgdt m)
    | 1 => some (.sidt m)
    | 2 => some (.lgdt m)
    | 3 => some (.lidt m)
    | 4 => some (.smsw (.mem m))
    | 5 => some (.undefined (.op0F015 (.mem m)))
    | 6 => some (.lmsw (.mem m))
    | 7 => some (.invlpg m)
    | _ => none
  | .none, .reg i =>
    match r.toNat, i.toNat with
    | 4, _ => some (.smsw (.reg i))
    | 5, _ => some (.undefined (.op0F015 (.reg i)))
    | 6, _ => some (.lmsw (.reg i))
    | _, _ => some (.undefined (.op0F 0x01 (.some (r, i))))
  | _, _ => none

/-- The rows of opcode 0F B2 (R314). -/
def opFB2 (r : RegNum) (m : Rm) (im : Imm) : Option Instr :=
  match im, m with
  | .none, .mem m =>
    match r.toNat with
    | _ => some (.lss r m)
  | .none, .reg i =>
    match r.toNat, i.toNat with
    | _, _ => some (.undefined (.op0F 0xB2 (.some (r, i))))
  | _, _ => none

/-- The rows of opcode 0F B4 (R314). -/
def opFB4 (r : RegNum) (m : Rm) (im : Imm) : Option Instr :=
  match im, m with
  | .none, .mem m =>
    match r.toNat with
    | _ => some (.lfs r m)
  | .none, .reg i =>
    match r.toNat, i.toNat with
    | _, _ => some (.undefined (.op0F 0xB4 (.some (r, i))))
  | _, _ => none

/-- The rows of opcode 0F B5 (R314). -/
def opFB5 (r : RegNum) (m : Rm) (im : Imm) : Option Instr :=
  match im, m with
  | .none, .mem m =>
    match r.toNat with
    | _ => some (.lgs r m)
  | .none, .reg i =>
    match r.toNat, i.toNat with
    | _, _ => some (.undefined (.op0F 0xB5 (.some (r, i))))
  | _, _ => none

/-- The rows of opcode 0F BA (R314). -/
def opFBA (r : RegNum) (m : Rm) (im : Imm) : Option Instr :=
  match r.toNat with
  | 4 => (match im with | .ib x => some (.bt (.evIb m x)) | _ => none)
  | 5 => (match im with | .ib x => some (.bts (.evIb m x)) | _ => none)
  | 6 => (match im with | .ib x => some (.btr (.evIb m x)) | _ => none)
  | 7 => (match im with | .ib x => some (.btc (.evIb m x)) | _ => none)
  | _ => some (.undefined (.op0FBA r m))

/-- The instruction of a one-byte opcode (30_encoding R310, R311). -/
def ofOne (op : Nat) (t : Tail) (im : Imm) : Option Instr :=
  match op with
  | 0x00 => match t, im with | .rm r m, .none => some (.add (.ebGb r m)) | _, _ => none
  | 0x01 => match t, im with | .rm r m, .none => some (.add (.evGv r m)) | _, _ => none
  | 0x02 => match t, im with | .rm r m, .none => some (.add (.gbEb r m)) | _, _ => none
  | 0x03 => match t, im with | .rm r m, .none => some (.add (.gvEv r m)) | _, _ => none
  | 0x04 => match t, im with | .none, .ib x => some (.add (.alIb x)) | _, _ => none
  | 0x05 => match t, im with | .none, .iv x => some (.add (.eaxIv x)) | _, _ => none
  | 0x06 => match t, im with | .none, .none => some (.push .es) | _, _ => none
  | 0x07 => match t, im with | .none, .none => some (.pop .es) | _, _ => none
  | 0x08 => match t, im with | .rm r m, .none => some (.or (.ebGb r m)) | _, _ => none
  | 0x09 => match t, im with | .rm r m, .none => some (.or (.evGv r m)) | _, _ => none
  | 0x0A => match t, im with | .rm r m, .none => some (.or (.gbEb r m)) | _, _ => none
  | 0x0B => match t, im with | .rm r m, .none => some (.or (.gvEv r m)) | _, _ => none
  | 0x0C => match t, im with | .none, .ib x => some (.or (.alIb x)) | _, _ => none
  | 0x0D => match t, im with | .none, .iv x => some (.or (.eaxIv x)) | _, _ => none
  | 0x0E => match t, im with | .none, .none => some (.push .cs) | _, _ => none
  | 0x10 => match t, im with | .rm r m, .none => some (.adc (.ebGb r m)) | _, _ => none
  | 0x11 => match t, im with | .rm r m, .none => some (.adc (.evGv r m)) | _, _ => none
  | 0x12 => match t, im with | .rm r m, .none => some (.adc (.gbEb r m)) | _, _ => none
  | 0x13 => match t, im with | .rm r m, .none => some (.adc (.gvEv r m)) | _, _ => none
  | 0x14 => match t, im with | .none, .ib x => some (.adc (.alIb x)) | _, _ => none
  | 0x15 => match t, im with | .none, .iv x => some (.adc (.eaxIv x)) | _, _ => none
  | 0x16 => match t, im with | .none, .none => some (.push .ss) | _, _ => none
  | 0x17 => match t, im with | .none, .none => some (.pop .ss) | _, _ => none
  | 0x18 => match t, im with | .rm r m, .none => some (.sbb (.ebGb r m)) | _, _ => none
  | 0x19 => match t, im with | .rm r m, .none => some (.sbb (.evGv r m)) | _, _ => none
  | 0x1A => match t, im with | .rm r m, .none => some (.sbb (.gbEb r m)) | _, _ => none
  | 0x1B => match t, im with | .rm r m, .none => some (.sbb (.gvEv r m)) | _, _ => none
  | 0x1C => match t, im with | .none, .ib x => some (.sbb (.alIb x)) | _, _ => none
  | 0x1D => match t, im with | .none, .iv x => some (.sbb (.eaxIv x)) | _, _ => none
  | 0x1E => match t, im with | .none, .none => some (.push .ds) | _, _ => none
  | 0x1F => match t, im with | .none, .none => some (.pop .ds) | _, _ => none
  | 0x20 => match t, im with | .rm r m, .none => some (.and (.ebGb r m)) | _, _ => none
  | 0x21 => match t, im with | .rm r m, .none => some (.and (.evGv r m)) | _, _ => none
  | 0x22 => match t, im with | .rm r m, .none => some (.and (.gbEb r m)) | _, _ => none
  | 0x23 => match t, im with | .rm r m, .none => some (.and (.gvEv r m)) | _, _ => none
  | 0x24 => match t, im with | .none, .ib x => some (.and (.alIb x)) | _, _ => none
  | 0x25 => match t, im with | .none, .iv x => some (.and (.eaxIv x)) | _, _ => none
  | 0x26 => match t, im with | .none, .none => some (.esPrefix) | _, _ => none
  | 0x27 => match t, im with | .none, .none => some (.daa) | _, _ => none
  | 0x28 => match t, im with | .rm r m, .none => some (.sub (.ebGb r m)) | _, _ => none
  | 0x29 => match t, im with | .rm r m, .none => some (.sub (.evGv r m)) | _, _ => none
  | 0x2A => match t, im with | .rm r m, .none => some (.sub (.gbEb r m)) | _, _ => none
  | 0x2B => match t, im with | .rm r m, .none => some (.sub (.gvEv r m)) | _, _ => none
  | 0x2C => match t, im with | .none, .ib x => some (.sub (.alIb x)) | _, _ => none
  | 0x2D => match t, im with | .none, .iv x => some (.sub (.eaxIv x)) | _, _ => none
  | 0x2E => match t, im with | .none, .none => some (.csPrefix) | _, _ => none
  | 0x2F => match t, im with | .none, .none => some (.das) | _, _ => none
  | 0x30 => match t, im with | .rm r m, .none => some (.xor (.ebGb r m)) | _, _ => none
  | 0x31 => match t, im with | .rm r m, .none => some (.xor (.evGv r m)) | _, _ => none
  | 0x32 => match t, im with | .rm r m, .none => some (.xor (.gbEb r m)) | _, _ => none
  | 0x33 => match t, im with | .rm r m, .none => some (.xor (.gvEv r m)) | _, _ => none
  | 0x34 => match t, im with | .none, .ib x => some (.xor (.alIb x)) | _, _ => none
  | 0x35 => match t, im with | .none, .iv x => some (.xor (.eaxIv x)) | _, _ => none
  | 0x36 => match t, im with | .none, .none => some (.ssPrefix) | _, _ => none
  | 0x37 => match t, im with | .none, .none => some (.aaa) | _, _ => none
  | 0x38 => match t, im with | .rm r m, .none => some (.cmp (.ebGb r m)) | _, _ => none
  | 0x39 => match t, im with | .rm r m, .none => some (.cmp (.evGv r m)) | _, _ => none
  | 0x3A => match t, im with | .rm r m, .none => some (.cmp (.gbEb r m)) | _, _ => none
  | 0x3B => match t, im with | .rm r m, .none => some (.cmp (.gvEv r m)) | _, _ => none
  | 0x3C => match t, im with | .none, .ib x => some (.cmp (.alIb x)) | _, _ => none
  | 0x3D => match t, im with | .none, .iv x => some (.cmp (.eaxIv x)) | _, _ => none
  | 0x3E => match t, im with | .none, .none => some (.dsPrefix) | _, _ => none
  | 0x3F => match t, im with | .none, .none => some (.aas) | _, _ => none
  | 0x40 => match t, im with | .opreg r, .none => some (.inc (.reg r)) | _, _ => none
  | 0x48 => match t, im with | .opreg r, .none => some (.dec (.reg r)) | _, _ => none
  | 0x50 => match t, im with | .opreg r, .none => some (.push (.reg r)) | _, _ => none
  | 0x58 => match t, im with | .opreg r, .none => some (.pop (.reg r)) | _, _ => none
  | 0x60 => match t, im with | .none, .none => some (.pusha) | _, _ => none
  | 0x61 => match t, im with | .none, .none => some (.popa) | _, _ => none
  | 0x62 => match t with | .rm r m => op62 r m im | _ => none
  | 0x63 => match t, im with | .rm r m, .none => some (.arpl r m) | _, _ => none
  | 0x64 => match t, im with | .none, .none => some (.fsPrefix) | _, _ => none
  | 0x65 => match t, im with | .none, .none => some (.gsPrefix) | _, _ => none
  | 0x66 => match t, im with | .none, .none => some (.opsizePrefix) | _, _ => none
  | 0x67 => match t, im with | .none, .none => some (.addrsizePrefix) | _, _ => none
  | 0x68 => match t, im with | .none, .iv x => some (.push (.iv x)) | _, _ => none
  | 0x69 => match t, im with | .rm r m, .iv x => some (.imul (.gvEvIv r m x)) | _, _ => none
  | 0x6A => match t, im with | .none, .ib x => some (.push (.ib x)) | _, _ => none
  | 0x6B => match t, im with | .rm r m, .ib x => some (.imul (.gvEvIb r m x)) | _, _ => none
  | 0x6C => match t, im with | .none, .none => some (.insb) | _, _ => none
  | 0x6D => match t, im with | .none, .none => some (.insv) | _, _ => none
  | 0x6E => match t, im with | .none, .none => some (.outsb) | _, _ => none
  | 0x6F => match t, im with | .none, .none => some (.outsv) | _, _ => none
  | 0x70 => match t, im with | .none, .ib x => some (.jO (.short x)) | _, _ => none
  | 0x71 => match t, im with | .none, .ib x => some (.jNo (.short x)) | _, _ => none
  | 0x72 => match t, im with | .none, .ib x => some (.jB (.short x)) | _, _ => none
  | 0x73 => match t, im with | .none, .ib x => some (.jAe (.short x)) | _, _ => none
  | 0x74 => match t, im with | .none, .ib x => some (.jE (.short x)) | _, _ => none
  | 0x75 => match t, im with | .none, .ib x => some (.jNe (.short x)) | _, _ => none
  | 0x76 => match t, im with | .none, .ib x => some (.jBe (.short x)) | _, _ => none
  | 0x77 => match t, im with | .none, .ib x => some (.jA (.short x)) | _, _ => none
  | 0x78 => match t, im with | .none, .ib x => some (.jS (.short x)) | _, _ => none
  | 0x79 => match t, im with | .none, .ib x => some (.jNs (.short x)) | _, _ => none
  | 0x7A => match t, im with | .none, .ib x => some (.jP (.short x)) | _, _ => none
  | 0x7B => match t, im with | .none, .ib x => some (.jNp (.short x)) | _, _ => none
  | 0x7C => match t, im with | .none, .ib x => some (.jL (.short x)) | _, _ => none
  | 0x7D => match t, im with | .none, .ib x => some (.jGe (.short x)) | _, _ => none
  | 0x7E => match t, im with | .none, .ib x => some (.jLe (.short x)) | _, _ => none
  | 0x7F => match t, im with | .none, .ib x => some (.jG (.short x)) | _, _ => none
  | 0x80 => match t with | .rm r m => op80 r m im | _ => none
  | 0x81 => match t with | .rm r m => op81 r m im | _ => none
  | 0x82 => match t with | .rm r m => op82 r m im | _ => none
  | 0x83 => match t with | .rm r m => op83 r m im | _ => none
  | 0x84 => match t, im with | .rm r m, .none => some (.test (.ebGb r m)) | _, _ => none
  | 0x85 => match t, im with | .rm r m, .none => some (.test (.evGv r m)) | _, _ => none
  | 0x86 => match t, im with | .rm r m, .none => some (.xchg (.ebGb r m)) | _, _ => none
  | 0x87 => match t, im with | .rm r m, .none => some (.xchg (.evGv r m)) | _, _ => none
  | 0x88 => match t, im with | .rm r m, .none => some (.mov (.ebGb r m)) | _, _ => none
  | 0x89 => match t, im with | .rm r m, .none => some (.mov (.evGv r m)) | _, _ => none
  | 0x8A => match t, im with | .rm r m, .none => some (.mov (.gbEb r m)) | _, _ => none
  | 0x8B => match t, im with | .rm r m, .none => some (.mov (.gvEv r m)) | _, _ => none
  | 0x8C => match t, im with | .rm r m, .none => some (.mov (.ewSw r m)) | _, _ => none
  | 0x8D => match t with | .rm r m => op8D r m im | _ => none
  | 0x8E => match t, im with | .rm r m, .none => some (.mov (.swEw r m)) | _, _ => none
  | 0x8F => match t with | .rm r m => op8F r m im | _ => none
  | 0x90 => match t, im with | .opreg r, .none => some (if r == 0 then .nop else .xchg (.eaxReg r)) | _, _ => none
  | 0x98 => match t, im with | .none, .none => some (.cbw) | _, _ => none
  | 0x99 => match t, im with | .none, .none => some (.cwd) | _, _ => none
  | 0x9A => match t, im with | .none, .cp x y => some (.call (.far x y)) | _, _ => none
  | 0x9B => match t, im with | .none, .none => some (.wait) | _, _ => none
  | 0x9C => match t, im with | .none, .none => some (.pushf) | _, _ => none
  | 0x9D => match t, im with | .none, .none => some (.popf) | _, _ => none
  | 0x9E => match t, im with | .none, .none => some (.sahf) | _, _ => none
  | 0x9F => match t, im with | .none, .none => some (.lahf) | _, _ => none
  | 0xA0 => match t, im with | .none, .moffs x => some (.mov (.alOb x)) | _, _ => none
  | 0xA1 => match t, im with | .none, .moffs x => some (.mov (.eaxOv x)) | _, _ => none
  | 0xA2 => match t, im with | .none, .moffs x => some (.mov (.obAl x)) | _, _ => none
  | 0xA3 => match t, im with | .none, .moffs x => some (.mov (.ovEax x)) | _, _ => none
  | 0xA4 => match t, im with | .none, .none => some (.movsb) | _, _ => none
  | 0xA5 => match t, im with | .none, .none => some (.movsv) | _, _ => none
  | 0xA6 => match t, im with | .none, .none => some (.cmpsb) | _, _ => none
  | 0xA7 => match t, im with | .none, .none => some (.cmpsv) | _, _ => none
  | 0xA8 => match t, im with | .none, .ib x => some (.test (.alIb x)) | _, _ => none
  | 0xA9 => match t, im with | .none, .iv x => some (.test (.eaxIv x)) | _, _ => none
  | 0xAA => match t, im with | .none, .none => some (.stosb) | _, _ => none
  | 0xAB => match t, im with | .none, .none => some (.stosv) | _, _ => none
  | 0xAC => match t, im with | .none, .none => some (.lodsb) | _, _ => none
  | 0xAD => match t, im with | .none, .none => some (.lodsv) | _, _ => none
  | 0xAE => match t, im with | .none, .none => some (.scasb) | _, _ => none
  | 0xAF => match t, im with | .none, .none => some (.scasv) | _, _ => none
  | 0xB0 => match t, im with | .opreg r, .ib x => some (.mov (.r8Ib r x)) | _, _ => none
  | 0xB8 => match t, im with | .opreg r, .iv x => some (.mov (.regIv r x)) | _, _ => none
  | 0xC0 => match t with | .rm r m => opC0 r m im | _ => none
  | 0xC1 => match t with | .rm r m => opC1 r m im | _ => none
  | 0xC2 => match t, im with | .none, .iw x => some (.ret (.iw x)) | _, _ => none
  | 0xC3 => match t, im with | .none, .none => some (.ret .plain) | _, _ => none
  | 0xC4 => match t with | .rm r m => opC4 r m im | _ => none
  | 0xC5 => match t with | .rm r m => opC5 r m im | _ => none
  | 0xC6 => match t with | .rm r m => opC6 r m im | _ => none
  | 0xC7 => match t with | .rm r m => opC7 r m im | _ => none
  | 0xC8 => match t, im with | .none, .enter x y => some (.enter x y) | _, _ => none
  | 0xC9 => match t, im with | .none, .none => some (.leave) | _, _ => none
  | 0xCA => match t, im with | .none, .iw x => some (.retf (.iw x)) | _, _ => none
  | 0xCB => match t, im with | .none, .none => some (.retf .plain) | _, _ => none
  | 0xCC => match t, im with | .none, .none => some (.int3) | _, _ => none
  | 0xCD => match t, im with | .none, .ib x => some (.intIb x) | _, _ => none
  | 0xCE => match t, im with | .none, .none => some (.into) | _, _ => none
  | 0xCF => match t, im with | .none, .none => some (.iret) | _, _ => none
  | 0xD0 => match t with | .rm r m => opD0 r m im | _ => none
  | 0xD1 => match t with | .rm r m => opD1 r m im | _ => none
  | 0xD2 => match t with | .rm r m => opD2 r m im | _ => none
  | 0xD3 => match t with | .rm r m => opD3 r m im | _ => none
  | 0xD4 => match t, im with | .none, .ib x => some (.aam x) | _, _ => none
  | 0xD5 => match t, im with | .none, .ib x => some (.aad x) | _, _ => none
  | 0xD6 => match t, im with | .none, .none => some (.undefined .opD6) | _, _ => none
  | 0xD7 => match t, im with | .none, .none => some (.xlat) | _, _ => none
  | 0xD8 => match t with | .rm r m => opD8 r m im | _ => none
  | 0xD9 => match t with | .rm r m => opD9 r m im | _ => none
  | 0xDA => match t with | .rm r m => opDA r m im | _ => none
  | 0xDB => match t with | .rm r m => opDB r m im | _ => none
  | 0xDC => match t with | .rm r m => opDC r m im | _ => none
  | 0xDD => match t with | .rm r m => opDD r m im | _ => none
  | 0xDE => match t with | .rm r m => opDE r m im | _ => none
  | 0xDF => match t with | .rm r m => opDF r m im | _ => none
  | 0xE0 => match t, im with | .none, .ib x => some (.loopne x) | _, _ => none
  | 0xE1 => match t, im with | .none, .ib x => some (.loope x) | _, _ => none
  | 0xE2 => match t, im with | .none, .ib x => some (.loop x) | _, _ => none
  | 0xE3 => match t, im with | .none, .ib x => some (.jcxz x) | _, _ => none
  | 0xE4 => match t, im with | .none, .ib x => some (.in_ (.alIb x)) | _, _ => none
  | 0xE5 => match t, im with | .none, .ib x => some (.in_ (.eaxIb x)) | _, _ => none
  | 0xE6 => match t, im with | .none, .ib x => some (.out (.ibAl x)) | _, _ => none
  | 0xE7 => match t, im with | .none, .ib x => some (.out (.ibEax x)) | _, _ => none
  | 0xE8 => match t, im with | .none, .iv x => some (.call (.rel x)) | _, _ => none
  | 0xE9 => match t, im with | .none, .iv x => some (.jmp (.rel x)) | _, _ => none
  | 0xEA => match t, im with | .none, .cp x y => some (.jmp (.far x y)) | _, _ => none
  | 0xEB => match t, im with | .none, .ib x => some (.jmp (.rel8 x)) | _, _ => none
  | 0xEC => match t, im with | .none, .none => some (.in_ .alDx) | _, _ => none
  | 0xED => match t, im with | .none, .none => some (.in_ .eaxDx) | _, _ => none
  | 0xEE => match t, im with | .none, .none => some (.out .dxAl) | _, _ => none
  | 0xEF => match t, im with | .none, .none => some (.out .dxEax) | _, _ => none
  | 0xF0 => match t, im with | .none, .none => some (.lockPrefix) | _, _ => none
  | 0xF1 => match t, im with | .none, .none => some (.undefined .opF1) | _, _ => none
  | 0xF2 => match t, im with | .none, .none => some (.repnePrefix) | _, _ => none
  | 0xF3 => match t, im with | .none, .none => some (.repPrefix) | _, _ => none
  | 0xF4 => match t, im with | .none, .none => some (.hlt) | _, _ => none
  | 0xF5 => match t, im with | .none, .none => some (.cmc) | _, _ => none
  | 0xF6 => match t with | .rm r m => opF6 r m im | _ => none
  | 0xF7 => match t with | .rm r m => opF7 r m im | _ => none
  | 0xF8 => match t, im with | .none, .none => some (.clc) | _, _ => none
  | 0xF9 => match t, im with | .none, .none => some (.stc) | _, _ => none
  | 0xFA => match t, im with | .none, .none => some (.cli) | _, _ => none
  | 0xFB => match t, im with | .none, .none => some (.sti) | _, _ => none
  | 0xFC => match t, im with | .none, .none => some (.cld) | _, _ => none
  | 0xFD => match t, im with | .none, .none => some (.std) | _, _ => none
  | 0xFE => match t with | .rm r m => opFE r m im | _ => none
  | 0xFF => match t with | .rm r m => opFF r m im | _ => none
  | _ => none

/-- The instruction of a two-byte opcode (30_encoding R312); every second byte without a row is undefined. -/
def ofTwo (op : Nat) (t : Tail) (im : Imm) : Option Instr :=
  match op with
  | 0x00 => match t with | .rm r m => opF00 r m im | _ => none
  | 0x01 => match t with | .rm r m => opF01 r m im | _ => none
  | 0x02 => match t, im with | .rm r m, .none => some (.lar r m) | _, _ => none
  | 0x03 => match t, im with | .rm r m, .none => some (.lsl r m) | _, _ => none
  | 0x06 => match t, im with | .none, .none => some (.clts) | _, _ => none
  | 0x08 => match t, im with | .none, .none => some (.invd) | _, _ => none
  | 0x09 => match t, im with | .none, .none => some (.wbinvd) | _, _ => none
  | 0x20 => match t, im with | .raw mode c r, .none => some (.mov (.fromCr mode c r)) | _, _ => none
  | 0x21 => match t, im with | .raw mode c r, .none => some (.mov (.fromDr mode c r)) | _, _ => none
  | 0x22 => match t, im with | .raw mode c r, .none => some (.mov (.toCr mode c r)) | _, _ => none
  | 0x23 => match t, im with | .raw mode c r, .none => some (.mov (.toDr mode c r)) | _, _ => none
  | 0x24 => match t, im with | .raw mode c r, .none => some (.mov (.fromTr mode c r)) | _, _ => none
  | 0x25 => match t, im with | .raw mode c r, .none => some (.undefined (.op0F25 mode c r)) | _, _ => none
  | 0x26 => match t, im with | .raw mode c r, .none => some (.mov (.toTr mode c r)) | _, _ => none
  | 0x80 => match t, im with | .none, .iv x => some (.jO (.near x)) | _, _ => none
  | 0x81 => match t, im with | .none, .iv x => some (.jNo (.near x)) | _, _ => none
  | 0x82 => match t, im with | .none, .iv x => some (.jB (.near x)) | _, _ => none
  | 0x83 => match t, im with | .none, .iv x => some (.jAe (.near x)) | _, _ => none
  | 0x84 => match t, im with | .none, .iv x => some (.jE (.near x)) | _, _ => none
  | 0x85 => match t, im with | .none, .iv x => some (.jNe (.near x)) | _, _ => none
  | 0x86 => match t, im with | .none, .iv x => some (.jBe (.near x)) | _, _ => none
  | 0x87 => match t, im with | .none, .iv x => some (.jA (.near x)) | _, _ => none
  | 0x88 => match t, im with | .none, .iv x => some (.jS (.near x)) | _, _ => none
  | 0x89 => match t, im with | .none, .iv x => some (.jNs (.near x)) | _, _ => none
  | 0x8A => match t, im with | .none, .iv x => some (.jP (.near x)) | _, _ => none
  | 0x8B => match t, im with | .none, .iv x => some (.jNp (.near x)) | _, _ => none
  | 0x8C => match t, im with | .none, .iv x => some (.jL (.near x)) | _, _ => none
  | 0x8D => match t, im with | .none, .iv x => some (.jGe (.near x)) | _, _ => none
  | 0x8E => match t, im with | .none, .iv x => some (.jLe (.near x)) | _, _ => none
  | 0x8F => match t, im with | .none, .iv x => some (.jG (.near x)) | _, _ => none
  | 0x90 => match t, im with | .rm r m, .none => some (.setO r m) | _, _ => none
  | 0x91 => match t, im with | .rm r m, .none => some (.setNo r m) | _, _ => none
  | 0x92 => match t, im with | .rm r m, .none => some (.setB r m) | _, _ => none
  | 0x93 => match t, im with | .rm r m, .none => some (.setAe r m) | _, _ => none
  | 0x94 => match t, im with | .rm r m, .none => some (.setE r m) | _, _ => none
  | 0x95 => match t, im with | .rm r m, .none => some (.setNe r m) | _, _ => none
  | 0x96 => match t, im with | .rm r m, .none => some (.setBe r m) | _, _ => none
  | 0x97 => match t, im with | .rm r m, .none => some (.setA r m) | _, _ => none
  | 0x98 => match t, im with | .rm r m, .none => some (.setS r m) | _, _ => none
  | 0x99 => match t, im with | .rm r m, .none => some (.setNs r m) | _, _ => none
  | 0x9A => match t, im with | .rm r m, .none => some (.setP r m) | _, _ => none
  | 0x9B => match t, im with | .rm r m, .none => some (.setNp r m) | _, _ => none
  | 0x9C => match t, im with | .rm r m, .none => some (.setL r m) | _, _ => none
  | 0x9D => match t, im with | .rm r m, .none => some (.setGe r m) | _, _ => none
  | 0x9E => match t, im with | .rm r m, .none => some (.setLe r m) | _, _ => none
  | 0x9F => match t, im with | .rm r m, .none => some (.setG r m) | _, _ => none
  | 0xA0 => match t, im with | .none, .none => some (.push .fs) | _, _ => none
  | 0xA1 => match t, im with | .none, .none => some (.pop .fs) | _, _ => none
  | 0xA3 => match t, im with | .rm r m, .none => some (.bt (.evGv r m)) | _, _ => none
  | 0xA4 => match t, im with | .rm r m, .ib x => some (.shld (.ib r m x)) | _, _ => none
  | 0xA5 => match t, im with | .rm r m, .none => some (.shld (.cl r m)) | _, _ => none
  | 0xA8 => match t, im with | .none, .none => some (.push .gs) | _, _ => none
  | 0xA9 => match t, im with | .none, .none => some (.pop .gs) | _, _ => none
  | 0xAB => match t, im with | .rm r m, .none => some (.bts (.evGv r m)) | _, _ => none
  | 0xAC => match t, im with | .rm r m, .ib x => some (.shrd (.ib r m x)) | _, _ => none
  | 0xAD => match t, im with | .rm r m, .none => some (.shrd (.cl r m)) | _, _ => none
  | 0xAF => match t, im with | .rm r m, .none => some (.imul (.gvEv r m)) | _, _ => none
  | 0xB0 => match t, im with | .rm r m, .none => some (.cmpxchg (.ebGb r m)) | _, _ => none
  | 0xB1 => match t, im with | .rm r m, .none => some (.cmpxchg (.evGv r m)) | _, _ => none
  | 0xB2 => match t with | .rm r m => opFB2 r m im | _ => none
  | 0xB3 => match t, im with | .rm r m, .none => some (.btr (.evGv r m)) | _, _ => none
  | 0xB4 => match t with | .rm r m => opFB4 r m im | _ => none
  | 0xB5 => match t with | .rm r m => opFB5 r m im | _ => none
  | 0xB6 => match t, im with | .rm r m, .none => some (.movzx (.gvEb r m)) | _, _ => none
  | 0xB7 => match t, im with | .rm r m, .none => some (.movzx (.gvEw r m)) | _, _ => none
  | 0xBA => match t with | .rm r m => opFBA r m im | _ => none
  | 0xBB => match t, im with | .rm r m, .none => some (.btc (.evGv r m)) | _, _ => none
  | 0xBC => match t, im with | .rm r m, .none => some (.bsf r m) | _, _ => none
  | 0xBD => match t, im with | .rm r m, .none => some (.bsr r m) | _, _ => none
  | 0xBE => match t, im with | .rm r m, .none => some (.movsx (.gvEb r m)) | _, _ => none
  | 0xBF => match t, im with | .rm r m, .none => some (.movsx (.gvEw r m)) | _, _ => none
  | 0xC0 => match t, im with | .rm r m, .none => some (.xadd (.ebGb r m)) | _, _ => none
  | 0xC1 => match t, im with | .rm r m, .none => some (.xadd (.evGv r m)) | _, _ => none
  | 0xC8 => match t, im with | .opreg r, .none => some (.bswap r) | _, _ => none
  | b => match t, im with | .none, .none => some (.undefined (.op0F (BitVec.ofNat 8 b) .none)) | _, _ => none

/-- The instruction of a layout. -/
def Raw.instr (w : Raw) : Option Instr :=
  if w.two then ofTwo w.op.toNat w.tail w.imm else ofOne w.op.toNat w.tail w.imm

/-- The decoder: one item of the instruction stream, with the bytes after it. -/
def decode (osz asz : Size) (bs : List Byte) : Except DecodeError (Instr × List Byte) :=
  match takeRaw osz asz bs with
  | .error e => .error e
  | .ok (w, rest) =>
    match w.instr with
    | some i => .ok (i, rest)
    | none => .error .undefined

/-! ### The encoder -/

/-- The layout of an instruction, from the encoding column of the table. -/
def Instr.raw : Instr → Raw
  | .repPrefix => ⟨false, 0xF3, .none, .none⟩
  | .repnePrefix => ⟨false, 0xF2, .none, .none⟩
  | .lockPrefix => ⟨false, 0xF0, .none, .none⟩
  | .csPrefix => ⟨false, 0x2E, .none, .none⟩
  | .ssPrefix => ⟨false, 0x36, .none, .none⟩
  | .dsPrefix => ⟨false, 0x3E, .none, .none⟩
  | .esPrefix => ⟨false, 0x26, .none, .none⟩
  | .fsPrefix => ⟨false, 0x64, .none, .none⟩
  | .gsPrefix => ⟨false, 0x65, .none, .none⟩
  | .opsizePrefix => ⟨false, 0x66, .none, .none⟩
  | .addrsizePrefix => ⟨false, 0x67, .none, .none⟩
  | .add (.ebGb r m) => ⟨false, 0x00, .rm r m, .none⟩
  | .add (.evGv r m) => ⟨false, 0x01, .rm r m, .none⟩
  | .add (.gbEb r m) => ⟨false, 0x02, .rm r m, .none⟩
  | .add (.gvEv r m) => ⟨false, 0x03, .rm r m, .none⟩
  | .add (.alIb imm) => ⟨false, 0x04, .none, .ib imm⟩
  | .add (.eaxIv imm) => ⟨false, 0x05, .none, .iv imm⟩
  | .add (.eb80 m imm) => ⟨false, 0x80, .rm 0 m, .ib imm⟩
  | .add (.ev81 m imm) => ⟨false, 0x81, .rm 0 m, .iv imm⟩
  | .add (.eb82 m imm) => ⟨false, 0x82, .rm 0 m, .ib imm⟩
  | .add (.ev83 m imm) => ⟨false, 0x83, .rm 0 m, .ib imm⟩
  | .or (.ebGb r m) => ⟨false, 0x08, .rm r m, .none⟩
  | .or (.evGv r m) => ⟨false, 0x09, .rm r m, .none⟩
  | .or (.gbEb r m) => ⟨false, 0x0A, .rm r m, .none⟩
  | .or (.gvEv r m) => ⟨false, 0x0B, .rm r m, .none⟩
  | .or (.alIb imm) => ⟨false, 0x0C, .none, .ib imm⟩
  | .or (.eaxIv imm) => ⟨false, 0x0D, .none, .iv imm⟩
  | .or (.eb80 m imm) => ⟨false, 0x80, .rm 1 m, .ib imm⟩
  | .or (.ev81 m imm) => ⟨false, 0x81, .rm 1 m, .iv imm⟩
  | .or (.eb82 m imm) => ⟨false, 0x82, .rm 1 m, .ib imm⟩
  | .or (.ev83 m imm) => ⟨false, 0x83, .rm 1 m, .ib imm⟩
  | .adc (.ebGb r m) => ⟨false, 0x10, .rm r m, .none⟩
  | .adc (.evGv r m) => ⟨false, 0x11, .rm r m, .none⟩
  | .adc (.gbEb r m) => ⟨false, 0x12, .rm r m, .none⟩
  | .adc (.gvEv r m) => ⟨false, 0x13, .rm r m, .none⟩
  | .adc (.alIb imm) => ⟨false, 0x14, .none, .ib imm⟩
  | .adc (.eaxIv imm) => ⟨false, 0x15, .none, .iv imm⟩
  | .adc (.eb80 m imm) => ⟨false, 0x80, .rm 2 m, .ib imm⟩
  | .adc (.ev81 m imm) => ⟨false, 0x81, .rm 2 m, .iv imm⟩
  | .adc (.eb82 m imm) => ⟨false, 0x82, .rm 2 m, .ib imm⟩
  | .adc (.ev83 m imm) => ⟨false, 0x83, .rm 2 m, .ib imm⟩
  | .sbb (.ebGb r m) => ⟨false, 0x18, .rm r m, .none⟩
  | .sbb (.evGv r m) => ⟨false, 0x19, .rm r m, .none⟩
  | .sbb (.gbEb r m) => ⟨false, 0x1A, .rm r m, .none⟩
  | .sbb (.gvEv r m) => ⟨false, 0x1B, .rm r m, .none⟩
  | .sbb (.alIb imm) => ⟨false, 0x1C, .none, .ib imm⟩
  | .sbb (.eaxIv imm) => ⟨false, 0x1D, .none, .iv imm⟩
  | .sbb (.eb80 m imm) => ⟨false, 0x80, .rm 3 m, .ib imm⟩
  | .sbb (.ev81 m imm) => ⟨false, 0x81, .rm 3 m, .iv imm⟩
  | .sbb (.eb82 m imm) => ⟨false, 0x82, .rm 3 m, .ib imm⟩
  | .sbb (.ev83 m imm) => ⟨false, 0x83, .rm 3 m, .ib imm⟩
  | .and (.ebGb r m) => ⟨false, 0x20, .rm r m, .none⟩
  | .and (.evGv r m) => ⟨false, 0x21, .rm r m, .none⟩
  | .and (.gbEb r m) => ⟨false, 0x22, .rm r m, .none⟩
  | .and (.gvEv r m) => ⟨false, 0x23, .rm r m, .none⟩
  | .and (.alIb imm) => ⟨false, 0x24, .none, .ib imm⟩
  | .and (.eaxIv imm) => ⟨false, 0x25, .none, .iv imm⟩
  | .and (.eb80 m imm) => ⟨false, 0x80, .rm 4 m, .ib imm⟩
  | .and (.ev81 m imm) => ⟨false, 0x81, .rm 4 m, .iv imm⟩
  | .and (.eb82 m imm) => ⟨false, 0x82, .rm 4 m, .ib imm⟩
  | .and (.ev83 m imm) => ⟨false, 0x83, .rm 4 m, .ib imm⟩
  | .sub (.ebGb r m) => ⟨false, 0x28, .rm r m, .none⟩
  | .sub (.evGv r m) => ⟨false, 0x29, .rm r m, .none⟩
  | .sub (.gbEb r m) => ⟨false, 0x2A, .rm r m, .none⟩
  | .sub (.gvEv r m) => ⟨false, 0x2B, .rm r m, .none⟩
  | .sub (.alIb imm) => ⟨false, 0x2C, .none, .ib imm⟩
  | .sub (.eaxIv imm) => ⟨false, 0x2D, .none, .iv imm⟩
  | .sub (.eb80 m imm) => ⟨false, 0x80, .rm 5 m, .ib imm⟩
  | .sub (.ev81 m imm) => ⟨false, 0x81, .rm 5 m, .iv imm⟩
  | .sub (.eb82 m imm) => ⟨false, 0x82, .rm 5 m, .ib imm⟩
  | .sub (.ev83 m imm) => ⟨false, 0x83, .rm 5 m, .ib imm⟩
  | .xor (.ebGb r m) => ⟨false, 0x30, .rm r m, .none⟩
  | .xor (.evGv r m) => ⟨false, 0x31, .rm r m, .none⟩
  | .xor (.gbEb r m) => ⟨false, 0x32, .rm r m, .none⟩
  | .xor (.gvEv r m) => ⟨false, 0x33, .rm r m, .none⟩
  | .xor (.alIb imm) => ⟨false, 0x34, .none, .ib imm⟩
  | .xor (.eaxIv imm) => ⟨false, 0x35, .none, .iv imm⟩
  | .xor (.eb80 m imm) => ⟨false, 0x80, .rm 6 m, .ib imm⟩
  | .xor (.ev81 m imm) => ⟨false, 0x81, .rm 6 m, .iv imm⟩
  | .xor (.eb82 m imm) => ⟨false, 0x82, .rm 6 m, .ib imm⟩
  | .xor (.ev83 m imm) => ⟨false, 0x83, .rm 6 m, .ib imm⟩
  | .cmp (.ebGb r m) => ⟨false, 0x38, .rm r m, .none⟩
  | .cmp (.evGv r m) => ⟨false, 0x39, .rm r m, .none⟩
  | .cmp (.gbEb r m) => ⟨false, 0x3A, .rm r m, .none⟩
  | .cmp (.gvEv r m) => ⟨false, 0x3B, .rm r m, .none⟩
  | .cmp (.alIb imm) => ⟨false, 0x3C, .none, .ib imm⟩
  | .cmp (.eaxIv imm) => ⟨false, 0x3D, .none, .iv imm⟩
  | .cmp (.eb80 m imm) => ⟨false, 0x80, .rm 7 m, .ib imm⟩
  | .cmp (.ev81 m imm) => ⟨false, 0x81, .rm 7 m, .iv imm⟩
  | .cmp (.eb82 m imm) => ⟨false, 0x82, .rm 7 m, .ib imm⟩
  | .cmp (.ev83 m imm) => ⟨false, 0x83, .rm 7 m, .ib imm⟩
  | .aaa => ⟨false, 0x37, .none, .none⟩
  | .aas => ⟨false, 0x3F, .none, .none⟩
  | .aad imm => ⟨false, 0xD5, .none, .ib imm⟩
  | .aam imm => ⟨false, 0xD4, .none, .ib imm⟩
  | .daa => ⟨false, 0x27, .none, .none⟩
  | .das => ⟨false, 0x2F, .none, .none⟩
  | .arpl r m => ⟨false, 0x63, .rm r m, .none⟩
  | .bound r m => ⟨false, 0x62, .rm r (.mem m), .none⟩
  | .push .es => ⟨false, 0x06, .none, .none⟩
  | .push .cs => ⟨false, 0x0E, .none, .none⟩
  | .push .ss => ⟨false, 0x16, .none, .none⟩
  | .push .ds => ⟨false, 0x1E, .none, .none⟩
  | .pop .es => ⟨false, 0x07, .none, .none⟩
  | .pop .ss => ⟨false, 0x17, .none, .none⟩
  | .pop .ds => ⟨false, 0x1F, .none, .none⟩
  | .push .fs => ⟨true, 0xA0, .none, .none⟩
  | .pop .fs => ⟨true, 0xA1, .none, .none⟩
  | .push .gs => ⟨true, 0xA8, .none, .none⟩
  | .pop .gs => ⟨true, 0xA9, .none, .none⟩
  | .inc (.reg r) => ⟨false, 0x40, .opreg r, .none⟩
  | .dec (.reg r) => ⟨false, 0x48, .opreg r, .none⟩
  | .push (.reg r) => ⟨false, 0x50, .opreg r, .none⟩
  | .pop (.reg r) => ⟨false, 0x58, .opreg r, .none⟩
  | .pusha => ⟨false, 0x60, .none, .none⟩
  | .popa => ⟨false, 0x61, .none, .none⟩
  | .push (.iv imm) => ⟨false, 0x68, .none, .iv imm⟩
  | .push (.ib imm) => ⟨false, 0x6A, .none, .ib imm⟩
  | .imul (.gvEvIv r m imm) => ⟨false, 0x69, .rm r m, .iv imm⟩
  | .imul (.gvEvIb r m imm) => ⟨false, 0x6B, .rm r m, .ib imm⟩
  | .insb => ⟨false, 0x6C, .none, .none⟩
  | .insv => ⟨false, 0x6D, .none, .none⟩
  | .outsb => ⟨false, 0x6E, .none, .none⟩
  | .outsv => ⟨false, 0x6F, .none, .none⟩
  | .jO (.short rel) => ⟨false, 0x70, .none, .ib rel⟩
  | .jNo (.short rel) => ⟨false, 0x71, .none, .ib rel⟩
  | .jB (.short rel) => ⟨false, 0x72, .none, .ib rel⟩
  | .jAe (.short rel) => ⟨false, 0x73, .none, .ib rel⟩
  | .jE (.short rel) => ⟨false, 0x74, .none, .ib rel⟩
  | .jNe (.short rel) => ⟨false, 0x75, .none, .ib rel⟩
  | .jBe (.short rel) => ⟨false, 0x76, .none, .ib rel⟩
  | .jA (.short rel) => ⟨false, 0x77, .none, .ib rel⟩
  | .jS (.short rel) => ⟨false, 0x78, .none, .ib rel⟩
  | .jNs (.short rel) => ⟨false, 0x79, .none, .ib rel⟩
  | .jP (.short rel) => ⟨false, 0x7A, .none, .ib rel⟩
  | .jNp (.short rel) => ⟨false, 0x7B, .none, .ib rel⟩
  | .jL (.short rel) => ⟨false, 0x7C, .none, .ib rel⟩
  | .jGe (.short rel) => ⟨false, 0x7D, .none, .ib rel⟩
  | .jLe (.short rel) => ⟨false, 0x7E, .none, .ib rel⟩
  | .jG (.short rel) => ⟨false, 0x7F, .none, .ib rel⟩
  | .jO (.near rel) => ⟨true, 0x80, .none, .iv rel⟩
  | .jNo (.near rel) => ⟨true, 0x81, .none, .iv rel⟩
  | .jB (.near rel) => ⟨true, 0x82, .none, .iv rel⟩
  | .jAe (.near rel) => ⟨true, 0x83, .none, .iv rel⟩
  | .jE (.near rel) => ⟨true, 0x84, .none, .iv rel⟩
  | .jNe (.near rel) => ⟨true, 0x85, .none, .iv rel⟩
  | .jBe (.near rel) => ⟨true, 0x86, .none, .iv rel⟩
  | .jA (.near rel) => ⟨true, 0x87, .none, .iv rel⟩
  | .jS (.near rel) => ⟨true, 0x88, .none, .iv rel⟩
  | .jNs (.near rel) => ⟨true, 0x89, .none, .iv rel⟩
  | .jP (.near rel) => ⟨true, 0x8A, .none, .iv rel⟩
  | .jNp (.near rel) => ⟨true, 0x8B, .none, .iv rel⟩
  | .jL (.near rel) => ⟨true, 0x8C, .none, .iv rel⟩
  | .jGe (.near rel) => ⟨true, 0x8D, .none, .iv rel⟩
  | .jLe (.near rel) => ⟨true, 0x8E, .none, .iv rel⟩
  | .jG (.near rel) => ⟨true, 0x8F, .none, .iv rel⟩
  | .setO r m => ⟨true, 0x90, .rm r m, .none⟩
  | .setNo r m => ⟨true, 0x91, .rm r m, .none⟩
  | .setB r m => ⟨true, 0x92, .rm r m, .none⟩
  | .setAe r m => ⟨true, 0x93, .rm r m, .none⟩
  | .setE r m => ⟨true, 0x94, .rm r m, .none⟩
  | .setNe r m => ⟨true, 0x95, .rm r m, .none⟩
  | .setBe r m => ⟨true, 0x96, .rm r m, .none⟩
  | .setA r m => ⟨true, 0x97, .rm r m, .none⟩
  | .setS r m => ⟨true, 0x98, .rm r m, .none⟩
  | .setNs r m => ⟨true, 0x99, .rm r m, .none⟩
  | .setP r m => ⟨true, 0x9A, .rm r m, .none⟩
  | .setNp r m => ⟨true, 0x9B, .rm r m, .none⟩
  | .setL r m => ⟨true, 0x9C, .rm r m, .none⟩
  | .setGe r m => ⟨true, 0x9D, .rm r m, .none⟩
  | .setLe r m => ⟨true, 0x9E, .rm r m, .none⟩
  | .setG r m => ⟨true, 0x9F, .rm r m, .none⟩
  | .test (.ebGb r m) => ⟨false, 0x84, .rm r m, .none⟩
  | .test (.evGv r m) => ⟨false, 0x85, .rm r m, .none⟩
  | .xchg (.ebGb r m) => ⟨false, 0x86, .rm r m, .none⟩
  | .xchg (.evGv r m) => ⟨false, 0x87, .rm r m, .none⟩
  | .mov (.ebGb r m) => ⟨false, 0x88, .rm r m, .none⟩
  | .mov (.evGv r m) => ⟨false, 0x89, .rm r m, .none⟩
  | .mov (.gbEb r m) => ⟨false, 0x8A, .rm r m, .none⟩
  | .mov (.gvEv r m) => ⟨false, 0x8B, .rm r m, .none⟩
  | .mov (.ewSw r m) => ⟨false, 0x8C, .rm r m, .none⟩
  | .lea r m => ⟨false, 0x8D, .rm r (.mem m), .none⟩
  | .mov (.swEw r m) => ⟨false, 0x8E, .rm r m, .none⟩
  | .pop (.ev m) => ⟨false, 0x8F, .rm 0 m, .none⟩
  | .nop => ⟨false, 0x90, .opreg 0, .none⟩
  | .xchg (.eaxReg r) => ⟨false, 0x90, .opreg r, .none⟩
  | .cbw => ⟨false, 0x98, .none, .none⟩
  | .cwd => ⟨false, 0x99, .none, .none⟩
  | .call (.far off sel) => ⟨false, 0x9A, .none, .cp off sel⟩
  | .wait => ⟨false, 0x9B, .none, .none⟩
  | .pushf => ⟨false, 0x9C, .none, .none⟩
  | .popf => ⟨false, 0x9D, .none, .none⟩
  | .sahf => ⟨false, 0x9E, .none, .none⟩
  | .lahf => ⟨false, 0x9F, .none, .none⟩
  | .mov (.alOb off) => ⟨false, 0xA0, .none, .moffs off⟩
  | .mov (.eaxOv off) => ⟨false, 0xA1, .none, .moffs off⟩
  | .mov (.obAl off) => ⟨false, 0xA2, .none, .moffs off⟩
  | .mov (.ovEax off) => ⟨false, 0xA3, .none, .moffs off⟩
  | .movsb => ⟨false, 0xA4, .none, .none⟩
  | .movsv => ⟨false, 0xA5, .none, .none⟩
  | .cmpsb => ⟨false, 0xA6, .none, .none⟩
  | .cmpsv => ⟨false, 0xA7, .none, .none⟩
  | .test (.alIb imm) => ⟨false, 0xA8, .none, .ib imm⟩
  | .test (.eaxIv imm) => ⟨false, 0xA9, .none, .iv imm⟩
  | .stosb => ⟨false, 0xAA, .none, .none⟩
  | .stosv => ⟨false, 0xAB, .none, .none⟩
  | .lodsb => ⟨false, 0xAC, .none, .none⟩
  | .lodsv => ⟨false, 0xAD, .none, .none⟩
  | .scasb => ⟨false, 0xAE, .none, .none⟩
  | .scasv => ⟨false, 0xAF, .none, .none⟩
  | .mov (.r8Ib r imm) => ⟨false, 0xB0, .opreg r, .ib imm⟩
  | .mov (.regIv r imm) => ⟨false, 0xB8, .opreg r, .iv imm⟩
  | .rol (.ebIb m imm) => ⟨false, 0xC0, .rm 0 m, .ib imm⟩
  | .rol (.evIb m imm) => ⟨false, 0xC1, .rm 0 m, .ib imm⟩
  | .rol (.eb1 m) => ⟨false, 0xD0, .rm 0 m, .none⟩
  | .rol (.ev1 m) => ⟨false, 0xD1, .rm 0 m, .none⟩
  | .rol (.ebCl m) => ⟨false, 0xD2, .rm 0 m, .none⟩
  | .rol (.evCl m) => ⟨false, 0xD3, .rm 0 m, .none⟩
  | .ror (.ebIb m imm) => ⟨false, 0xC0, .rm 1 m, .ib imm⟩
  | .ror (.evIb m imm) => ⟨false, 0xC1, .rm 1 m, .ib imm⟩
  | .ror (.eb1 m) => ⟨false, 0xD0, .rm 1 m, .none⟩
  | .ror (.ev1 m) => ⟨false, 0xD1, .rm 1 m, .none⟩
  | .ror (.ebCl m) => ⟨false, 0xD2, .rm 1 m, .none⟩
  | .ror (.evCl m) => ⟨false, 0xD3, .rm 1 m, .none⟩
  | .rcl (.ebIb m imm) => ⟨false, 0xC0, .rm 2 m, .ib imm⟩
  | .rcl (.evIb m imm) => ⟨false, 0xC1, .rm 2 m, .ib imm⟩
  | .rcl (.eb1 m) => ⟨false, 0xD0, .rm 2 m, .none⟩
  | .rcl (.ev1 m) => ⟨false, 0xD1, .rm 2 m, .none⟩
  | .rcl (.ebCl m) => ⟨false, 0xD2, .rm 2 m, .none⟩
  | .rcl (.evCl m) => ⟨false, 0xD3, .rm 2 m, .none⟩
  | .rcr (.ebIb m imm) => ⟨false, 0xC0, .rm 3 m, .ib imm⟩
  | .rcr (.evIb m imm) => ⟨false, 0xC1, .rm 3 m, .ib imm⟩
  | .rcr (.eb1 m) => ⟨false, 0xD0, .rm 3 m, .none⟩
  | .rcr (.ev1 m) => ⟨false, 0xD1, .rm 3 m, .none⟩
  | .rcr (.ebCl m) => ⟨false, 0xD2, .rm 3 m, .none⟩
  | .rcr (.evCl m) => ⟨false, 0xD3, .rm 3 m, .none⟩
  | .shl (.ebIb m imm) => ⟨false, 0xC0, .rm 4 m, .ib imm⟩
  | .shl (.evIb m imm) => ⟨false, 0xC1, .rm 4 m, .ib imm⟩
  | .shl (.eb1 m) => ⟨false, 0xD0, .rm 4 m, .none⟩
  | .shl (.ev1 m) => ⟨false, 0xD1, .rm 4 m, .none⟩
  | .shl (.ebCl m) => ⟨false, 0xD2, .rm 4 m, .none⟩
  | .shl (.evCl m) => ⟨false, 0xD3, .rm 4 m, .none⟩
  | .shr (.ebIb m imm) => ⟨false, 0xC0, .rm 5 m, .ib imm⟩
  | .shr (.evIb m imm) => ⟨false, 0xC1, .rm 5 m, .ib imm⟩
  | .shr (.eb1 m) => ⟨false, 0xD0, .rm 5 m, .none⟩
  | .shr (.ev1 m) => ⟨false, 0xD1, .rm 5 m, .none⟩
  | .shr (.ebCl m) => ⟨false, 0xD2, .rm 5 m, .none⟩
  | .shr (.evCl m) => ⟨false, 0xD3, .rm 5 m, .none⟩
  | .shl (.ebIb6 m imm) => ⟨false, 0xC0, .rm 6 m, .ib imm⟩
  | .shl (.evIb6 m imm) => ⟨false, 0xC1, .rm 6 m, .ib imm⟩
  | .shl (.eb16 m) => ⟨false, 0xD0, .rm 6 m, .none⟩
  | .shl (.ev16 m) => ⟨false, 0xD1, .rm 6 m, .none⟩
  | .shl (.ebCl6 m) => ⟨false, 0xD2, .rm 6 m, .none⟩
  | .shl (.evCl6 m) => ⟨false, 0xD3, .rm 6 m, .none⟩
  | .sar (.ebIb m imm) => ⟨false, 0xC0, .rm 7 m, .ib imm⟩
  | .sar (.evIb m imm) => ⟨false, 0xC1, .rm 7 m, .ib imm⟩
  | .sar (.eb1 m) => ⟨false, 0xD0, .rm 7 m, .none⟩
  | .sar (.ev1 m) => ⟨false, 0xD1, .rm 7 m, .none⟩
  | .sar (.ebCl m) => ⟨false, 0xD2, .rm 7 m, .none⟩
  | .sar (.evCl m) => ⟨false, 0xD3, .rm 7 m, .none⟩
  | .ret (.iw imm) => ⟨false, 0xC2, .none, .iw imm⟩
  | .ret .plain => ⟨false, 0xC3, .none, .none⟩
  | .les r m => ⟨false, 0xC4, .rm r (.mem m), .none⟩
  | .lds r m => ⟨false, 0xC5, .rm r (.mem m), .none⟩
  | .lss r m => ⟨true, 0xB2, .rm r (.mem m), .none⟩
  | .lfs r m => ⟨true, 0xB4, .rm r (.mem m), .none⟩
  | .lgs r m => ⟨true, 0xB5, .rm r (.mem m), .none⟩
  | .mov (.ebIb m imm) => ⟨false, 0xC6, .rm 0 m, .ib imm⟩
  | .mov (.evIv m imm) => ⟨false, 0xC7, .rm 0 m, .iv imm⟩
  | .enter size level => ⟨false, 0xC8, .none, .enter size level⟩
  | .leave => ⟨false, 0xC9, .none, .none⟩
  | .retf (.iw imm) => ⟨false, 0xCA, .none, .iw imm⟩
  | .retf .plain => ⟨false, 0xCB, .none, .none⟩
  | .int3 => ⟨false, 0xCC, .none, .none⟩
  | .intIb imm => ⟨false, 0xCD, .none, .ib imm⟩
  | .into => ⟨false, 0xCE, .none, .none⟩
  | .iret => ⟨false, 0xCF, .none, .none⟩
  | .undefined .opD6 => ⟨false, 0xD6, .none, .none⟩
  | .xlat => ⟨false, 0xD7, .none, .none⟩
  | .loopne rel => ⟨false, 0xE0, .none, .ib rel⟩
  | .loope rel => ⟨false, 0xE1, .none, .ib rel⟩
  | .loop rel => ⟨false, 0xE2, .none, .ib rel⟩
  | .jcxz rel => ⟨false, 0xE3, .none, .ib rel⟩
  | .in_ (.alIb imm) => ⟨false, 0xE4, .none, .ib imm⟩
  | .in_ (.eaxIb imm) => ⟨false, 0xE5, .none, .ib imm⟩
  | .out (.ibAl imm) => ⟨false, 0xE6, .none, .ib imm⟩
  | .out (.ibEax imm) => ⟨false, 0xE7, .none, .ib imm⟩
  | .call (.rel rel) => ⟨false, 0xE8, .none, .iv rel⟩
  | .jmp (.rel rel) => ⟨false, 0xE9, .none, .iv rel⟩
  | .jmp (.far off sel) => ⟨false, 0xEA, .none, .cp off sel⟩
  | .jmp (.rel8 rel) => ⟨false, 0xEB, .none, .ib rel⟩
  | .in_ .alDx => ⟨false, 0xEC, .none, .none⟩
  | .in_ .eaxDx => ⟨false, 0xED, .none, .none⟩
  | .out .dxAl => ⟨false, 0xEE, .none, .none⟩
  | .out .dxEax => ⟨false, 0xEF, .none, .none⟩
  | .undefined .opF1 => ⟨false, 0xF1, .none, .none⟩
  | .hlt => ⟨false, 0xF4, .none, .none⟩
  | .cmc => ⟨false, 0xF5, .none, .none⟩
  | .test (.ebIb m imm) => ⟨false, 0xF6, .rm 0 m, .ib imm⟩
  | .test (.evIv m imm) => ⟨false, 0xF7, .rm 0 m, .iv imm⟩
  | .not (.eb m) => ⟨false, 0xF6, .rm 2 m, .none⟩
  | .not (.ev m) => ⟨false, 0xF7, .rm 2 m, .none⟩
  | .neg (.eb m) => ⟨false, 0xF6, .rm 3 m, .none⟩
  | .neg (.ev m) => ⟨false, 0xF7, .rm 3 m, .none⟩
  | .mul (.eb m) => ⟨false, 0xF6, .rm 4 m, .none⟩
  | .mul (.ev m) => ⟨false, 0xF7, .rm 4 m, .none⟩
  | .imul (.eb m) => ⟨false, 0xF6, .rm 5 m, .none⟩
  | .imul (.ev m) => ⟨false, 0xF7, .rm 5 m, .none⟩
  | .div (.eb m) => ⟨false, 0xF6, .rm 6 m, .none⟩
  | .div (.ev m) => ⟨false, 0xF7, .rm 6 m, .none⟩
  | .idiv (.eb m) => ⟨false, 0xF6, .rm 7 m, .none⟩
  | .idiv (.ev m) => ⟨false, 0xF7, .rm 7 m, .none⟩
  | .undefined (.opF6 m) => ⟨false, 0xF6, .rm 1 m, .none⟩
  | .undefined (.opF7 m) => ⟨false, 0xF7, .rm 1 m, .none⟩
  | .clc => ⟨false, 0xF8, .none, .none⟩
  | .stc => ⟨false, 0xF9, .none, .none⟩
  | .cli => ⟨false, 0xFA, .none, .none⟩
  | .sti => ⟨false, 0xFB, .none, .none⟩
  | .cld => ⟨false, 0xFC, .none, .none⟩
  | .std => ⟨false, 0xFD, .none, .none⟩
  | .inc (.eb m) => ⟨false, 0xFE, .rm 0 m, .none⟩
  | .dec (.eb m) => ⟨false, 0xFE, .rm 1 m, .none⟩
  | .inc (.ev m) => ⟨false, 0xFF, .rm 0 m, .none⟩
  | .dec (.ev m) => ⟨false, 0xFF, .rm 1 m, .none⟩
  | .call (.ev m) => ⟨false, 0xFF, .rm 2 m, .none⟩
  | .call (.mp m) => ⟨false, 0xFF, .rm 3 (.mem m), .none⟩
  | .jmp (.ev m) => ⟨false, 0xFF, .rm 4 m, .none⟩
  | .jmp (.mp m) => ⟨false, 0xFF, .rm 5 (.mem m), .none⟩
  | .push (.ev m) => ⟨false, 0xFF, .rm 6 m, .none⟩
  | .undefined (.opFF7 m) => ⟨false, 0xFF, .rm 7 m, .none⟩
  | .undefined (.opFE r m) => ⟨false, 0xFE, .rm r m, .none⟩
  | .undefined (.op8F r m) => ⟨false, 0x8F, .rm r m, .none⟩
  | .undefined (.opC6 r m) => ⟨false, 0xC6, .rm r m, .none⟩
  | .undefined (.opC7 r m) => ⟨false, 0xC7, .rm r m, .none⟩
  | .undefined (.op62 r i) => ⟨false, 0x62, .rm r (.reg i), .none⟩
  | .undefined (.op8D r i) => ⟨false, 0x8D, .rm r (.reg i), .none⟩
  | .undefined (.opC4 r i) => ⟨false, 0xC4, .rm r (.reg i), .none⟩
  | .undefined (.opC5 r i) => ⟨false, 0xC5, .rm r (.reg i), .none⟩
  | .undefined (.opFF3 i) => ⟨false, 0xFF, .rm 3 (.reg i), .none⟩
  | .undefined (.opFF5 i) => ⟨false, 0xFF, .rm 5 (.reg i), .none⟩
  | .sldt m => ⟨true, 0x00, .rm 0 m, .none⟩
  | .str m => ⟨true, 0x00, .rm 1 m, .none⟩
  | .lldt m => ⟨true, 0x00, .rm 2 m, .none⟩
  | .ltr m => ⟨true, 0x00, .rm 3 m, .none⟩
  | .verr m => ⟨true, 0x00, .rm 4 m, .none⟩
  | .verw m => ⟨true, 0x00, .rm 5 m, .none⟩
  | .undefined (.op0F006 m) => ⟨true, 0x00, .rm 6 m, .none⟩
  | .undefined (.op0F007 m) => ⟨true, 0x00, .rm 7 m, .none⟩
  | .sgdt m => ⟨true, 0x01, .rm 0 (.mem m), .none⟩
  | .sidt m => ⟨true, 0x01, .rm 1 (.mem m), .none⟩
  | .lgdt m => ⟨true, 0x01, .rm 2 (.mem m), .none⟩
  | .lidt m => ⟨true, 0x01, .rm 3 (.mem m), .none⟩
  | .smsw m => ⟨true, 0x01, .rm 4 m, .none⟩
  | .undefined (.op0F015 m) => ⟨true, 0x01, .rm 5 m, .none⟩
  | .lmsw m => ⟨true, 0x01, .rm 6 m, .none⟩
  | .invlpg m => ⟨true, 0x01, .rm 7 (.mem m), .none⟩
  | .lar r m => ⟨true, 0x02, .rm r m, .none⟩
  | .lsl r m => ⟨true, 0x03, .rm r m, .none⟩
  | .clts => ⟨true, 0x06, .none, .none⟩
  | .invd => ⟨true, 0x08, .none, .none⟩
  | .wbinvd => ⟨true, 0x09, .none, .none⟩
  | .mov (.fromCr mode c r) => ⟨true, 0x20, .raw mode c r, .none⟩
  | .mov (.fromDr mode c r) => ⟨true, 0x21, .raw mode c r, .none⟩
  | .mov (.toCr mode c r) => ⟨true, 0x22, .raw mode c r, .none⟩
  | .mov (.toDr mode c r) => ⟨true, 0x23, .raw mode c r, .none⟩
  | .mov (.fromTr mode c r) => ⟨true, 0x24, .raw mode c r, .none⟩
  | .mov (.toTr mode c r) => ⟨true, 0x26, .raw mode c r, .none⟩
  | .bt (.evGv r m) => ⟨true, 0xA3, .rm r m, .none⟩
  | .shld (.ib r m imm) => ⟨true, 0xA4, .rm r m, .ib imm⟩
  | .shld (.cl r m) => ⟨true, 0xA5, .rm r m, .none⟩
  | .bts (.evGv r m) => ⟨true, 0xAB, .rm r m, .none⟩
  | .shrd (.ib r m imm) => ⟨true, 0xAC, .rm r m, .ib imm⟩
  | .shrd (.cl r m) => ⟨true, 0xAD, .rm r m, .none⟩
  | .imul (.gvEv r m) => ⟨true, 0xAF, .rm r m, .none⟩
  | .cmpxchg (.ebGb r m) => ⟨true, 0xB0, .rm r m, .none⟩
  | .cmpxchg (.evGv r m) => ⟨true, 0xB1, .rm r m, .none⟩
  | .btr (.evGv r m) => ⟨true, 0xB3, .rm r m, .none⟩
  | .movzx (.gvEb r m) => ⟨true, 0xB6, .rm r m, .none⟩
  | .movzx (.gvEw r m) => ⟨true, 0xB7, .rm r m, .none⟩
  | .undefined (.op0FBA r m) => ⟨true, 0xBA, .rm r m, .none⟩
  | .bt (.evIb m imm) => ⟨true, 0xBA, .rm 4 m, .ib imm⟩
  | .bts (.evIb m imm) => ⟨true, 0xBA, .rm 5 m, .ib imm⟩
  | .btr (.evIb m imm) => ⟨true, 0xBA, .rm 6 m, .ib imm⟩
  | .btc (.evIb m imm) => ⟨true, 0xBA, .rm 7 m, .ib imm⟩
  | .btc (.evGv r m) => ⟨true, 0xBB, .rm r m, .none⟩
  | .bsf r m => ⟨true, 0xBC, .rm r m, .none⟩
  | .bsr r m => ⟨true, 0xBD, .rm r m, .none⟩
  | .movsx (.gvEb r m) => ⟨true, 0xBE, .rm r m, .none⟩
  | .movsx (.gvEw r m) => ⟨true, 0xBF, .rm r m, .none⟩
  | .xadd (.ebGb r m) => ⟨true, 0xC0, .rm r m, .none⟩
  | .xadd (.evGv r m) => ⟨true, 0xC1, .rm r m, .none⟩
  | .bswap r => ⟨true, 0xC8, .opreg r, .none⟩
  | .undefined (.op0F25 mode c r) => ⟨true, 0x25, .raw mode c r, .none⟩
  | .undefined (.op0F b m) => ⟨true, b, match m with | .none => .none | .some (r, i) => .rm r (.reg i), .none⟩
  | .fld (.m32 m) => ⟨false, 0xD9, .rm 0 (.mem m), .none⟩
  | .fld (.m64 m) => ⟨false, 0xDD, .rm 0 (.mem m), .none⟩
  | .fld (.m80 m) => ⟨false, 0xDB, .rm 5 (.mem m), .none⟩
  | .fld (.st i) => ⟨false, 0xD9, .rm 0 (.reg i), .none⟩
  | .fild (.m16 m) => ⟨false, 0xDF, .rm 0 (.mem m), .none⟩
  | .fild (.m32 m) => ⟨false, 0xDB, .rm 0 (.mem m), .none⟩
  | .fild (.m64 m) => ⟨false, 0xDF, .rm 5 (.mem m), .none⟩
  | .fbld m => ⟨false, 0xDF, .rm 4 (.mem m), .none⟩
  | .fst (.m32 m) => ⟨false, 0xD9, .rm 2 (.mem m), .none⟩
  | .fst (.m64 m) => ⟨false, 0xDD, .rm 2 (.mem m), .none⟩
  | .fst (.st i) => ⟨false, 0xDD, .rm 2 (.reg i), .none⟩
  | .fist (.m16 m) => ⟨false, 0xDF, .rm 2 (.mem m), .none⟩
  | .fist (.m32 m) => ⟨false, 0xDB, .rm 2 (.mem m), .none⟩
  | .fstp (.m32 m) => ⟨false, 0xD9, .rm 3 (.mem m), .none⟩
  | .fstp (.m64 m) => ⟨false, 0xDD, .rm 3 (.mem m), .none⟩
  | .fstp (.m80 m) => ⟨false, 0xDB, .rm 7 (.mem m), .none⟩
  | .fstp (.st i) => ⟨false, 0xDD, .rm 3 (.reg i), .none⟩
  | .fistp (.m16 m) => ⟨false, 0xDF, .rm 3 (.mem m), .none⟩
  | .fistp (.m32 m) => ⟨false, 0xDB, .rm 3 (.mem m), .none⟩
  | .fistp (.m64 m) => ⟨false, 0xDF, .rm 7 (.mem m), .none⟩
  | .fbstp m => ⟨false, 0xDF, .rm 6 (.mem m), .none⟩
  | .fxch i => ⟨false, 0xD9, .rm 1 (.reg i), .none⟩
  | .fld1 => ⟨false, 0xD9, .rm 5 (.reg 0), .none⟩
  | .fldl2t => ⟨false, 0xD9, .rm 5 (.reg 1), .none⟩
  | .fldl2e => ⟨false, 0xD9, .rm 5 (.reg 2), .none⟩
  | .fldpi => ⟨false, 0xD9, .rm 5 (.reg 3), .none⟩
  | .fldlg2 => ⟨false, 0xD9, .rm 5 (.reg 4), .none⟩
  | .fldln2 => ⟨false, 0xD9, .rm 5 (.reg 5), .none⟩
  | .fldz => ⟨false, 0xD9, .rm 5 (.reg 6), .none⟩
  | .fadd (.m32 m) => ⟨false, 0xD8, .rm 0 (.mem m), .none⟩
  | .fadd (.m64 m) => ⟨false, 0xDC, .rm 0 (.mem m), .none⟩
  | .fiadd (.m32 m) => ⟨false, 0xDA, .rm 0 (.mem m), .none⟩
  | .fiadd (.m16 m) => ⟨false, 0xDE, .rm 0 (.mem m), .none⟩
  | .fadd (.stSti i) => ⟨false, 0xD8, .rm 0 (.reg i), .none⟩
  | .fadd (.stiSt i) => ⟨false, 0xDC, .rm 0 (.reg i), .none⟩
  | .faddp i => ⟨false, 0xDE, .rm 0 (.reg i), .none⟩
  | .fmul (.m32 m) => ⟨false, 0xD8, .rm 1 (.mem m), .none⟩
  | .fmul (.m64 m) => ⟨false, 0xDC, .rm 1 (.mem m), .none⟩
  | .fimul (.m32 m) => ⟨false, 0xDA, .rm 1 (.mem m), .none⟩
  | .fimul (.m16 m) => ⟨false, 0xDE, .rm 1 (.mem m), .none⟩
  | .fmul (.stSti i) => ⟨false, 0xD8, .rm 1 (.reg i), .none⟩
  | .fmul (.stiSt i) => ⟨false, 0xDC, .rm 1 (.reg i), .none⟩
  | .fmulp i => ⟨false, 0xDE, .rm 1 (.reg i), .none⟩
  | .fsub (.m32 m) => ⟨false, 0xD8, .rm 4 (.mem m), .none⟩
  | .fsub (.m64 m) => ⟨false, 0xDC, .rm 4 (.mem m), .none⟩
  | .fisub (.m32 m) => ⟨false, 0xDA, .rm 4 (.mem m), .none⟩
  | .fisub (.m16 m) => ⟨false, 0xDE, .rm 4 (.mem m), .none⟩
  | .fsub (.stSti i) => ⟨false, 0xD8, .rm 4 (.reg i), .none⟩
  | .fsub (.stiSt i) => ⟨false, 0xDC, .rm 5 (.reg i), .none⟩
  | .fsubp i => ⟨false, 0xDE, .rm 5 (.reg i), .none⟩
  | .fsubr (.m32 m) => ⟨false, 0xD8, .rm 5 (.mem m), .none⟩
  | .fsubr (.m64 m) => ⟨false, 0xDC, .rm 5 (.mem m), .none⟩
  | .fisubr (.m32 m) => ⟨false, 0xDA, .rm 5 (.mem m), .none⟩
  | .fisubr (.m16 m) => ⟨false, 0xDE, .rm 5 (.mem m), .none⟩
  | .fsubr (.stSti i) => ⟨false, 0xD8, .rm 5 (.reg i), .none⟩
  | .fsubr (.stiSt i) => ⟨false, 0xDC, .rm 4 (.reg i), .none⟩
  | .fsubrp i => ⟨false, 0xDE, .rm 4 (.reg i), .none⟩
  | .fdiv (.m32 m) => ⟨false, 0xD8, .rm 6 (.mem m), .none⟩
  | .fdiv (.m64 m) => ⟨false, 0xDC, .rm 6 (.mem m), .none⟩
  | .fidiv (.m32 m) => ⟨false, 0xDA, .rm 6 (.mem m), .none⟩
  | .fidiv (.m16 m) => ⟨false, 0xDE, .rm 6 (.mem m), .none⟩
  | .fdiv (.stSti i) => ⟨false, 0xD8, .rm 6 (.reg i), .none⟩
  | .fdiv (.stiSt i) => ⟨false, 0xDC, .rm 7 (.reg i), .none⟩
  | .fdivp i => ⟨false, 0xDE, .rm 7 (.reg i), .none⟩
  | .fdivr (.m32 m) => ⟨false, 0xD8, .rm 7 (.mem m), .none⟩
  | .fdivr (.m64 m) => ⟨false, 0xDC, .rm 7 (.mem m), .none⟩
  | .fidivr (.m32 m) => ⟨false, 0xDA, .rm 7 (.mem m), .none⟩
  | .fidivr (.m16 m) => ⟨false, 0xDE, .rm 7 (.mem m), .none⟩
  | .fdivr (.stSti i) => ⟨false, 0xD8, .rm 7 (.reg i), .none⟩
  | .fdivr (.stiSt i) => ⟨false, 0xDC, .rm 6 (.reg i), .none⟩
  | .fdivrp i => ⟨false, 0xDE, .rm 6 (.reg i), .none⟩
  | .fsqrt => ⟨false, 0xD9, .rm 7 (.reg 2), .none⟩
  | .fscale => ⟨false, 0xD9, .rm 7 (.reg 5), .none⟩
  | .fprem => ⟨false, 0xD9, .rm 7 (.reg 0), .none⟩
  | .fprem1 => ⟨false, 0xD9, .rm 6 (.reg 5), .none⟩
  | .frndint => ⟨false, 0xD9, .rm 7 (.reg 4), .none⟩
  | .fxtract => ⟨false, 0xD9, .rm 6 (.reg 4), .none⟩
  | .fabs => ⟨false, 0xD9, .rm 4 (.reg 1), .none⟩
  | .fchs => ⟨false, 0xD9, .rm 4 (.reg 0), .none⟩
  | .fcom (.m32 m) => ⟨false, 0xD8, .rm 2 (.mem m), .none⟩
  | .fcom (.m64 m) => ⟨false, 0xDC, .rm 2 (.mem m), .none⟩
  | .fcom (.st i) => ⟨false, 0xD8, .rm 2 (.reg i), .none⟩
  | .fcomp (.m32 m) => ⟨false, 0xD8, .rm 3 (.mem m), .none⟩
  | .fcomp (.m64 m) => ⟨false, 0xDC, .rm 3 (.mem m), .none⟩
  | .fcomp (.st i) => ⟨false, 0xD8, .rm 3 (.reg i), .none⟩
  | .fcompp => ⟨false, 0xDE, .rm 3 (.reg 1), .none⟩
  | .ficom (.m16 m) => ⟨false, 0xDE, .rm 2 (.mem m), .none⟩
  | .ficom (.m32 m) => ⟨false, 0xDA, .rm 2 (.mem m), .none⟩
  | .ficomp (.m16 m) => ⟨false, 0xDE, .rm 3 (.mem m), .none⟩
  | .ficomp (.m32 m) => ⟨false, 0xDA, .rm 3 (.mem m), .none⟩
  | .fucom i => ⟨false, 0xDD, .rm 4 (.reg i), .none⟩
  | .fucomp i => ⟨false, 0xDD, .rm 5 (.reg i), .none⟩
  | .fucompp => ⟨false, 0xDA, .rm 5 (.reg 1), .none⟩
  | .ftst => ⟨false, 0xD9, .rm 4 (.reg 4), .none⟩
  | .fxam => ⟨false, 0xD9, .rm 4 (.reg 5), .none⟩
  | .fptan => ⟨false, 0xD9, .rm 6 (.reg 2), .none⟩
  | .fpatan => ⟨false, 0xD9, .rm 6 (.reg 3), .none⟩
  | .fsin => ⟨false, 0xD9, .rm 7 (.reg 6), .none⟩
  | .fcos => ⟨false, 0xD9, .rm 7 (.reg 7), .none⟩
  | .fsincos => ⟨false, 0xD9, .rm 7 (.reg 3), .none⟩
  | .f2xm1 => ⟨false, 0xD9, .rm 6 (.reg 0), .none⟩
  | .fyl2x => ⟨false, 0xD9, .rm 6 (.reg 1), .none⟩
  | .fyl2xp1 => ⟨false, 0xD9, .rm 7 (.reg 1), .none⟩
  | .fninit => ⟨false, 0xDB, .rm 4 (.reg 3), .none⟩
  | .fldcw m => ⟨false, 0xD9, .rm 5 (.mem m), .none⟩
  | .fnstcw m => ⟨false, 0xD9, .rm 7 (.mem m), .none⟩
  | .fnstsw (.mem m) => ⟨false, 0xDD, .rm 7 (.mem m), .none⟩
  | .fnstsw .ax => ⟨false, 0xDF, .rm 4 (.reg 0), .none⟩
  | .fnclex => ⟨false, 0xDB, .rm 4 (.reg 2), .none⟩
  | .fincstp => ⟨false, 0xD9, .rm 6 (.reg 7), .none⟩
  | .fdecstp => ⟨false, 0xD9, .rm 6 (.reg 6), .none⟩
  | .ffree i => ⟨false, 0xDD, .rm 0 (.reg i), .none⟩
  | .fnop => ⟨false, 0xD9, .rm 2 (.reg 0), .none⟩
  | .feni => ⟨false, 0xDB, .rm 4 (.reg 0), .none⟩
  | .fdisi => ⟨false, 0xDB, .rm 4 (.reg 1), .none⟩
  | .fsetpm => ⟨false, 0xDB, .rm 4 (.reg 4), .none⟩
  | .fnstenv m => ⟨false, 0xD9, .rm 6 (.mem m), .none⟩
  | .fldenv m => ⟨false, 0xD9, .rm 4 (.mem m), .none⟩
  | .fnsave m => ⟨false, 0xDD, .rm 6 (.mem m), .none⟩
  | .frstor m => ⟨false, 0xDD, .rm 4 (.mem m), .none⟩
  | .undefinedEsc (.d8 r m) => ⟨false, 0xD8, .rm r m, .none⟩
  | .undefinedEsc (.d9 r m) => ⟨false, 0xD9, .rm r m, .none⟩
  | .undefinedEsc (.da r m) => ⟨false, 0xDA, .rm r m, .none⟩
  | .undefinedEsc (.db r m) => ⟨false, 0xDB, .rm r m, .none⟩
  | .undefinedEsc (.dc r m) => ⟨false, 0xDC, .rm r m, .none⟩
  | .undefinedEsc (.dd r m) => ⟨false, 0xDD, .rm r m, .none⟩
  | .undefinedEsc (.de r m) => ⟨false, 0xDE, .rm r m, .none⟩
  | .undefinedEsc (.df r m) => ⟨false, 0xDF, .rm r m, .none⟩

/-- The register number inside the opcode byte. -/
def opByte (op : Byte) : Tail → Byte
  | .opreg r => op ||| r.setWidth 8
  | _ => op

/-- The bytes between opcode and immediate. -/
def Tail.bytes : Tail → List Byte
  | .none => []
  | .opreg _ => []
  | .rm reg m => encodeRm reg m
  | .raw mode reg r => [mode ++ reg ++ r]

/-- The bytes of the immediate part. -/
def Imm.bytes (osz asz : Size) : Imm → List Byte
  | .none => []
  | .ib v => [v]
  | .iw v => bytes2 v
  | .iv v => bytesV osz v
  | .cp off sel => bytesV osz off ++ bytes2 sel
  | .moffs v => bytesV asz v
  | .enter w b => bytes2 w ++ [b]

/-- The bytes of a layout. -/
def Raw.bytes (osz asz : Size) (w : Raw) : List Byte :=
  (if w.two then [0x0F] else []) ++ opByte w.op w.tail :: (w.tail.bytes ++ w.imm.bytes osz asz)

/-- The encoder: the bytes of a well-formed instruction, in memory order, without the prefixes that its sizes may
need (a prefix is an item of its own). -/
def encode (osz asz : Size) (i : Instr) : List Byte := i.raw.bytes osz asz

/-! ### Table words -/

/-- The low `n` bytes of `w`, least significant first. -/
def wordBytes : Nat → Nat → List Byte
  | 0, _ => []
  | n + 1, w => BitVec.ofNat 8 w :: wordBytes n (w / 256)

/-- The longest instruction, prefixes included (30_encoding R267). -/
def maxLength : Nat := 15

/-- The bytes of an instruction whose bits, numbered as spec/opcode_table.json numbers them, are the low `nbits` bits
of `w`; the bits above are 0, up to the longest instruction. -/
def tableBytes (nbits w : Nat) : List Byte := wordBytes maxLength (w % 2 ^ nbits)

/-- The instruction the decoder reads from a table word, with the 16-bit sizes of the state after reset (30_encoding
R261). -/
def decodeTableWord (nbits w : Nat) : Option Instr :=
  match decode .s16 .s16 (tableBytes nbits w) with
  | .ok (i, _) => some i
  | .error _ => none

end Sys2Proof
end

