-- ==== Sys2Proof/Config.lean ====
section
/-! DEFINITION. What the platform or an implementation fixes and the spec leaves open (00_scope R4, R8;
92_eei_decisions D19, D21, D22; 93_implementation_defined). Every constant here has no body: nothing can be proved of
its value, so what is proved of the model holds whatever the value is. -/
namespace Sys2Proof

/-- A free value for each use (93_implementation_defined: every `any value` item). The step applies it to the counter
`State.freeCtr` and advances the counter. DESIGN CHOICE (notes/assumptions/2): safe. -/
opaque Config.freeBits : Nat → BitVec 128

/-- `PLATFORM.io_read(port, n)` (00_scope R4): what the port at address `port`, read as `n` bytes, answers at use
number `ctr`. Only the low 8n bits are used. -/
opaque Config.ioRead (port n ctr : Nat) : DWord

/-- What a location that holds a device, or nothing at all, answers when `n` bytes are read at physical address `addr`,
at use number `ctr` (92_eei_decisions D19, U24). Only the low 8n bits are used. -/
opaque Config.busRead (addr n ctr : Nat) : DWord

/-- `PLATFORM.stepping` (70_reset R928): DL after reset. -/
opaque Config.stepping : Byte

/-- `PLATFORM.bist_result` (70_reset R922): EAX after a reset with built-in self-test; 0 when the test passed. -/
opaque Config.bistResult : DWord

/-- `FPU.prem_n(expdiff)` (92_eei_decisions D21); the model uses 32 + this value mod 32, so it lies in 32 to 63. -/
opaque Config.premN (expdiff : Nat) : Nat

/-- The transcendental functions of `FPU.transc` (92_eei_decisions D22; 48_fpu_transcendental). -/
inductive Transc where
  | tan
  | atan
  | sin
  | cos
  | exp2m1
  | ylog2
  | ylog2p1
  deriving DecidableEq, Repr

/-- `FPU.transc(op, x, y, RC, PC)`: the sign, significand and binary exponent of the value that is then rounded to the
destination, (-1)^sign * significand * 2^exponent. Used only where 48_fpu_transcendental does not make the result exact,
and only while it lies within the error bound of R771 (`transcValue` in Sys2Proof/Machine/FpuTrans.lean). -/
opaque Config.transc (op : Transc) (x y : Ext) (rc pc : BitVec 2) : Bool × Nat × Int

end Sys2Proof
end

