-- ==== Sys2Proof/Machine/State.lean ====
section
/-! DEFINITION. The state of the machine as plain data (10_state R20 to R97, 11_fpu_state R60 to R89, 00_scope R3, R4),
the reasons a step can stop, and the state after reset (70_reset R928 to R930). -/
namespace Sys2Proof.Machine

/-- The eight general registers (10_state R21). -/
structure Regs where
  eax : DWord
  ecx : DWord
  edx : DWord
  ebx : DWord
  esp : DWord
  ebp : DWord
  esi : DWord
  edi : DWord
  deriving DecidableEq, Repr

/-- The flags of EFLAGS, one field each (10_state R36, R37). The reserved bits of EFLAGS are fixed (R39), so the fields
determine the register: see `Flags.toBits`. -/
structure Flags where
  cf : Bool
  pf : Bool
  af : Bool
  zf : Bool
  sf : Bool
  tf : Bool
  intf : Bool
  df : Bool
  ovf : Bool
  iopl : BitVec 2
  nt : Bool
  rf : Bool
  vm : Bool
  ac : Bool
  deriving DecidableEq, Repr

/-- The hidden part of a segment register, its descriptor cache (10_state R30). `valid` is false after a null selector
was loaded in protected mode; `limit` is byte granular, already scaled by G. -/
structure Hidden where
  base : DWord
  limit : DWord
  valid : Bool
  present : Bool
  dpl : BitVec 2
  s : Bool
  type : BitVec 4
  db : Bool
  g : Bool
  deriving DecidableEq, Repr

/-- A segment register: the visible selector and the hidden part (10_state R30). -/
structure SegReg where
  sel : Word
  hid : Hidden
  deriving DecidableEq, Repr

/-- The six segment registers (10_state R30). -/
structure Segs where
  es : SegReg
  cs : SegReg
  ss : SegReg
  ds : SegReg
  fs : SegReg
  gs : SegReg
  deriving DecidableEq, Repr

/-- GDTR or IDTR: a linear base and a 16-bit limit (10_state R32). -/
structure TableReg where
  base : DWord
  limit : Word
  deriving DecidableEq, Repr

/-- Debug registers (10_state R50); DR4 and DR5 are aliases of DR6 and DR7. -/
structure DebugRegs where
  dr0 : DWord
  dr1 : DWord
  dr2 : DWord
  dr3 : DWord
  dr6 : DWord
  dr7 : DWord
  deriving DecidableEq, Repr

/-- Test registers, plain storage (10_state R51). -/
structure TestRegs where
  tr3 : DWord
  tr4 : DWord
  tr5 : DWord
  tr6 : DWord
  tr7 : DWord
  deriving DecidableEq, Repr

/-- The FPU data registers R0 to R7 (11_fpu_state R60). -/
structure FpuRegs where
  r0 : Ext
  r1 : Ext
  r2 : Ext
  r3 : Ext
  r4 : Ext
  r5 : Ext
  r6 : Ext
  r7 : Ext
  deriving DecidableEq, Repr

/-- The FPU status word, one field each but for ES and B, which the exception flags and masks determine
(11_fpu_state R70, R73). -/
structure FpuStatus where
  ie : Bool
  de : Bool
  ze : Bool
  oe : Bool
  ue : Bool
  pe : Bool
  sf : Bool
  c0 : Bool
  c1 : Bool
  c2 : Bool
  c3 : Bool
  top : BitVec 3
  deriving DecidableEq, Repr

/-- The FPU state (11_fpu_state R60 to R83). `empty` has bit n set when Rn is tagged empty: between FSTENV and FSAVE
only that distinction is kept (R63). `cw` is the control word, stored as written (R65, U12). `ip`, `cs`, `dp`, `ds`,
`op` are the exception pointers and the last opcode (R83). -/
structure Fpu where
  regs : FpuRegs
  empty : BitVec 8
  cw : Word
  st : FpuStatus
  ip : DWord
  cs : Word
  dp : DWord
  ds : Word
  op : BitVec 11
  deriving DecidableEq, Repr

/-- A valid line of the internal cache (10_state R91, 21_bus R240): set, way, tag and 16 data bytes, byte n in bits
8n+7 to 8n. -/
structure CacheLine where
  set : BitVec 7
  way : BitVec 2
  tag : BitVec 21
  data : BitVec 128
  deriving DecidableEq, Repr

/-- The internal cache: its valid lines, in rising order of (set, way), and the pseudo-LRU bits: B0, B1, B2 of set n
are bits 3n, 3n+1, 3n+2 of `lru` (10_state R91, 21_bus R243). -/
structure Cache where
  lines : List CacheLine
  lru : BitVec 384
  deriving DecidableEq, Repr

/-- A valid entry of the TLB (10_state R95): set, way, linear page, frame, combined U/S and R/W, D, PCD, PWT. -/
structure TlbEntry where
  set : BitVec 3
  way : BitVec 2
  page : BitVec 20
  frame : BitVec 20
  user : Bool
  writable : Bool
  dirty : Bool
  pcd : Bool
  pwt : Bool
  deriving DecidableEq, Repr

/-- The TLB: its valid entries and the pseudo-LRU bits of its 8 sets (10_state R95, 20_memory R149). -/
structure Tlb where
  entries : List TlbEntry
  lru : BitVec 24
  deriving DecidableEq, Repr

/-- The run state (10_state R97). -/
inductive RunState where
  /-- Instructions execute. -/
  | running
  /-- After HLT (60_exceptions R883). -/
  | halted
  /-- After a fault while delivering a double fault (60_exceptions R869). -/
  | shutdown
  /-- Frozen on a pending FPU error with NE = 0 and IGNNE# inactive (60_exceptions R880). -/
  | fpWait
  /-- An exception whose delivery raises exceptions without end: #AC at CPL 3 with a misaligned stack, each delivery of
  which pushes on that stack again (20_memory R106, 60_exceptions R874). Only RESET leaves it. DEDUCED
  (notes/assumptions/62). -/
  | stuck
  deriving DecidableEq, Repr

/-- The interrupt shadow (10_state R94 (c), 60_exceptions R868). -/
inductive Shadow where
  | none
  /-- `intr_shadow`, after a load of SS or an STI that set IF: INTR, NMI and debug traps are not recognised at the next
  boundary. -/
  | held
  /-- No shadow of R94, but RESET and no instruction since: INTR and NMI are not recognised (70_reset R927). -/
  | reset
  deriving DecidableEq, Repr

/-- The interrupt latches (10_state R94), the debug traps not yet taken (60_exceptions R846, R867) and whether the last
step left a repeated string instruction unfinished (42_integer R458, 60_exceptions R865). `nmiLevel` is the level of
the NMI pin at the previous boundary, for its edge. -/
structure Latches where
  nmiPending : Bool
  nmiInService : Bool
  nmiLevel : Bool
  shadow : Shadow
  dataBreak : BitVec 4
  singleStep : Bool
  repActive : Bool
  deriving DecidableEq, Repr

/-- The input pins that the processor samples at an instruction boundary, asserted = true (10_state R97, 00_scope R3),
the vector the platform would answer, the lines that EADS# cycles invalidate and the bytes that other bus masters
write at this boundary. -/
structure Pins where
  intr : Bool
  intrVector : Byte
  nmi : Bool
  reset : Bool
  ahold : Bool
  flush : Bool
  a20m : Bool
  ignne : Bool
  eads : List DWord
  busWrites : List Host.Cell
  deriving DecidableEq, Repr

/-- What answers at a physical address (92_eei_decisions D19). -/
inductive RegionKind where
  | ram
  | rom
  | device
  | absent
  deriving DecidableEq, Repr

/-- A region of `PLATFORM.memory_map`: addresses `first` to `last`, what answers there, and the KEN# answer. -/
structure Region where
  first : DWord
  last : DWord
  kind : RegionKind
  cacheable : Bool
  deriving DecidableEq, Repr

/-- A page's cache attributes, as the PCD and PWT outputs show them (21_bus R239). -/
structure Attr where
  pcd : Bool
  pwt : Bool
  deriving DecidableEq, Repr

/-- What a bus cycle is (21_bus R177, R181): I/O (20_memory R125), code and data reads and data writes of memory, interrupt
acknowledge (R193: two cycles, told apart by the byte address; the vector is taken from the second, the data of the first is
ignored), special cycles (21_bus R227). A transfer is of `n` bytes of one dword (R191), the first at the address given. -/
inductive BusEvent where
  | ioRead (port : Word) (n : Nat) (v : DWord)
  | ioWrite (port : Word) (n : Nat) (v : DWord)
  | memRead (code : Bool) (addr : DWord) (n : Nat) (v : DWord)
  | memWrite (addr : DWord) (n : Nat) (v : DWord)
  | intAck (addr : DWord) (vector : Option Byte)
  | shutdown
  | cacheFlush
  | halt
  | writeBackFlush
  deriving DecidableEq, Repr

/-- A bus cycle and what the PCD and PWT outputs are during it (21_bus R172, R239). -/
structure BusCycle where
  event : BusEvent
  attr : Attr
  deriving DecidableEq, Repr

/-- What the prefetch queue and buffers may hold that a new fetch would not find (10_state R93, 21_bus R189, R253), each
byte with its linear address. `held`: bytes read from what is not RAM, which are in the unit and are not read again;
`stale`: what a byte of RAM held before a store, which the unit may or may not still hold (20_memory R123, D17). -/
structure Prefetch where
  held : List Host.Cell
  stale : List Host.Cell
  deriving DecidableEq, Repr

/-- A segment register's name, or number 0 to 5 (30_encoding R281). -/
inductive SegName where
  | es
  | cs
  | ss
  | ds
  | fs
  | gs
  deriving DecidableEq, Repr

/-- A repeat prefix (30_encoding R270). -/
inductive Rep where
  | rep
  | repne
  deriving DecidableEq, Repr

/-- The decode variables of the instruction in progress (30_encoding R305): the bytes consumed so far, `p - EIP`, and
what its prefixes gave. `done` says that the instruction completed (no fault was delivered in its place), `taken` that it
transferred control. -/
structure Dec where
  len : Nat
  has66 : Bool
  has67 : Bool
  seg : Option SegName
  rep : Option Rep
  lock : Bool
  done : Bool
  taken : Bool
  deriving DecidableEq, Repr

/-- The whole machine. -/
structure State where
  /-- General registers. -/
  regs : Regs
  /-- Instruction pointer (10_state R23). Between steps: the next instruction. -/
  eip : DWord
  /-- EFLAGS. -/
  flags : Flags
  /-- Segment registers. -/
  segs : Segs
  /-- Global descriptor table register. -/
  gdtr : TableReg
  /-- Interrupt descriptor table register. -/
  idtr : TableReg
  /-- Local descriptor table register (10_state R33). -/
  ldtr : SegReg
  /-- Task register (10_state R33). -/
  tr : SegReg
  /-- Current privilege level (10_state R34). -/
  cpl : BitVec 2
  /-- Control registers (10_state R45 to R48). -/
  cr0 : DWord
  cr2 : DWord
  cr3 : DWord
  /-- Debug registers. -/
  dbg : DebugRegs
  /-- Test registers. -/
  test : TestRegs
  /-- Floating-point unit. -/
  fpu : Fpu
  /-- Internal cache. -/
  cache : Cache
  /-- Translation lookaside buffer. -/
  tlb : Tlb
  /-- Physical memory: the bytes that do not read 0, addresses strictly rising (20_memory R102). -/
  mem : List Host.Cell
  /-- Interrupt latches. -/
  latch : Latches
  /-- Run state. -/
  run : RunState
  /-- Sampled input pins. -/
  pins : Pins
  /-- The pins at the coming instruction boundaries, the next one first; after the last they stay as they are
  (00_scope R3: an input stream). -/
  inputs : List Pins
  /-- The platform's memory map; an address in no region is cacheable RAM. -/
  regions : List Region
  /-- Prefetch queue and buffers (10_state R93). -/
  prefetch : Prefetch
  /-- The bus cycles run, newest first, but for transfers of RAM, which `mem` shows (notes/assumptions/63). -/
  bus : List BusCycle
  /-- Decode variables. -/
  dec : Dec
  /-- The model's own counter of free values. -/
  freeCtr : Nat
  deriving DecidableEq, Repr

/-- Why the machine stops with a fault. -/
inductive Fault where
  /-- The bound on the items of one instruction was reached. Raised by `step`, for no state: the segment limit ends every
  run of prefixes before the bound. Safe. -/
  | bound
  deriving DecidableEq, Repr

/-- What the model refuses, each under its own name (00_scope R6, 92_eei_decisions D2, D4). All are safe: the step has
no next state. -/
inductive Refusal where
  /-- An instruction without a meaning yet; raised by `exec` only. -/
  | notModelled (mnemonic : String)
  /-- A far JMP or CALL whose selector names a TSS or a task gate (D2); raised by JMP and CALL. -/
  | taskSwitch
  /-- A task gate in the IDT (D2); raised by interrupt and exception delivery. -/
  | taskGate
  /-- A far JMP or CALL through a call gate (D2); raised by JMP and CALL. -/
  | callGate
  /-- IRET with NT = 1, a return by task switch (D2); raised by IRET. -/
  | nestedTaskReturn
  /-- Virtual-8086 mode (D2): an IRET that would set VM; raised by IRET. -/
  | virtual8086
  /-- RESET with FLUSH# asserted, the tri-state test mode (D4); raised by `step`. -/
  | triStateTest
  deriving DecidableEq, Repr

/-- What a segment register holds after reset in its hidden part: a base, limit FFFFH, present, 16-bit,
and a type: 3 for accessed writable data, BH for accessed readable code (R928, 10_state R30). -/
def Hidden.atReset (base : DWord) (type : BitVec 4) : Hidden :=
  { base := base, limit := 0xFFFF, valid := true, present := true, dpl := 0, s := true, type := type, db := false, g := false }

/-- EFLAGS = 00000002H (R928). -/
def Flags.atReset : Flags :=
  { cf := false, pf := false, af := false, zf := false, sf := false, tf := false, intf := false, df := false, ovf := false, iopl := 0, nt := false, rf := false, vm := false, ac := false }

/-- The FPU status word 0000H (R930). -/
def FpuStatus.clear : FpuStatus :=
  { ie := false, de := false, ze := false, oe := false, ue := false, pe := false, sf := false, c0 := false, c1 := false, c2 := false, c3 := false, top := 0 }

/-- The state after FINIT, data registers apart (R930, Table 3.1): CW = 037FH, SW = 0, all empty, pointers 0. -/
def Fpu.initialised (regs : FpuRegs) : Fpu :=
  { regs := regs, empty := 0xFF, cw := 0x037F, st := FpuStatus.clear, ip := 0, cs := 0, dp := 0, ds := 0, op := 0 }

/-- All eight data registers +0.0. -/
def FpuRegs.zero : FpuRegs := { r0 := 0, r1 := 0, r2 := 0, r3 := 0, r4 := 0, r5 := 0, r6 := 0, r7 := 0 }

/-- Nothing consumed, no prefix. -/
def Dec.start : Dec := { len := 0, has66 := false, has67 := false, seg := none, rep := none, lock := false, done := false, taken := false }

/-- Nothing prefetched. -/
def Prefetch.empty : Prefetch := { held := [], stale := [] }

/-- No pin asserted, no event of another agent. -/
def Pins.idle : Pins :=
  { intr := false, intrVector := 0, nmi := false, reset := false, ahold := false, flush := false, a20m := false, ignne := false, eads := [], busWrites := [] }

/-- No interrupt latched, no debug trap pending (R928); NMI and INTR are not recognised before the first instruction is
fetched (70_reset R927). -/
def Latches.atReset : Latches :=
  { nmiPending := false, nmiInService := false, nmiLevel := false, shadow := .reset, dataBreak := 0, singleStep := false, repActive := false }

/-- The machine right after power-up RESET without built-in self-test (R928 to R930). The registers that the spec leaves
undefined hold 0 and the FPU holds what RESET with self-test would leave (notes/assumptions/3, UNSAFE). -/
def State.reset : State where
  regs := { eax := 0, ecx := 0, edx := 0x0400 ||| Config.stepping.setWidth 32, ebx := 0, esp := 0, ebp := 0, esi := 0, edi := 0 }
  eip := 0xFFF0
  flags := Flags.atReset
  segs :=
    { es := ⟨0, Hidden.atReset 0 3⟩, cs := ⟨0xF000, Hidden.atReset 0xFFFF0000 11⟩, ss := ⟨0, Hidden.atReset 0 3⟩, ds := ⟨0, Hidden.atReset 0 3⟩, fs := ⟨0, Hidden.atReset 0 3⟩, gs := ⟨0, Hidden.atReset 0 3⟩ }
  gdtr := ⟨0, 0xFFFF⟩
  idtr := ⟨0, 0x03FF⟩
  ldtr := ⟨0, { Hidden.atReset 0 2 with s := false }⟩
  tr := ⟨0, { Hidden.atReset 0 11 with s := false }⟩
  cpl := 0
  cr0 := 0x60000000
  cr2 := 0
  cr3 := 0
  dbg := { dr0 := 0, dr1 := 0, dr2 := 0, dr3 := 0, dr6 := 0xFFFF0FF0, dr7 := 0 }
  test := { tr3 := 0, tr4 := 0, tr5 := 0, tr6 := 0, tr7 := 0 }
  fpu := Fpu.initialised FpuRegs.zero
  cache := ⟨[], 0⟩
  tlb := ⟨[], 0⟩
  mem := []
  latch := Latches.atReset
  run := .running
  pins := Pins.idle
  inputs := []
  regions := []
  prefetch := Prefetch.empty
  bus := []
  dec := Dec.start
  freeCtr := 0

end Sys2Proof.Machine
end

