-- ==== Sys2Proof/Machine/Memory.lean ====
section
/-! DEFINITION. Physical memory, the internal cache, the TLB and paging (20_memory R100 to R104, R145 to R150; 21_bus
R175, R184 to R192, R239 to R247). Everything above this file reaches memory through `linLocate`, `readBytes` and
`writeBytes`. -/
namespace Sys2Proof.Machine

/-! ### The meaning of an instruction: state in, state out, or a reason to stop -/

/-- The class of an exception (60_exceptions R842). -/
inductive ExnClass where
  | fault
  | trap
  | abort
  deriving DecidableEq, Repr

/-- An exception (00_scope R13): vector, error code if its vector pushes one, class. -/
structure Exn where
  vector : Byte
  code : Option Word
  cls : ExnClass
  deriving DecidableEq, Repr

/-- Why the instruction in progress is abandoned. -/
inductive Stop where
  /-- `raise #XX(code)`. -/
  | exn (e : Exn)
  /-- The model refuses. -/
  | refuse (r : Refusal)
  /-- The processor freezes before the instruction (60_exceptions R880). -/
  | freeze
  /-- The processor shuts down (60_exceptions R869). -/
  | shutdown
  deriving DecidableEq, Repr

/-- A computation over the machine that ends with a value or stops. -/
abbrev M := EStateM Stop State

/-- `raise #XX(code)`: abandons the instruction (00_scope R13). -/
def raise {α : Type} (v : Byte) (code : Option Word) (cls : ExnClass := .fault) : M α :=
  throw (.exn { vector := v, code := code, cls := cls })

/-- #GP with an error code (60_exceptions R850). -/
def raiseGP {α : Type} (code : Word) : M α := raise 13 (some code)
/-- #SS with an error code (60_exceptions R859). -/
def raiseSS {α : Type} (code : Word) : M α := raise 12 (some code)
/-- #NP with an error code (60_exceptions R856). -/
def raiseNP {α : Type} (code : Word) : M α := raise 11 (some code)
/-- #TS with an error code (60_exceptions R856). -/
def raiseTS {α : Type} (code : Word) : M α := raise 10 (some code)
/-- #UD (60_exceptions R852). -/
def raiseUD {α : Type} : M α := raise 6 none
/-- #DE (60_exceptions R845). -/
def raiseDE {α : Type} : M α := raise 0 none
/-- #NM (60_exceptions R855). -/
def raiseNM {α : Type} : M α := raise 7 none
/-- #AC(0) (60_exceptions R860). -/
def raiseAC {α : Type} : M α := raise 17 (some 0)

/-- A free value for one use: the counter is read and advanced (notes/assumptions/2). -/
def fresh : M (BitVec 128) := fun s => .ok (Config.freeBits s.freeCtr) { s with freeCtr := s.freeCtr + 1 }

/-! ### Control register fields (10_state R47, R48) -/

def State.pe (s : State) : Bool := s.cr0.getLsbD 0
def State.mp (s : State) : Bool := s.cr0.getLsbD 1
def State.em (s : State) : Bool := s.cr0.getLsbD 2
def State.ts (s : State) : Bool := s.cr0.getLsbD 3
def State.ne (s : State) : Bool := s.cr0.getLsbD 5
def State.wp (s : State) : Bool := s.cr0.getLsbD 16
def State.am (s : State) : Bool := s.cr0.getLsbD 18
def State.nw (s : State) : Bool := s.cr0.getLsbD 29
def State.cd (s : State) : Bool := s.cr0.getLsbD 30
def State.pg (s : State) : Bool := s.cr0.getLsbD 31
/-- CR3.PCD and CR3.PWT, in force for table walks, with paging off, and for cycles that bypass paging (21_bus R239). -/
def State.cr3Attr (s : State) : Attr := { pcd := s.cr3.getLsbD 4, pwt := s.cr3.getLsbD 3 }

/-! ### Memory: a sorted list of the bytes that do not read 0 -/

/-- Physical memory. -/
abbrev Memory := List Host.Cell

/-- What an unlisted address reads as: RAM that nothing has written (notes/assumptions/1, UNSAFE). -/
def unwritten : Byte := 0

/-- The canonical form from address `lo` up: addresses strictly rising below 2^32, no entry equal to what an unlisted
address reads as. -/
def Memory.wfFrom : Nat → Memory → Bool
  | _, [] => true
  | lo, (a, v) :: m => decide (lo ≤ a) && decide (a < 2 ^ 32) && v != unwritten && Memory.wfFrom (a + 1) m

/-- The canonical form. -/
def Memory.wf (m : Memory) : Bool := Memory.wfFrom 0 m

/-- The byte at an address. -/
def memRead : Memory → Nat → Byte
  | [], _ => unwritten
  | (k, v) :: m, a => if k = a then v else memRead m a

/-- Stores a byte, keeping the canonical form. -/
def memWrite : Memory → Nat → Byte → Memory
  | [], a, v => if v = unwritten then [] else [(a, v)]
  | (k, w) :: m, a, v =>
    if a < k then (if v = unwritten then (k, w) :: m else (a, v) :: (k, w) :: m)
    else if a = k then (if v = unwritten then m else (a, v) :: m)
    else (k, w) :: memWrite m a v

/-! ### Pseudo-LRU, shared by cache and TLB (21_bus R243, R255) -/

/-- Sets one bit. -/
def setBit {n : Nat} (v : BitVec n) (i : Nat) (b : Bool) : BitVec n :=
  if b then v ||| (1#n <<< i) else v &&& ~~~(1#n <<< i)

/-- The LRU bits after an access to way `way` of set `set`; the bits B0, B1, B2 of a set are 3·set, 3·set+1, 3·set+2. -/
def lruTouch {n : Nat} (lru : BitVec n) (set way : Nat) : BitVec n :=
  match way with
  | 0 => setBit (setBit lru (3 * set) true) (3 * set + 1) true
  | 1 => setBit (setBit lru (3 * set) true) (3 * set + 1) false
  | 2 => setBit (setBit lru (3 * set) false) (3 * set + 2) true
  | _ => setBit (setBit lru (3 * set) false) (3 * set + 2) false

/-- The way to replace when all four are valid. -/
def lruVictim {n : Nat} (lru : BitVec n) (set : Nat) : Nat :=
  if lru.getLsbD (3 * set) then (if lru.getLsbD (3 * set + 2) then 3 else 2)
  else (if lru.getLsbD (3 * set + 1) then 1 else 0)

/-- The way to fill: the lowest invalid one (notes/assumptions/8), else the victim. -/
def fillWay {n : Nat} (valid : Nat → Bool) (lru : BitVec n) (set : Nat) : Nat :=
  if !valid 0 then 0 else if !valid 1 then 1 else if !valid 2 then 2 else if !valid 3 then 3
  else lruVictim lru set

/-! ### The internal cache (21_bus R240 to R247) -/

/-- The set an address indexes: bits 10..4 (R240). -/
def cacheSet (a : Nat) : Nat := a / 16 % 128
/-- The tag of an address: bits 31..11 (R240). -/
def cacheTag (a : Nat) : Nat := a / 2048

/-- The valid line that holds an address. -/
def Cache.find (c : Cache) (a : Nat) : Option CacheLine :=
  c.lines.find? (fun l => l.set.toNat == cacheSet a && l.tag.toNat == cacheTag a)

/-- Whether a way of a set is valid. -/
def Cache.valid (c : Cache) (set way : Nat) : Bool :=
  c.lines.any (fun l => l.set.toNat == set && l.way.toNat == way)

/-- `n` bytes of a 16-byte block at an address. -/
def blockValue (d : BitVec 128) (a n : Nat) : Nat := (d >>> (8 * (a % 16))).toNat % 2 ^ (8 * n)

/-- A 16-byte block with `n` bytes at an address replaced. -/
def setBlock (d : BitVec 128) (a n v : Nat) : BitVec 128 :=
  let k := 8 * (a % 16)
  (d &&& ~~~(BitVec.ofNat 128 (2 ^ (8 * n) - 1) <<< k)) ||| (BitVec.ofNat 128 (v % 2 ^ (8 * n)) <<< k)

/-- Where a line stands: (set, way) as one number. -/
def CacheLine.key (l : CacheLine) : Nat := l.set.toNat * 4 + l.way.toNat

/-- Puts a line in its place, in rising order, over what was there. -/
def insertLine (n : CacheLine) : List CacheLine → List CacheLine
  | [] => [n]
  | l :: ls =>
    if n.key < l.key then n :: l :: ls
    else if n.key = l.key then n :: ls
    else l :: insertLine n ls

/-- Marks an access to a line (R243). -/
def Cache.touch (c : Cache) (l : CacheLine) : Cache :=
  { c with lru := lruTouch c.lru l.set.toNat l.way.toNat }

/-- A line fill: the block `d` around an address enters the cache (R241, R243). -/
def Cache.fill (c : Cache) (a : Nat) (d : BitVec 128) : Cache :=
  let set := cacheSet a
  let way := fillWay (c.valid set) c.lru set
  { lines := insertLine ⟨BitVec.ofNat 7 set, BitVec.ofNat 2 way, BitVec.ofNat 21 (cacheTag a), d⟩ c.lines
    lru := lruTouch c.lru set way }

/-- A write of `n` bytes that hits updates the line (R242). -/
def Cache.write (c : Cache) (l : CacheLine) (a n v : Nat) : Cache :=
  ({ c with lines := insertLine { l with data := setBlock l.data a n v } c.lines }).touch l

/-- One line invalidated by an external cycle (R236). -/
def Cache.invalidate (c : Cache) (a : Nat) : Cache :=
  { c with lines := c.lines.filter (fun l => !(l.set.toNat == cacheSet a && l.tag.toNat == cacheTag a)) }

/-- All lines invalid (R244). -/
def Cache.flush (c : Cache) : Cache := { c with lines := [] }

/-! ### Bus cycles (21_bus R177, R181, R239) -/

/-- A cycle is run on the bus. -/
def State.runCycle (s : State) (e : BusEvent) (attr : Attr) : State := { s with bus := { event := e, attr := attr } :: s.bus }

/-- A cycle that bypasses paging: I/O, interrupt acknowledge, special cycles (R239). -/
def State.drive (s : State) (e : BusEvent) : State := s.runCycle e s.cr3Attr

/-- The address that reaches cache and bus: bit 20 forced to 0 while A20M# is asserted (21_bus R175). -/
def State.a20 (s : State) (pa : Nat) : Nat :=
  let a := pa % 2 ^ 32
  if s.pins.a20m then a - a / 2 ^ 20 % 2 * 2 ^ 20 else a

/-- The region of the platform's map that holds the dword of an address (92_eei_decisions D19), with its KEN# answer; RAM,
cacheable, where no region is given. -/
def State.regionAt (s : State) (a : Nat) : RegionKind × Bool :=
  match s.regions.find? (fun r => decide (r.first.toNat ≤ a / 4 * 4) && decide (a / 4 * 4 ≤ r.last.toNat)) with
  | some r => (r.kind, r.cacheable)
  | none => (.ram, true)

/-- `n` bytes of memory from an address up, the first the least significant (20_memory R100). -/
def memValue (m : Memory) (a : Nat) : Nat → Nat
  | 0 => 0
  | n + 1 => (memRead m a).toNat + 256 * memValue m (a + 1) n

/-- One read transfer of `n` bytes of a dword (21_bus R177, R191): RAM and ROM give what memory holds, a device or an absent
location a free value. Each is a cycle of the log, but for RAM. -/
def busRead (code : Bool) (attr : Attr) (a n : Nat) : M Nat := fun s =>
  let cycle (v : Nat) : BusEvent := .memRead code (BitVec.ofNat 32 a) n (BitVec.ofNat 32 v)
  match (s.regionAt a).1 with
  | .ram => .ok (memValue s.mem a n) s
  | .rom => .ok (memValue s.mem a n) (s.runCycle (cycle (memValue s.mem a n)) attr)
  | .device | .absent =>
    let v := (Config.busRead a n s.freeCtr).toNat % 2 ^ (8 * n)
    .ok v ({ s with freeCtr := s.freeCtr + 1 }.runCycle (cycle v) attr)

/-- A burst over an aligned 16-byte block: dwords at the offsets given, in that order (21_bus R186, R187). -/
def burst (code : Bool) (attr : Attr) (block : Nat) : List Nat → M (BitVec 128)
  | [] => pure 0
  | o :: os => do
    let v ← busRead code attr (block + o) 4
    let rest ← burst code attr block os
    pure (rest ||| (BitVec.ofNat 128 v <<< (8 * o)))

/-- The order of the dwords of a burst that begins with the dword of an address (21_bus R187). -/
def burstOrder (a : Nat) : List Nat :=
  let o := a % 16 / 4 * 4
  [o, o ^^^ 4, o ^^^ 8, o ^^^ 12]

/-! ### Physical access (20_memory R104 (4), (5)) -/

/-- What a read of one byte sees, if RAM or ROM answers there: the cached copy on a hit, else memory (21_bus R241). -/
def State.peek (s : State) (pa : Nat) : Byte :=
  let a := s.a20 pa
  match s.cache.find a with
  | some l => BitVec.ofNat 8 (blockValue l.data a 1)
  | none => memRead s.mem a

/-- Whether a block read for a miss enters the cache (21_bus R184): KEN# is sampled again at the last dword of the burst. -/
def State.keeps (s : State) (a : Nat) : Bool := (s.regionAt (a / 16 * 16 + (a % 16 / 4 * 4 ^^^ 12))).2

/-- A cacheable miss (21_bus R184, R185): the whole block is read, the dword asked for first; it enters the cache if it may. -/
def lineFill (attr : Attr) (a n : Nat) : M Nat := do
  let d ← burst false attr (a / 16 * 16) (burstOrder a)
  modify (fun s => if s.keeps a then { s with cache := s.cache.fill a d } else s)
  pure (blockValue d a n)

/-- Whether a miss becomes a line fill (21_bus R184): KEN#, CR0.CD, PCD; a locked read never does. -/
def State.fills (s : State) (attr : Attr) (locked : Bool) (a : Nat) : Bool :=
  (s.regionAt a).2 && !s.cd && !attr.pcd && !locked

/-- One data read of `n` bytes of a dword (21_bus R184, R231, R241): a hit gives the line's bytes; a locked read does not look in
the cache; a miss fills the line or reads what was asked for. -/
def physRead (locked : Bool) (attr : Attr) (pa n : Nat) : M Nat := fun s =>
  let a := s.a20 pa
  match (if locked then none else s.cache.find a) with
  | some l => .ok (blockValue l.data a n) { s with cache := s.cache.touch l }
  | none => if s.fills attr locked a then lineFill attr a n s else busRead false attr a n s

/-- The place of one byte: its physical address and the attributes in effect for it (20_memory R150). -/
abbrev BytePlace := Nat × Attr

/-- Memory with a value stored at places, the first the least significant. -/
def State.storedAt (s : State) : List BytePlace → Nat → Memory → Memory
  | [], _, m => m
  | p :: ps, v, m => s.storedAt ps (v / 256) (memWrite m (s.a20 p.1) (BitVec.ofNat 8 v))

/-- What a write transfer to bytes of one dword leaves on the bus side: RAM takes it; a device sees the cycle, ROM and
nothing drop it (92_eei_decisions D19, U24). -/
def State.busWrote (s : State) (ps : List BytePlace) (attr : Attr) (a v : Nat) : State :=
  match (s.regionAt a).1 with
  | .ram => { s with mem := s.storedAt ps v s.mem }
  | .rom | .device | .absent =>
    s.runCycle (.memWrite (BitVec.ofNat 32 a) ps.length (BitVec.ofNat 32 (v % 2 ^ (8 * ps.length)))) attr

/-- What a write transfer to bytes of one dword leaves (21_bus R242, R247): it goes through to the bus; a hit updates the
line too; with NW = 1 a hit updates the line only. That holds for the write of a locked read-modify-write as well, though
its read went past the cache: 21_bus R231 runs that write on the bus, R247 keeps write hits in the cache, and the spec does
not say which holds with NW = 1. DESIGN CHOICE (notes/assumptions/64, UNSAFE). The write buffers are simplified to a write
at once (10_state R92, notes/assumptions/9). -/
def State.wroteTransfer (s : State) (ps : List BytePlace) (v : Nat) : State :=
  match ps with
  | [] => s
  | (pa, attr) :: _ =>
    let a := s.a20 pa
    match s.cache.find a with
    | some l =>
      let t := { s with cache := s.cache.write l a ps.length v }
      if s.nw then t else t.busWrote ps attr a v
    | none => s.busWrote ps attr a v

/-! ### Operands on the bus (20_memory R105, R111; 21_bus R191, R192)

An operand moves in pieces of at most 4 bytes from its low end up (DESIGN CHOICE, notes/assumptions/11: the order of the
pieces of a longer operand); a piece that crosses a dword boundary is two transfers, the higher dword first. -/

/-- The pieces of an operand. -/
def pieces : List BytePlace → List (List BytePlace)
  | p :: q :: r :: t :: ps => [p, q, r, t] :: pieces ps
  | [] => []
  | ps => [ps]

/-- How many bytes of a piece lie in its first dword. -/
def lowPart (ps : List BytePlace) : Nat :=
  match ps with
  | [] => 0
  | p :: _ => min ps.length (4 - p.1 % 4)

/-- Reads bytes of one dword. -/
def readTransfer (locked : Bool) (ps : List BytePlace) : M Nat :=
  match ps with
  | [] => pure 0
  | (pa, attr) :: _ => physRead locked attr pa ps.length

/-- Reads a piece. -/
def readPiece (locked : Bool) (ps : List BytePlace) : M Nat := do
  let k := lowPart ps
  let hi ← readTransfer locked (ps.drop k)
  let lo ← readTransfer locked (ps.take k)
  pure (lo + hi * 2 ^ (8 * k))

/-- Reads pieces, the first the least significant. -/
def readPieces (locked : Bool) : List (List BytePlace) → M Nat
  | [] => pure 0
  | p :: ps => do
    let v ← readPiece locked p
    let rest ← readPieces locked ps
    pure (v + 2 ^ 32 * rest)

/-- Reads bytes, the first the least significant (20_memory R100). -/
def readBytes (locked : Bool) (ps : List BytePlace) : M Nat := readPieces locked (pieces ps)

/-- What the write of a piece leaves. -/
def State.wrotePiece (s : State) (ps : List BytePlace) (v : Nat) : State :=
  let k := lowPart ps
  (s.wroteTransfer (ps.drop k) (v / 2 ^ (8 * k))).wroteTransfer (ps.take k) v

/-- What the write of pieces leaves. -/
def State.wrotePieces (s : State) : List (List BytePlace) → Nat → State
  | [], _ => s
  | p :: ps, v => (s.wrotePiece p v).wrotePieces ps (v / 2 ^ 32)

/-- What a write of a value at places leaves, the first the least significant (20_memory R100). -/
def State.wrote (s : State) (ps : List BytePlace) (v : Nat) : State := s.wrotePieces (pieces ps) v

/-- Writes bytes, the least significant first. -/
def writeBytes (ps : List BytePlace) (v : Nat) : M Unit := modify (fun s => s.wrote ps v)

/-- `n` consecutive physical bytes. -/
def places (pa : Nat) (attr : Attr) (n : Nat) : List BytePlace := (List.range n).map (fun i => (pa + i, attr))

/-! ### Paging (20_memory R145 to R149) -/

/-- #PF: CR2 receives the linear address; the error code gives cause, direction and privilege (20_memory R147). -/
def pageFault {α : Type} (lin : Nat) (prot write user : Bool) : M α := fun s =>
  .error (.exn { vector := 14
                 code := some ((if prot then 1 else 0) ||| (if write then 2 else 0) ||| (if user then 4 else 0))
                 cls := .fault })
    { s with cr2 := BitVec.ofNat 32 lin }

/-- Whether the protection bits forbid an access (20_memory R147). -/
def protectionFault (s : State) (userPage writable write user : Bool) : Bool :=
  (user && !userPage) || (user && write && !writable) || (!user && write && s.wp && !writable)

/-- The set of the TLB a page belongs to (10_state R95): linear bits 14 to 12. The spec gives no index (21_bus R255); DESIGN
CHOICE (notes/assumptions/36, UNSAFE). -/
def tlbSet (page : Nat) : Nat := page % 8

/-- The valid entry for a page. -/
def Tlb.find (t : Tlb) (page : Nat) : Option TlbEntry := t.entries.find? (fun e => e.page.toNat == page)

/-- Whether a way of a set is valid. -/
def Tlb.valid (t : Tlb) (set way : Nat) : Bool :=
  t.entries.any (fun e => e.set.toNat == set && e.way.toNat == way)

/-- Marks an access to an entry. -/
def Tlb.touch (t : Tlb) (e : TlbEntry) : Tlb := { t with lru := lruTouch t.lru e.set.toNat e.way.toNat }

/-- Where an entry stands: (set, way) as one number. -/
def TlbEntry.key (e : TlbEntry) : Nat := e.set.toNat * 4 + e.way.toNat

/-- Puts an entry in its place, in rising order, over what was there. -/
def insertEntry (n : TlbEntry) : List TlbEntry → List TlbEntry
  | [] => [n]
  | e :: es =>
    if n.key < e.key then n :: e :: es
    else if n.key = e.key then n :: es
    else e :: insertEntry n es

/-- Drops the entry for a page (20_memory R124 (g)). -/
def Tlb.dropPage (t : Tlb) (page : Nat) : Tlb :=
  { t with entries := t.entries.filter (fun e => !(e.page.toNat == page)) }

/-- Empties the TLB (20_memory R124 (f)). -/
def Tlb.flush (t : Tlb) : Tlb := { t with entries := [] }

/-- A page's new entry enters the TLB, over an older entry of the page, an invalid way or the pseudo-LRU victim. -/
def Tlb.load (t : Tlb) (page frame : Nat) (userPage writable dirty pcd pwt : Bool) : Tlb :=
  let t := t.dropPage page
  let set := tlbSet page
  let way := fillWay (t.valid set) t.lru set
  { entries := insertEntry
      { set := BitVec.ofNat 3 set, way := BitVec.ofNat 2 way, page := BitVec.ofNat 20 page, frame := BitVec.ofNat 20 frame,
        user := userPage, writable := writable, dirty := dirty, pcd := pcd, pwt := pwt } t.entries
    lru := lruTouch t.lru set way }

/-- The physical address of the directory entry of a linear address (20_memory R145). -/
def State.pdeAddr (s : State) (lin : Nat) : Nat := s.cr3.toNat / 4096 * 4096 + lin / 2 ^ 22 % 1024 * 4

/-- The physical address of the table entry of a linear address, given its directory entry (20_memory R145). -/
def pteAddr (pde lin : Nat) : Nat := pde / 4096 * 4096 + lin / 4096 % 1024 * 4

/-- Four bytes as a read would see them, without the effects of a read. -/
def State.peek4 (s : State) (pa : Nat) : Nat :=
  (s.peek pa).toNat + 256 * (s.peek (pa + 1)).toNat + 65536 * (s.peek (pa + 2)).toNat + 16777216 * (s.peek (pa + 3)).toNat

/-- Whether the page tables in memory still give what a TLB entry holds (20_memory R149). -/
def State.agrees (s : State) (e : TlbEntry) : Bool :=
  let lin := e.page.toNat * 4096
  let pde := s.peek4 (s.pdeAddr lin)
  let pte := s.peek4 (pteAddr pde lin)
  pde.testBit 0 && pte.testBit 0 && pte / 4096 == e.frame.toNat && (pde.testBit 2 && pte.testBit 2) == e.user &&
    (pde.testBit 1 && pte.testBit 1) == e.writable && pte.testBit 4 == e.pcd && pte.testBit 3 == e.pwt

/-- Of a table entry that was read: if a bit of `bits` is 0 in it, reads it again locked, sets the bits and writes it back, as
this second read finds it (20_memory R148). -/
def markEntry (pa entry bits : Nat) (attr : Attr) : M Unit :=
  if entry &&& bits = bits then pure ()
  else do
    let v ← readBytes true (places pa attr 4)
    writeBytes (places pa attr 4) (v ||| bits)

/-- The two-level walk (20_memory R145, R147, R148): faults, Accessed and Dirty bits, and the TLB entry. Where the directory
entry forbids the access and the table entry is not present, the fault is that of a page not present: R147 gives no order.
DESIGN CHOICE (notes/assumptions/65, UNSAFE). Frame, rights, PCD and PWT are those of the first, unlocked reads, also where the
locked read of `markEntry` finds another entry (the first came from a stale line of the cache): R148 does not say which counts.
DESIGN CHOICE (notes/assumptions/77, UNSAFE). -/
def pageWalk (lin : Nat) (write user : Bool) : M BytePlace := do
  let s ← get
  let attr := s.cr3Attr
  let pdeA := s.pdeAddr lin
  let pde ← readBytes false (places pdeA attr 4)
  if !pde.testBit 0 then pageFault lin false write user
  let pteA := pteAddr pde lin
  let pte ← readBytes false (places pteA attr 4)
  if !pte.testBit 0 then pageFault lin false write user
  let userPage := pde.testBit 2 && pte.testBit 2
  let writable := pde.testBit 1 && pte.testBit 1
  if protectionFault s userPage writable write user then pageFault lin true write user
  markEntry pdeA pde 0x20 attr
  markEntry pteA pte (if write then 0x60 else 0x20) attr
  modify (fun s => { s with tlb := s.tlb.load (lin / 4096) (pte / 4096) userPage writable (write || pte.testBit 6) (pte.testBit 4) (pte.testBit 3) })
  pure (pte / 4096 * 4096 + lin % 4096, { pcd := pte.testBit 4, pwt := pte.testBit 3 })

/-- Whether a TLB entry is used: it must be dirty for a write (20_memory R148); while the tables in memory agree with it
there is nothing to choose, and once they differ either the old or the new translation may be used, by a free value
(U8). -/
def useEntry (e : TlbEntry) (write : Bool) : M Bool := fun s =>
  if write && !e.dirty then .ok false s
  else if s.agrees e then .ok true s
  else .ok ((Config.freeBits s.freeCtr).getLsbD 0) { s with freeCtr := s.freeCtr + 1 }

/-- The physical place of a linear address (20_memory R145): itself with paging off; else through the TLB, else by a
walk. -/
def translate (lin : Nat) (write user : Bool) : M BytePlace := do
  let s ← get
  if !s.pg then pure (lin, s.cr3Attr)
  else
    match s.tlb.find (lin / 4096) with
    | none => pageWalk lin write user
    | some e =>
      if ← useEntry e write then
        if protectionFault s e.user e.writable write user then pageFault lin true write user
        modify (fun s => { s with tlb := s.tlb.touch e })
        pure (e.frame.toNat * 4096 + lin % 4096, { pcd := e.pcd, pwt := e.pwt })
      else pageWalk lin write user

/-- How many of `n` bytes from `lin` lie in the first page. -/
def firstPart (lin n : Nat) : Nat := min n (4096 - lin % 4096)

/-- The places of `n` bytes (at most a page) from a linear address, each page translated once, the lower first, before
any byte is read or written (20_memory R104 (3)). -/
def linLocate (lin n : Nat) (write user : Bool) : M (List BytePlace) := do
  let n1 := firstPart lin n
  let (p1, c1) ← translate lin write user
  if n1 < n then
    let (p2, c2) ← translate ((lin + n1) % 2 ^ 32) write user
    pure (places p1 c1 n1 ++ places p2 c2 (n - n1))
  else pure (places p1 c1 n1)

/-- `LinRead(la, n)`: a read with supervisor rights (00_scope R12). -/
def linRead (lin n : Nat) : M Nat := do
  let ps ← linLocate (lin % 2 ^ 32) n false false
  readBytes false ps

/-- `LinWrite(la, n, v)`: a write with supervisor rights (00_scope R12). -/
def linWrite (lin n v : Nat) : M Unit := do
  let ps ← linLocate (lin % 2 ^ 32) n true false
  writeBytes ps v

end Sys2Proof.Machine
end

