-- ==== Sys2Proof/Machine/Flags.lean ====
section
/-! DEFINITION. EFLAGS as a word and the flag computations (10_state R36 to R39, 41_integer R410). Operands of an
operation of width N bits are natural numbers below 2^N. -/
namespace Sys2Proof.Machine

/-- EFLAGS as 32 bits: bit 1 reads 1, the other reserved bits read 0 (R36, R39). -/
def Flags.toBits (f : Flags) : DWord :=
  0#13 ++ BitVec.ofBool f.ac ++ BitVec.ofBool f.vm ++ BitVec.ofBool f.rf ++ 0#1 ++ BitVec.ofBool f.nt ++ f.iopl ++
    BitVec.ofBool f.ovf ++ BitVec.ofBool f.df ++ BitVec.ofBool f.intf ++ BitVec.ofBool f.tf ++ BitVec.ofBool f.sf ++
    BitVec.ofBool f.zf ++ 0#1 ++ BitVec.ofBool f.af ++ 0#1 ++ BitVec.ofBool f.pf ++ 1#1 ++ BitVec.ofBool f.cf

/-- The flags a 32-bit image gives; reserved bits are dropped (R39). -/
def Flags.ofBits (v : DWord) : Flags where
  cf := v.getLsbD 0
  pf := v.getLsbD 2
  af := v.getLsbD 4
  zf := v.getLsbD 6
  sf := v.getLsbD 7
  tf := v.getLsbD 8
  intf := v.getLsbD 9
  df := v.getLsbD 10
  ovf := v.getLsbD 11
  iopl := v.extractLsb' 12 2
  nt := v.getLsbD 14
  rf := v.getLsbD 16
  vm := v.getLsbD 17
  ac := v.getLsbD 18

/-- PF: whether the low 8 bits hold an even number of ones (R37, R38). -/
def parity (r : Nat) : Bool :=
  !(r.testBit 0 ^^ r.testBit 1 ^^ r.testBit 2 ^^ r.testBit 3 ^^ r.testBit 4 ^^ r.testBit 5 ^^ r.testBit 6 ^^ r.testBit 7)

/-- `SZP(N, r)` (R38): SF, ZF and PF from a result. -/
def szp (n r : Nat) (f : Flags) : Flags :=
  { f with sf := r.testBit (n - 1), zf := r == 0, pf := parity r }

/-- The carry as a number. -/
def carry (c : Bool) : Nat := if c then 1 else 0

/-- The result of an N-bit sum. -/
def addResult (n a b c : Nat) : Nat := (a + b + c) % 2 ^ n

/-- The result of an N-bit difference a - b - c. -/
def subResult (n a b c : Nat) : Nat := (a + 2 * 2 ^ n - b - c) % 2 ^ n

/-- `AddFlags(N, a, b, c)` (R38). -/
def addFlags (n a b c : Nat) (f : Flags) : Flags :=
  let r := addResult n a b c
  szp n r { f with
    ovf := a.testBit (n - 1) == b.testBit (n - 1) && r.testBit (n - 1) != a.testBit (n - 1)
    af := decide (a % 16 + b % 16 + c ≥ 16)
    cf := decide (a + b + c ≥ 2 ^ n) }

/-- `SubFlags(N, a, b, c)` (R38). -/
def subFlags (n a b c : Nat) (f : Flags) : Flags :=
  let r := subResult n a b c
  szp n r { f with
    ovf := a.testBit (n - 1) != b.testBit (n - 1) && r.testBit (n - 1) != a.testBit (n - 1)
    af := decide (a % 16 < b % 16 + c)
    cf := decide (a < b + c) }

/-- Logical instructions (R38, 41_integer R397): SZP, OF = CF = 0, AF undefined (U2): `u` is its free value. -/
def logicFlags (n r : Nat) (u : Bool) (f : Flags) : Flags :=
  szp n r { f with ovf := false, cf := false, af := u }

/-- The six status flags from free values: bits 0 to 5 for CF, PF, AF, ZF, SF, OF (U2). -/
def freeStatus (u : BitVec 128) (f : Flags) : Flags :=
  { f with cf := u.getLsbD 0, pf := u.getLsbD 1, af := u.getLsbD 2, zf := u.getLsbD 3, sf := u.getLsbD 4, ovf := u.getLsbD 5 }

/-- The condition codes 0 to F (41_integer R410). -/
inductive Cond where
  | o
  | no
  | b
  | ae
  | e
  | ne
  | be
  | a
  | s
  | ns
  | p
  | np
  | l
  | ge
  | le
  | g
  deriving DecidableEq, Repr

/-- `cond(cc)` (41_integer R410). -/
def Cond.holds (c : Cond) (f : Flags) : Bool :=
  match c with
  | .o => f.ovf
  | .no => !f.ovf
  | .b => f.cf
  | .ae => !f.cf
  | .e => f.zf
  | .ne => !f.zf
  | .be => f.cf || f.zf
  | .a => !f.cf && !f.zf
  | .s => f.sf
  | .ns => !f.sf
  | .p => f.pf
  | .np => !f.pf
  | .l => f.sf != f.ovf
  | .ge => f.sf == f.ovf
  | .le => f.zf || f.sf != f.ovf
  | .g => !f.zf && f.sf == f.ovf

end Sys2Proof.Machine
end

