-- ==== Sys2Proof/Machine/Ops.lean ====
section
/-! DEFINITION. The operations the instructions are built from: registers (10_state R21, R22), segmented access
(20_memory R104, R106, R135, R137), the stack (30_encoding R294, R295), descriptors (20_memory R138 to R141), I/O
(20_memory R125, R126; 30_encoding R297). -/
namespace Sys2Proof.Machine

/-! ### General registers -/

/-- The register with a number (30_encoding R281). -/
def Regs.get (r : Regs) (n : RegNum) : DWord :=
  match n.toNat with
  | 0 => r.eax
  | 1 => r.ecx
  | 2 => r.edx
  | 3 => r.ebx
  | 4 => r.esp
  | 5 => r.ebp
  | 6 => r.esi
  | _ => r.edi

/-- Replaces the register with a number. -/
def Regs.set (r : Regs) (n : RegNum) (v : DWord) : Regs :=
  match n.toNat with
  | 0 => { r with eax := v }
  | 1 => { r with ecx := v }
  | 2 => { r with edx := v }
  | 3 => { r with ebx := v }
  | 4 => { r with esp := v }
  | 5 => { r with ebp := v }
  | 6 => { r with esi := v }
  | _ => { r with edi := v }

/-- A register operand of a width (10_state R21, R22): byte registers 4 to 7 are AH, CH, DH, BH. -/
def Regs.read (r : Regs) (w : Width) (n : RegNum) : Nat :=
  match w with
  | .w32 => (r.get n).toNat
  | .w16 => (r.get n).toNat % 2 ^ 16
  | .w8 => if n.toNat < 4 then (r.get n).toNat % 2 ^ 8 else (r.get (n - 4)).toNat / 2 ^ 8 % 2 ^ 8

/-- Writes a register operand; the bits outside it keep their value (10_state R22). -/
def Regs.write (r : Regs) (w : Width) (n : RegNum) (v : Nat) : Regs :=
  match w with
  | .w32 => r.set n (BitVec.ofNat 32 v)
  | .w16 => r.set n ((r.get n).extractLsb' 16 16 ++ BitVec.ofNat 16 v)
  | .w8 =>
    if n.toNat < 4 then r.set n ((r.get n).extractLsb' 8 24 ++ BitVec.ofNat 8 v)
    else r.set (n - 4) ((r.get (n - 4)).extractLsb' 16 16 ++ BitVec.ofNat 8 v ++ (r.get (n - 4)).extractLsb' 0 8)

/-- Reads a register operand. -/
def getReg (w : Width) (n : RegNum) : M Nat := fun s => .ok (s.regs.read w n) s

/-- Writes a register operand. -/
def setReg (w : Width) (n : RegNum) (v : Nat) : M Unit :=
  fun s => .ok () { s with regs := s.regs.write w n v }

/-- Replaces the flags. -/
def modFlags (f : Flags → Flags) : M Unit := fun s => .ok () { s with flags := f s.flags }

/-- A truth value drawn freely. -/
def freshBool : M Bool := do
  let u ← fresh
  pure (u.getLsbD 0)

/-! ### Attributes in force -/

/-- The default of both size attributes: D of CS in protected mode, else 16 (30_encoding R261). -/
def State.defaultSize (s : State) : Size := if s.pe && s.segs.cs.hid.db then .s32 else .s16

/-- One size, or the other where the prefix is present (30_encoding R262). -/
def Size.override (z : Size) (has : Bool) : Size :=
  match z, has with
  | .s16, true => .s32
  | .s32, true => .s16
  | z, false => z

/-- OperandSize (30_encoding R262). -/
def State.osz (s : State) : Size := Size.override s.defaultSize s.dec.has66

/-- AddressSize (30_encoding R262). -/
def State.asz (s : State) : Size := Size.override s.defaultSize s.dec.has67

/-- StackAddrSize: B of SS in protected mode, else 16 (30_encoding R263, notes/assumptions/14). -/
def State.ssz (s : State) : Size := if s.pe && s.segs.ss.hid.db then .s32 else .s16

/-- The operand width of a word-or-dword form. -/
def getWidth : M Width := fun s => .ok s.osz.width s

/-! ### Segment registers -/

/-- A segment register by name. -/
def Segs.get (g : Segs) (n : SegName) : SegReg :=
  match n with
  | .es => g.es
  | .cs => g.cs
  | .ss => g.ss
  | .ds => g.ds
  | .fs => g.fs
  | .gs => g.gs

/-- Replaces a segment register. -/
def Segs.set (g : Segs) (n : SegName) (v : SegReg) : Segs :=
  match n with
  | .es => { g with es := v }
  | .cs => { g with cs := v }
  | .ss => { g with ss := v }
  | .ds => { g with ds := v }
  | .fs => { g with fs := v }
  | .gs => { g with gs := v }

/-- A code segment: S = 1 and type bit 3 (20_memory R139). -/
def Hidden.isCode (h : Hidden) : Bool := h.s && h.type.getLsbD 3
/-- A data segment. -/
def Hidden.isData (h : Hidden) : Bool := h.s && !h.type.getLsbD 3
/-- Writable data. -/
def Hidden.writable (h : Hidden) : Bool := h.isData && h.type.getLsbD 1
/-- Data, or readable code. -/
def Hidden.readable (h : Hidden) : Bool := h.isData || (h.isCode && h.type.getLsbD 1)
/-- Conforming code. -/
def Hidden.conforming (h : Hidden) : Bool := h.isCode && h.type.getLsbD 2
/-- Expand-down data. -/
def Hidden.expandDown (h : Hidden) : Bool := h.isData && h.type.getLsbD 2

/-- The limit check for `n` bytes at `off` (20_memory R137 (3)). -/
def Hidden.inLimit (h : Hidden) (off n : Nat) : Bool :=
  if h.expandDown then decide (h.limit.toNat < off) && decide (off + n ≤ (if h.db then 2 ^ 32 else 2 ^ 16))
  else decide (off + n ≤ h.limit.toNat + 1)

/-- The exception of an illegal address: #SS(0) through SS, else #GP(0) (20_memory R137, 60_exceptions R859). -/
def segFault {α : Type} (sr : SegName) : M α :=
  match sr with
  | .ss => raiseSS 0
  | _ => raiseGP 0

/-- Segment checks and linear address (20_memory R135, R137): null and type checks in protected mode, the limit in both
modes. -/
def segCheck (sr : SegName) (off n : Nat) (write : Bool) : M Nat := fun s =>
  let h := (s.segs.get sr).hid
  if s.pe && !h.valid then raiseGP 0 s
  else if s.pe && !(if write then h.writable else h.readable) then raiseGP 0 s
  else if h.inLimit off n then .ok ((h.base.toNat + off) % 2 ^ 32) s
  else segFault sr s

/-- The alignment check (20_memory R106). -/
def alignCheck (lin align : Nat) : M Unit := fun s =>
  if s.am && s.flags.ac && s.cpl == 3 && lin % align != 0 then raiseAC s else .ok () s

/-! ### Data breakpoints (10_state R50, 60_exceptions R846) -/

/-- The address register of breakpoint `i`. -/
def DebugRegs.addr (d : DebugRegs) (i : Nat) : DWord :=
  match i with
  | 0 => d.dr0
  | 1 => d.dr1
  | 2 => d.dr2
  | _ => d.dr3

/-- Ln or Gn (R50). -/
def DebugRegs.armed (d : DebugRegs) (i : Nat) : Bool := d.dr7.getLsbD (2 * i) || d.dr7.getLsbD (2 * i + 1)
/-- R/Wn (R50). -/
def DebugRegs.rw (d : DebugRegs) (i : Nat) : BitVec 2 := d.dr7.extractLsb' (16 + 4 * i) 2
/-- LENn (R50). -/
def DebugRegs.lenCode (d : DebugRegs) (i : Nat) : BitVec 2 := d.dr7.extractLsb' (18 + 4 * i) 2

/-- Whether breakpoint `i` covers one of `n` bytes at `lin`; the address is taken aligned to the length (R50). Both ranges go
on at linear address 0 after FFFFFFFFH (20_memory R104 (3)): one begins within the other. -/
def DebugRegs.covers (d : DebugRegs) (i lin n : Nat) : Bool :=
  let len := (d.lenCode i).toNat + 1
  let a := (d.addr i).toNat / len * len
  decide ((a + 2 ^ 32 - lin) % 2 ^ 32 < n) || decide ((lin + 2 ^ 32 - a) % 2 ^ 32 < len)

/-- Whether breakpoint `i` matches a data access: by R/W and LEN; a free value for their undefined codes (R50). -/
def breakHit (i lin n : Nat) (write : Bool) : M Bool := fun s =>
  let d := s.dbg
  if !d.armed i || d.rw i == 0 then .ok false s
  else if d.rw i == 2 || d.lenCode i == 2 then freshBool s
  else .ok ((write || d.rw i == 3) && d.covers i lin n) s

/-- Records the data breakpoints an access matches; they are reported after the instruction (60_exceptions R846). Only the
accesses of `locate`, an instruction's operands and the stack, are recorded: whether the processor's implicit reads and
writes of descriptor tables, page tables and the TSS can match a breakpoint the spec does not say; the model lets them
match none. DESIGN CHOICE (notes/assumptions/66, UNSAFE). -/
def noteAccess (lin n : Nat) (write : Bool) : M Unit := do
  let b0 ← breakHit 0 lin n write
  let b1 ← breakHit 1 lin n write
  let b2 ← breakHit 2 lin n write
  let b3 ← breakHit 3 lin n write
  modify (fun s => { s with latch := { s.latch with
    dataBreak := s.latch.dataBreak ||| (BitVec.ofBool b3 ++ BitVec.ofBool b2 ++ BitVec.ofBool b1 ++ BitVec.ofBool b0) } })

/-! ### Segmented memory access (20_memory R104, 60_exceptions R870) -/

/-- Steps (1) to (3) of an access: segment, alignment, paging; the places of the bytes, lowest first. -/
def locate (sr : SegName) (off n align : Nat) (write : Bool) : M (List BytePlace) := do
  let lin ← segCheck sr off n write
  alignCheck lin align
  let s ← get
  let ps ← linLocate lin n write (s.cpl == 3)
  noteAccess lin n write
  pure ps

/-- `MemRead(seg:off, n)` (R104). -/
def load (sr : SegName) (off n align : Nat) : M Nat := do
  let ps ← locate sr off n align false
  readBytes false ps

/-- The bytes of a store before the one that faults: each holds its old or its new value (U19). -/
def storePrefix (sr : SegName) : Nat → Nat → Nat → M Unit
  | 0, _, _ => pure ()
  | k + 1, off, v => fun s =>
    match locate sr off 1 1 true s with
    | .error _ _ => .ok () s
    | .ok ps s' =>
      (do
        if ← freshBool then writeBytes ps v
        storePrefix sr k (off + 1) (v / 256)) s'

/-- A store of `n` bytes `v`, written by `write` once the checks of all of them are made. When it straddles a limit or a page
and faults in its second part, the bytes of the first part are free between old and new (U19). -/
def storeWith (sr : SegName) (off n align v : Nat) (write : List BytePlace → M Unit) : M Unit := fun s =>
  match locate sr off n align true s with
  | .ok ps s' => write ps s'
  | .error (.exn e) s' =>
    if e.vector == 17 then .error (.exn e) s'
    else
      match storePrefix sr n off v s' with
      | .ok _ t => .error (.exn e) { t with cr2 := s'.cr2, latch := s'.latch }
      | .error x t => .error x t
  | .error x s' => .error x s'

/-- `MemWrite(seg:off, n, v)` (R104). -/
def store (sr : SegName) (off n align v : Nat) : M Unit := storeWith sr off n align v (fun ps => writeBytes ps v)

/-! ### The stack (30_encoding R294, R295) -/

/-- The number of ESP and SP. -/
abbrev regESP : RegNum := 4
/-- The number of EBP and BP. -/
abbrev regEBP : RegNum := 5
/-- The number of EAX, AX and AL. -/
abbrev regEAX : RegNum := 0
/-- The number of ECX, CX and CL. -/
abbrev regECX : RegNum := 1
/-- The number of EDX, DX and DL. -/
abbrev regEDX : RegNum := 2
/-- The number of EBX, BX and BL. -/
abbrev regEBX : RegNum := 3
/-- The number of ESI and SI. -/
abbrev regESI : RegNum := 6
/-- The number of EDI and DI. -/
abbrev regEDI : RegNum := 7

/-- eSP: SP or ESP by StackAddrSize (30_encoding R263). -/
def State.sp (s : State) : Nat := s.regs.read s.ssz.width regESP

/-- Writes eSP. -/
def setSP (v : Nat) : M Unit := fun s => .ok () { s with regs := s.regs.write s.ssz.width regESP v }

/-- eSP lowered by `n`, modulo its size. -/
def State.spMinus (s : State) (n : Nat) : Nat := (s.sp + 2 ^ s.ssz.bits - n) % 2 ^ s.ssz.bits

/-- The places of `k` successive pushes of `n` bytes below eSP, the first push first; `extra` bytes lie above them. -/
def pushPlaces (n align : Nat) : Nat → Nat → M (List (List BytePlace))
  | 0, _ => pure []
  | k + 1, extra => do
    let s ← get
    let ps ← locate .ss (s.spMinus (extra + n)) n align true
    let rest ← pushPlaces n align k (extra + n)
    pure (ps :: rest)

/-- Writes values at places. -/
def writeAll : List (List BytePlace) → List Nat → M Unit
  | ps :: pss, v :: vs => do
    writeBytes ps v
    writeAll pss vs
  | _, _ => pure ()

/-- Pushes values of `n` bytes, all checks before the first write (60_exceptions R870). -/
def pushList (n align : Nat) (vs : List Nat) : M Unit := do
  let pss ← pushPlaces n align vs.length 0
  writeAll pss vs
  let s ← get
  setSP (s.spMinus (n * vs.length))

/-- `Push(value)` of `n` bytes (30_encoding R294): eSP changes only after the write. -/
def push (n v : Nat) : M Unit := pushList n n [v]

/-- `Pop()` of `n` bytes (30_encoding R295). -/
def pop (n : Nat) : M Nat := do
  let s ← get
  let v ← load .ss s.sp n n
  setSP (s.sp + n)
  pure v

/-- A free value in bits 31..16 above a 16-bit value (U9). -/
def freeHigh (z : Size) (v : Word) : M Nat := do
  match z with
  | .s16 => pure v.toNat
  | .s32 =>
    let u ← fresh
    pure ((u.setWidth 16 ++ v : DWord)).toNat

/-! ### Descriptors (20_memory R138 to R141) -/

/-- A descriptor: its low and high dword (R139). -/
structure Desc where
  lo : DWord
  hi : DWord
  deriving DecidableEq, Repr

def Desc.base (d : Desc) : DWord := d.hi.extractLsb' 24 8 ++ d.hi.extractLsb' 0 8 ++ d.lo.extractLsb' 16 16
/-- The 20-bit limit field. -/
def Desc.rawLimit (d : Desc) : BitVec 20 := d.hi.extractLsb' 16 4 ++ d.lo.extractLsb' 0 16
def Desc.g (d : Desc) : Bool := d.hi.getLsbD 23
def Desc.db (d : Desc) : Bool := d.hi.getLsbD 22
def Desc.present (d : Desc) : Bool := d.hi.getLsbD 15
def Desc.dpl (d : Desc) : BitVec 2 := d.hi.extractLsb' 13 2
def Desc.s (d : Desc) : Bool := d.hi.getLsbD 12
def Desc.type (d : Desc) : BitVec 4 := d.hi.extractLsb' 8 4
/-- The effective limit (R137): scaled by G. -/
def Desc.limit (d : Desc) : DWord :=
  if d.g then d.rawLimit ++ 0xFFF#12 else d.rawLimit.setWidth 32

/-- The hidden part a descriptor gives (10_state R30). -/
def Desc.hidden (d : Desc) : Hidden :=
  { base := d.base, limit := d.limit, valid := true, present := d.present, dpl := d.dpl, s := d.s, type := d.type, db := d.db, g := d.g }

/-- The offset a gate holds (R139): 16 or 32 bits. -/
def Desc.gateOffset (d : Desc) (z : Size) : DWord :=
  match z with
  | .s16 => (d.lo.extractLsb' 0 16).setWidth 32
  | .s32 => d.hi.extractLsb' 16 16 ++ d.lo.extractLsb' 0 16
/-- The selector a gate holds (R139). -/
def Desc.gateSel (d : Desc) : Word := d.lo.extractLsb' 16 16

/-- A null selector: index and TI are 0 (R138). -/
def isNull (sel : Word) : Bool := sel.extractLsb' 2 14 == 0
/-- TI (R138). -/
def selTI (sel : Word) : Bool := sel.getLsbD 2
/-- RPL (R138). -/
def selRPL (sel : Word) : BitVec 2 := sel.extractLsb' 0 2
/-- The byte offset of a selector's descriptor in its table (R138). -/
def selOffset (sel : Word) : Nat := sel.toNat / 8 * 8
/-- A selector as an error code: `sel and FFFCH` (60_exceptions R843). -/
def selCode (sel : Word) : Word := sel &&& 0xFFFC

/-- The linear address of a selector's descriptor; none beyond the table's limit or with no LDT (R140, R141). -/
def State.descAddr (s : State) (sel : Word) : Option Nat :=
  if selTI sel then
    if s.ldtr.hid.valid && !isNull s.ldtr.sel && decide (selOffset sel + 7 ≤ s.ldtr.hid.limit.toNat) then
      some ((s.ldtr.hid.base.toNat + selOffset sel) % 2 ^ 32)
    else none
  else if selOffset sel + 7 ≤ s.gdtr.limit.toNat then some ((s.gdtr.base.toNat + selOffset sel) % 2 ^ 32)
  else none

/-- The descriptor that 8 bytes of memory hold (R139). -/
def Desc.ofNat (v : Nat) : Desc := { lo := BitVec.ofNat 32 v, hi := BitVec.ofNat 32 (v / 2 ^ 32) }

/-- Reads 8 bytes as a descriptor. -/
def readDesc (lin : Nat) : M Desc := do
  let v ← linRead lin 8
  pure (Desc.ofNat v)

/-- Reads 8 bytes of the IDT as a gate, locked (21_bus R232). -/
def readGate (lin : Nat) : M Desc := do
  let ps ← linLocate (lin % 2 ^ 32) 8 false false
  let v ← readBytes true ps
  pure (Desc.ofNat v)

/-- `descriptor(sel)`: its address and contents, or nothing when it lies beyond the table (R140). -/
def findDesc (sel : Word) : M (Option (Nat × Desc)) := do
  let s ← get
  match s.descAddr sel with
  | none => pure none
  | some a =>
    let d ← readDesc a
    pure (some (a, d))

/-- `descriptor(sel)`, with a fault when it lies beyond the table. -/
def needDesc (sel : Word) (bad : M (Nat × Desc)) : M (Nat × Desc) := do
  match ← findDesc sel with
  | some d => pure d
  | none => bad

/-- A descriptor still to be marked: the places of its 8 bytes, the upper half checked for a write; none when its Accessed bit
is 1 already. -/
abbrev Spot := Option (List BytePlace)

/-- Locates the descriptor at `lin` for a locked update of its upper half (21_bus R232): what can fault does so here. -/
def descSpot (lin : Nat) : M Spot := do
  let lo ← linLocate (lin % 2 ^ 32) 4 false false
  let hi ← linLocate ((lin + 4) % 2 ^ 32) 4 true false
  pure (some (lo ++ hi))

/-- Where the Accessed bit of a descriptor is still to be set (R140). -/
def markSpot (lin : Nat) (d : Desc) : M Spot := if d.type.getLsbD 0 then pure none else descSpot lin

/-- Sets bits of the type field of a located descriptor (20_memory R113, 21_bus R232): it is read again locked, in two 4-byte
reads, and the 4 bytes that hold the type are written back, as this second read finds them. Where it differs from the first
read, see `Desc.marked`. -/
def setMark (sp : Spot) (bits : BitVec 4) : M Unit :=
  match sp with
  | none => pure ()
  | some ps => do
    let v ← readBytes true ps
    writeBytes (ps.drop 4) (v / 2 ^ 32 ||| bits.toNat * 2 ^ 8)

/-- The hidden part a descriptor gives once its Accessed bit is set (R140). It is that of the first, unlocked read, on which the
checks were made, also where the locked read of `setMark` finds other bytes (the first came from a stale line of the cache):
the spec does not say which read is loaded. DESIGN CHOICE (notes/assumptions/78, UNSAFE). -/
def Desc.marked (d : Desc) : Hidden := { d.hidden with type := d.type ||| 1 }

/-- Sets the Accessed bit if it is 0, and gives the hidden part to load (R140): that of `d`, the first read (DESIGN CHOICE,
notes/assumptions/78, UNSAFE). -/
def accessed (a : Nat) (d : Desc) : M Hidden := do
  let sp ← markSpot a d
  setMark sp 1
  pure d.marked

/-- Replaces a segment register. -/
def setSeg (n : SegName) (v : SegReg) : M Unit := fun s => .ok () { s with segs := s.segs.set n v }

/-- A real-mode load: selector and base; limit and rights stay (10_state R30, 20_memory R135). -/
def SegReg.realLoad (r : SegReg) (sel : Word) : SegReg :=
  { sel := sel, hid := { r.hid with base := sel.setWidth 32 <<< 4, valid := true } }

/-- The checks of an SS load for privilege `cpl`, the hidden part it gives, and the descriptor still to be marked (R140;
60_exceptions R873 with #TS, EXT left out). `bad` raises for a wrong selector, `null` for a null one. -/
def checkSS (sel : Word) (cpl : BitVec 2) (null : M (Hidden × Spot)) (bad : M (Nat × Desc)) : M (Hidden × Spot) := do
  if isNull sel then null
  else do
    let (a, d) ← needDesc sel bad
    if selRPL sel != cpl || d.dpl != cpl || !d.hidden.writable then
      let _ ← bad
    if !d.present then raiseSS (selCode sel)
    let sp ← markSpot a d
    pure (d.marked, sp)

/-- `LoadSeg` in protected mode for DS, ES, FS, GS (R140). -/
def loadDataSeg (n : SegName) (sel : Word) : M Unit := do
  let s ← get
  if isNull sel then setSeg n { sel := sel, hid := { (s.segs.get n).hid with valid := false } }
  else do
    let (a, d) ← needDesc sel (raiseGP (selCode sel))
    if !d.hidden.readable then raiseGP (selCode sel)
    if !d.hidden.conforming && (decide (d.dpl < s.cpl) || decide (d.dpl < selRPL sel)) then raiseGP (selCode sel)
    if !d.present then raiseNP (selCode sel)
    let h ← accessed a d
    setSeg n { sel := sel, hid := h }

/-- `LoadSeg(s, sel)` (R140); CS is loaded only by far transfers. -/
def loadSeg (n : SegName) (sel : Word) : M Unit := do
  let s ← get
  if !s.pe then setSeg n ((s.segs.get n).realLoad sel)
  else
    match n with
    | .ss => do
      let (h, sp) ← checkSS sel s.cpl (raiseGP 0) (raiseGP (selCode sel))
      setMark sp 1
      setSeg .ss { sel := sel, hid := h }
    | n => loadDataSeg n sel

/-- Sets the interrupt shadow, after a load of SS and after STI (10_state R94, 60_exceptions R868). -/
def setShadow : M Unit := fun s => .ok () { s with latch := { s.latch with shadow := .held } }

/-! ### Privilege -/

/-- Privileged instructions: #GP(0) unless CPL = 0; real mode has CPL 0 (44_integer R556, 10_state R34). -/
def requireCpl0 : M Unit := fun s => if s.pe && s.cpl != 0 then raiseGP 0 s else .ok () s

/-- Protected-mode-only instructions: #UD in real mode (44_integer R595 (g)). -/
def requireProtected : M Unit := fun s => if s.pe then .ok () s else raiseUD s

/-! ### I/O space (20_memory R125, R126; 30_encoding R297; 92_eei_decisions D15) -/

/-- `I-O-Permission(port, width)` (30_encoding R297, 44_integer R556): from the map of a 32-bit TSS. -/
def ioPermission (port n : Nat) : M Bool := do
  let s ← get
  let h := s.tr.hid
  if isNull s.tr.sel || !(h.type == 9 || h.type == 11) || decide (port + n > 2 ^ 16) || decide (h.limit.toNat < 0x67) then pure false
  else do
    let ptr ← linRead (h.base.toNat + 0x66) 2
    let at_ := port / 8 + ptr
    if at_ + 1 > h.limit.toNat then pure false
    else do
      let bits ← linRead (h.base.toNat + at_) 2
      pure (bits &&& ((2 ^ n - 1) * 2 ^ (port % 8)) == 0)

/-- The check of an I/O instruction: #GP(0) when CPL > IOPL and the map refuses (20_memory R126, 44_integer R556). -/
def ioCheck (port n : Nat) : M Unit := do
  let s ← get
  if s.pe && decide (s.flags.iopl < s.cpl) then
    if !(← ioPermission port n) then raiseGP 0

/-- One read cycle of the I/O space (00_scope R4). -/
def ioReadCycle (port n : Nat) : M Nat := fun s =>
  let v := (Config.ioRead port n s.freeCtr).toNat % 2 ^ (8 * n)
  .ok v ({ s with freeCtr := s.freeCtr + 1 }.drive (.ioRead (BitVec.ofNat 16 port) n (BitVec.ofNat 32 v)))

/-- One write cycle of the I/O space (00_scope R4). -/
def ioWriteCycle (port n v : Nat) : M Unit := fun s =>
  .ok () (s.drive (.ioWrite (BitVec.ofNat 16 port) n (BitVec.ofNat 32 (v % 2 ^ (8 * n)))))

/-- Byte reads, ports modulo 2^16 (D15). -/
def ioReadWrapped : Nat → Nat → M Nat
  | _, 0 => pure 0
  | port, n + 1 => do
    let b ← ioReadCycle (port % 2 ^ 16) 1
    let rest ← ioReadWrapped (port + 1) n
    pure (b + 256 * rest)

/-- Byte writes, ports modulo 2^16 (D15). -/
def ioWriteWrapped : Nat → Nat → Nat → M Unit
  | _, 0, _ => pure ()
  | port, n + 1, v => do
    ioWriteCycle (port % 2 ^ 16) 1 v
    ioWriteWrapped (port + 1) n (v / 256)

/-- `IoRead(port, n)`: one cycle; the higher dword first where it crosses a dword boundary; bytes where it would pass
FFFFH (20_memory R125, D15). -/
def ioRead (port n : Nat) : M Nat := do
  let lowBytes := 4 - port % 4
  if port + n > 2 ^ 16 then ioReadWrapped port n
  else if n ≤ lowBytes then ioReadCycle port n
  else do
    let hi ← ioReadCycle (port + lowBytes) (n - lowBytes)
    let lo ← ioReadCycle port lowBytes
    pure (lo + hi * 2 ^ (8 * lowBytes))

/-- `IoWrite(port, n, v)`, split as `ioRead`. -/
def ioWrite (port n v : Nat) : M Unit := do
  let lowBytes := 4 - port % 4
  if port + n > 2 ^ 16 then ioWriteWrapped port n v
  else if n ≤ lowBytes then ioWriteCycle port n v
  else do
    ioWriteCycle (port + lowBytes) (n - lowBytes) (v / 2 ^ (8 * lowBytes))
    ioWriteCycle port lowBytes v

/-- A special bus cycle (21_bus R227). -/
def busEvent (e : BusEvent) : M Unit := fun s => .ok () (s.drive e)

/-! ### Control transfers (43_integer R488, R489, R500) -/

/-- A near transfer (43_integer R489): the target, cut to OperandSize, must not exceed the CS limit. -/
def nearTarget (t : Nat) : M Nat := fun s =>
  let t := t % 2 ^ s.osz.bits
  if t > s.segs.cs.hid.limit.toNat then raiseGP 0 s else .ok t s

/-- Notes that control was transferred: the prefetch queue will be emptied (10_state R93). -/
def State.transferred (s : State) : State := { s with dec := { s.dec with taken := true } }

/-- A transfer to an offset of the current code segment. -/
def setEip (t : Nat) : M Unit := fun s => .ok () { s with eip := BitVec.ofNat 32 t }.transferred

/-- `rule R489`: check and commit. -/
def nearJump (t : Nat) : M Unit := do
  let t ← nearTarget t
  setEip t

/-- A checked far target: what CS and EIP become, and the descriptor whose Accessed bit is still to be set. -/
structure FarTarget where
  cs : SegReg
  off : DWord
  mark : Spot
  deriving DecidableEq, Repr

/-- The checks of `FarCode` on a system descriptor (43_integer R488): gates and TSS are refused (D2). -/
def farSystem (sel : Word) (type : BitVec 4) : M FarTarget :=
  match type.toNat with
  | 4 | 12 => throw (.refuse .callGate)
  | 5 | 1 | 9 => throw (.refuse .taskSwitch)
  | _ => raiseGP (selCode sel)

/-- The checks of `FarCode(sel, off, kind)` (43_integer R488). -/
def farTarget (sel : Word) (off : DWord) : M FarTarget := do
  let s ← get
  if !s.pe then
    if off > s.segs.cs.hid.limit then raiseGP 0
    pure { cs := s.segs.cs.realLoad sel, off := off, mark := none }
  else do
    if isNull sel then raiseGP 0
    let (a, d) ← needDesc sel (raiseGP (selCode sel))
    if !d.s then farSystem sel d.type
    else do
      let h := d.hidden
      if !h.isCode then raiseGP (selCode sel)
      if h.conforming && decide (s.cpl < d.dpl) then raiseGP (selCode sel)
      if !h.conforming && (decide (s.cpl < selRPL sel) || d.dpl != s.cpl) then raiseGP (selCode sel)
      if !d.present then raiseNP (selCode sel)
      if off > d.limit then raiseGP 0
      let sp ← markSpot a d
      pure { cs := { sel := selCode sel ||| s.cpl.setWidth 16, hid := d.marked }, off := off, mark := sp }

/-- Loads CS and EIP from a checked target (43_integer R488). -/
def commitFar (t : FarTarget) : M Unit := do
  setMark t.mark 1
  setSeg .cs t.cs
  setEip t.off.toNat

/-- A data-segment register after a return to an outer level (43_integer R500). -/
def SegReg.afterReturn (r : SegReg) (cpl : BitVec 2) : SegReg :=
  if (r.hid.isData || (r.hid.isCode && !r.hid.conforming)) && decide (r.hid.dpl < cpl) then
    { sel := 0, hid := { r.hid with valid := false } }
  else r

/-- The checks of the code segment a far return goes to (43_integer R500). -/
def returnTarget (sel : Word) (off : DWord) : M (Nat × Desc) := do
  let s ← get
  if isNull sel then raiseGP 0
  let (a, d) ← needDesc sel (raiseGP (selCode sel))
  let h := d.hidden
  if !h.isCode || decide (selRPL sel < s.cpl) then raiseGP (selCode sel)
  if h.conforming && decide (selRPL sel < d.dpl) then raiseGP (selCode sel)
  if !h.conforming && d.dpl != selRPL sel then raiseGP (selCode sel)
  if !d.present then raiseNP (selCode sel)
  if off > d.limit then raiseGP 0
  pure (a, d)

/-- The transfer of RETF and IRET once the offset and selector (and for IRET the flags) are popped (43_integer R500):
`n` bytes an item, `imm` bytes of parameters. In real mode the offset is not held against the limit of CS: R500 has no check
there, nor have the real-mode lines of R503, which yet lists "#GP(0) target beyond limit" with no mode; the fault then comes
with the fetch of the next instruction. For IRET a DESIGN CHOICE (notes/assumptions/80, UNSAFE). -/
def farReturn (n imm : Nat) (sel : Word) (off : DWord) : M Unit := do
  let s ← get
  if !s.pe then
    setSeg .cs (s.segs.cs.realLoad sel)
    setEip off.toNat
    setSP (s.sp + imm)
  else do
    let (a, d) ← returnTarget sel off
    if selRPL sel == s.cpl then
      let h ← accessed a d
      setSeg .cs { sel := sel, hid := h }
      setEip off.toNat
      setSP (s.sp + imm)
    else
      setSP (s.sp + imm)
      let newSP ← pop n
      let newSS ← pop n
      let newSS := BitVec.ofNat 16 newSS
      let (hss, ssSpot) ← checkSS newSS (selRPL sel) (raiseGP 0) (raiseGP (selCode newSS))
      let csSpot ← markSpot a d
      setMark ssSpot 1
      setMark csSpot 1
      let rpl := selRPL sel
      modify (fun s => { s with
        cpl := rpl
        eip := off
        segs := { s.segs with
          cs := { sel := sel, hid := d.marked }
          ss := { sel := newSS, hid := hss }
          ds := s.segs.ds.afterReturn rpl
          es := s.segs.es.afterReturn rpl
          fs := s.segs.fs.afterReturn rpl
          gs := s.segs.gs.afterReturn rpl } }.transferred)
      setSP (newSP + imm)

/-! ### Taking an exception or interrupt (60_exceptions R871 to R874) -/

/-- What is delivered: a software interrupt, a hardware interrupt, or an exception. -/
inductive EventKind where
  | software
  | intr
  | nmi
  | exception
  deriving DecidableEq, Repr

/-- A delivery: the vector, its error code, and what is saved as CS, EIP and the RF of the EFLAGS image. -/
structure Event where
  kind : EventKind
  vector : Byte
  code : Option Word
  cs : Word
  ip : DWord
  rf : Bool
  deriving DecidableEq, Repr

/-- What the entry changes besides CS, EIP, EFLAGS and the stack: NMI acceptance is masked (60_exceptions R847), and a
#DB clears DR7.GD (10_state R50). -/
def Event.effects (ev : Event) (s : State) : State :=
  match ev.kind with
  | .nmi => { s with latch := { s.latch with nmiInService := true } }
  | .exception => if ev.vector == 1 then { s with dbg := { s.dbg with dr7 := setBit s.dbg.dr7 13 false } } else s
  | _ => s

/-- The EFLAGS image saved (60_exceptions R872). -/
def Event.image (ev : Event) (f : Flags) : DWord := { f with rf := ev.rf }.toBits

/-- Entry in real-address mode (60_exceptions R871). -/
def enterReal (ev : Event) : M Unit := do
  let s ← get
  let v := ev.vector.toNat
  if 4 * v + 3 > s.idtr.limit.toNat then raiseGP 0
  pushList 2 1 [(ev.image s.flags).toNat % 2 ^ 16, ev.cs.toNat, ev.ip.toNat % 2 ^ 16]
  let off ← linRead (s.idtr.base.toNat + 4 * v) 2
  let sel ← linRead (s.idtr.base.toNat + 4 * v + 2) 2
  modify (fun s => ev.effects { s with
    flags := { s.flags with intf := false, tf := false }
    segs := s.segs.set .cs (s.segs.cs.realLoad (BitVec.ofNat 16 sel))
    eip := BitVec.ofNat 32 off })

/-- The error code as it is pushed: with 32 bits the upper half is free (60_exceptions R843), but for #PF, whose other bits
are 0 (R858). -/
def pushedCode (vector : Byte) (z : Size) (c : Word) : M Nat := if vector == 14 then pure c.toNat else freeHigh z c

/-- The items pushed for CS, EIP and the error code, after EFLAGS (60_exceptions R872); the upper half of a selector pushed
as 32 bits is free (U9). -/
def entryItems (ev : Event) (f : Flags) (z : Size) : M (List Nat) := do
  let cs ← freeHigh z ev.cs
  let base := [(ev.image f).toNat % 2 ^ z.bits, cs, ev.ip.toNat % 2 ^ z.bits]
  match ev.code with
  | none => pure base
  | some c =>
    let c ← pushedCode ev.vector z c
    pure (base ++ [c])

/-- The push and the load of CS, EIP and EFLAGS that end an entry (60_exceptions R872, R873). `a`, `d` are the address
and contents of the code segment's descriptor, `g` the gate, `ssSpot` the descriptor of a new stack still to be marked.
Everything is checked before the first write (R874). -/
def finishEntry (ev : Event) (g d : Desc) (a : Nat) (z : Size) (ssSpot : Spot) (items : List Nat) : M Unit := do
  let pss ← pushPlaces z.bytes z.bytes items.length 0
  let off := g.gateOffset z
  if off > d.limit then raiseGP 0
  let csSpot ← markSpot a d
  setMark ssSpot 1
  setMark csSpot 1
  writeAll pss items
  let s ← get
  setSP (s.spMinus (z.bytes * items.length))
  let sel := selCode g.gateSel ||| s.cpl.setWidth 16
  modify (fun s => ev.effects { s with
    flags := { s.flags with tf := false, nt := false, vm := false, rf := false
                            intf := s.flags.intf && g.type.getLsbD 0 }
    segs := s.segs.set .cs { sel := sel, hid := d.marked }
    eip := off })

/-- The stack for privilege level `n` in the current TSS (60_exceptions R873): SS and ESP. -/
def innerStack (n : Nat) : M (Word × Nat) := do
  let s ← get
  let h := s.tr.hid
  let base := h.base.toNat
  if h.type.getLsbD 3 then
    if 8 * n + 9 > h.limit.toNat then raiseTS (selCode s.tr.sel)
    let esp ← linRead (base + 4 + 8 * n) 4
    let ss ← linRead (base + 8 + 8 * n) 2
    pure (BitVec.ofNat 16 ss, esp)
  else
    if 4 * n + 5 > h.limit.toNat then raiseTS (selCode s.tr.sel)
    let esp ← linRead (base + 2 + 4 * n) 2
    let ss ← linRead (base + 4 + 4 * n) 2
    pure (BitVec.ofNat 16 ss, esp)

/-- Entry to an inner privilege level (60_exceptions R873). The pushes onto the new stack are checked and made with CPL = n, for
paging too: R873 writes `CPL <- n` after them, 10_state R34 ties CPL to the DPL of SS, and neither says which privilege the
pushes have. DESIGN CHOICE (notes/assumptions/13, UNSAFE). -/
def enterInner (ev : Event) (g d : Desc) (a : Nat) (z : Size) : M Unit := do
  let s ← get
  let (newSS, newESP) ← innerStack d.dpl.toNat
  let (h, ssSpot) ← checkSS newSS d.dpl (raiseTS (selCode newSS)) (raiseTS (selCode newSS))
  modify (fun s => { s with
    cpl := d.dpl
    segs := s.segs.set .ss { sel := newSS, hid := h }
    regs := { s.regs with esp := BitVec.ofNat 32 newESP } })
  let oldSS ← freeHigh z s.segs.ss.sel
  let items ← entryItems ev s.flags z
  finishEntry ev g d a z ssSpot (oldSS :: s.regs.esp.toNat % 2 ^ z.bits :: items)

/-- Entry in protected mode: the gate, its checks, and the code segment's (60_exceptions R872). The EXT bit of the error
codes is added by `deliver`. -/
def enterProtected (ev : Event) : M Unit := do
  let s ← get
  let v := ev.vector.toNat
  let gateCode : Word := BitVec.ofNat 16 (8 * v + 2)
  if 8 * v + 7 > s.idtr.limit.toNat then raiseGP gateCode
  let g ← readGate (s.idtr.base.toNat + 8 * v)
  let t := g.type.toNat
  if g.s || !(t == 5 || t == 6 || t == 7 || t == 14 || t == 15) then raiseGP gateCode
  if ev.kind == .software && decide (g.dpl < s.cpl) then raiseGP gateCode
  if !g.present then raiseNP gateCode
  if t == 5 then throw (.refuse .taskGate)
  let sel := g.gateSel
  if isNull sel then raiseGP 0
  let (a, d) ← needDesc sel (raiseGP (selCode sel))
  if !d.hidden.isCode || decide (s.cpl < d.dpl) then raiseGP (selCode sel)
  if !d.present then raiseNP (selCode sel)
  let z : Size := if g.type.getLsbD 3 then .s32 else .s16
  if !d.hidden.conforming && decide (d.dpl < s.cpl) then enterInner ev g d a z
  else
    let items ← entryItems ev s.flags z
    finishEntry ev g d a z none items

/-- TAKING AN EXCEPTION OR INTERRUPT: the entry sequence of the mode (60_exceptions R871, R872, R873). -/
def enterHandler (ev : Event) : M Unit := do
  let s ← get
  if s.pe then enterProtected ev else enterReal ev

/-- A software interrupt (43_integer R501): trap class, EIP is already the next instruction's. -/
def softInt (v : Byte) : M Unit := do
  let s ← get
  enterHandler { kind := .software, vector := v, code := none, cs := s.segs.cs.sel, ip := s.eip, rf := s.flags.rf }
  modify State.transferred

/-- The state an abandoned instruction or delivery leaves (60_exceptions R842, R874): as before it, but for memory,
cache and TLB, what the bus has seen, CR2, the FPU and debug status set before the exception, and the free-value
counter. -/
def rollback (s s' : State) : State :=
  { s with mem := s'.mem, cache := s'.cache, tlb := s'.tlb, bus := s'.bus, cr2 := s'.cr2, fpu := s'.fpu, dbg := s'.dbg, freeCtr := s'.freeCtr }

/-- The contributory exceptions (60_exceptions R853). -/
def contributory (v : Byte) : Bool := v == 0 || v == 10 || v == 11 || v == 12 || v == 13

/-- Whether a second exception while an exception is delivered makes a double fault (60_exceptions R853). -/
def doubleFault (ev : Event) (second : Byte) : Bool :=
  ev.kind == .exception &&
    ((contributory ev.vector && contributory second) || (ev.vector == 14 && (second == 14 || contributory second)))

/-- The error code of an exception met while an event is delivered: EXT is set in it (60_exceptions R843, R874). -/
def withExt (e : Exn) : Option Word :=
  if e.vector == 10 || e.vector == 11 || e.vector == 12 || e.vector == 13 then e.code.map (· ||| 1) else e.code

/-- Shutdown (60_exceptions R869): the special cycle, then nothing until NMI or RESET. -/
def State.shutdown (s : State) : State := { s with run := .shutdown }.drive .shutdown

/-- The delivery of a double fault: vector 8, error code 0, the saved CS:EIP free (60_exceptions R853, U21). -/
def doubleEvent (s : State) : Event :=
  let u := Config.freeBits s.freeCtr
  { kind := .exception, vector := 8, code := some 0, cs := u.extractLsb' 32 16, ip := u.setWidth 32, rf := s.flags.rf }

/-- Delivers an event (60_exceptions R871 to R874): what the entry raises is delivered in its place, as a double fault
where R853 says so; a fault while a double fault is delivered shuts the processor down (R869). A delivery that never ends
leaves the processor stuck: DEDUCED (notes/assumptions/62). -/
def deliver : Nat → Event → State → Host.Outcome State Fault Refusal
  | 0, _, s => .next { s with run := .stuck }
  | fuel + 1, ev, s =>
    match enterHandler ev s with
    | .ok _ s' => .next s'
    | .error (.refuse r) _ => .refused r
    | .error (.exn e) s' =>
      let s2 := rollback s s'
      if ev.kind == .exception && ev.vector == 8 then .next s2.shutdown
      else if doubleFault ev e.vector then deliver fuel (doubleEvent s2) { s2 with freeCtr := s2.freeCtr + 1 }
      else deliver fuel { kind := .exception, vector := e.vector, code := withExt e, cs := ev.cs, ip := ev.ip, rf := true } s2
    | .error _ s' => .next (rollback s s').shutdown

/-- A bound on nested deliveries. What R853 escalates ends within five: an event, a contributory exception, a page fault, a
double fault, shutdown; beyond the bound #AC is raised again at each delivery (notes/assumptions/62). -/
def deliverFuel : Nat := 16

/-- Delivers an exception of the instruction at `s` (its EIP the first prefix): a fault, RF = 1 in the image
(60_exceptions R842, R872). -/
def deliverExn (e : Exn) (s : State) : Host.Outcome State Fault Refusal :=
  deliver deliverFuel { kind := .exception, vector := e.vector, code := e.code, cs := s.segs.cs.sel, ip := s.eip, rf := true } s

/-! ### Returning from an exception (43_integer R503, 60_exceptions R875) -/

/-- The flags IRET loads from the image `f`, with the CPL in force before the return; real mode is as CPL 0 (R503). -/
def iretFlags (z : Size) (cpl : BitVec 2) (f old : Flags) : Flags :=
  { old with
    cf := f.cf, pf := f.pf, af := f.af, zf := f.zf, sf := f.sf, tf := f.tf, df := f.df, ovf := f.ovf, nt := f.nt
    intf := if cpl ≤ old.iopl then f.intf else old.intf
    iopl := if cpl = 0 then f.iopl else old.iopl
    rf := if z = .s32 then f.rf else old.rf
    ac := if z = .s32 then f.ac else old.ac }

/-- RETURNING: IRET and IRETD (43_integer R503). In real mode an offset beyond the limit of CS is no fault of IRET, see `farReturn`
(DESIGN CHOICE, notes/assumptions/80, UNSAFE). -/
def interruptReturn : M Unit := do
  let s ← get
  let z := s.osz
  if s.pe && s.flags.nt then throw (.refuse .nestedTaskReturn)
  if !s.pe && decide (s.sp + 3 * z.bytes > 2 ^ 16) then raiseGP 0
  let off ← pop z.bytes
  let sel ← pop z.bytes
  let f ← pop z.bytes
  let f := Flags.ofBits (BitVec.ofNat 32 f)
  if s.pe && z == .s32 && f.vm && s.cpl == 0 then throw (.refuse .virtual8086)
  farReturn z.bytes 0 (BitVec.ofNat 16 sel) (BitVec.ofNat 32 off)
  let cpl := if s.pe then s.cpl else 0
  modify (fun t => { t with
    flags := iretFlags z cpl f t.flags
    latch := { t.latch with nmiInService := false } })

/-! ### Running one instruction -/

/-- The machine when an instruction begins to execute: EIP past its bytes (30_encoding R305), the shadow of the
instruction before it spent (60_exceptions R868; a repeated string instruction not yet at its end keeps it, see
`afterInstr`). -/
def State.begin (s : State) : State :=
  { s with eip := s.eip + BitVec.ofNat 32 s.dec.len, latch := { s.latch with shadow := .none, repActive := false } }

/-- The machine where an instruction is abandoned: at its first byte, its decode variables and the prefetch queue
dropped. The shadow it began in ends with it: 10_state R94 (c) and R407 hold events back until the instruction after a load of SS
or STI has completed, R94 (c) at the next instruction boundary, and neither speaks of an instruction that faults instead, so
that an event may be taken before the handler's first instruction. DESIGN CHOICE (notes/assumptions/27, UNSAFE). -/
def State.abandon (s : State) : State :=
  { s with dec := Dec.start, prefetch := Prefetch.empty, latch := { s.latch with shadow := .none, repActive := false } }

/-- The machine after an instruction: its decode variables dropped but for the notes that it completed and whether it
transferred control; RF cleared unless the instruction loads it or is a repeated one not yet at its end (10_state R37). -/
def State.complete (s : State) (keepRf : Bool) : State :=
  { s with dec := { Dec.start with done := true, taken := s.dec.taken }, flags := { s.flags with rf := s.flags.rf && (keepRf || s.latch.repActive) } }

/-- Runs the body of an instruction and delivers what it raises. `lockable`: whether LOCK is allowed on this form
(30_encoding R275); `keepRf`: IRET and POPF. Virtual-8086 mode is refused (D2). -/
def runInstr (lockable keepRf : Bool) (body : M Unit) (s : State) : Host.Outcome State Fault Refusal :=
  if s.pe && s.flags.vm then .refused .virtual8086
  else
    match (if s.dec.lock && !lockable then raiseUD else body) s.begin with
    | .ok _ s' => .next (s'.complete keepRf)
    | .error (.exn e) s' => deliverExn e (rollback s s').abandon
    | .error (.refuse r) _ => .refused r
    | .error .freeze s' => .next { (rollback s s').abandon with run := .fpWait }
    | .error .shutdown s' => .next (rollback s s').abandon.shutdown

end Sys2Proof.Machine
end

