-- ==== Sys2Proof/Machine/Operands.lean ====
section
/-! DEFINITION. Operand forms: the effective address (30_encoding R282 to R286), its segment (R271, R283), and
register-or-memory operands read, written, or read and then written (41_integer R360). -/
namespace Sys2Proof.Machine

/-! ### Signed values, immediates and displacements -/

/-- An N-bit value as a signed number. -/
def toSigned (n a : Nat) : Int := if a < 2 ^ (n - 1) then (a : Int) else (a : Int) - (2 ^ n : Nat)

/-- A number cut to N bits. -/
def ofSigned (n : Nat) (i : Int) : Nat := (i % (2 ^ n : Nat)).toNat

/-- A byte sign-extended to N bits, as a number (30_encoding R291). -/
def sextByte (w : Width) (b : Byte) : Nat := (b.signExtend 32).toNat % 2 ^ w.bits

/-- A displacement sign-extended to 32 bits (30_encoding R284). -/
def dispValue : Disp → Nat
  | .none => 0
  | .d8 v => (v.signExtend 32).toNat
  | .d16 v => v.toNat
  | .d32 v => v.toNat

/-! ### Effective address -/

/-- The base of a 16-bit form (30_encoding R282). -/
def base16 (r : Regs) (rm : RegNum) : Nat :=
  match rm.toNat with
  | 0 => r.read .w16 regEBX + r.read .w16 regESI
  | 1 => r.read .w16 regEBX + r.read .w16 regEDI
  | 2 => r.read .w16 regEBP + r.read .w16 regESI
  | 3 => r.read .w16 regEBP + r.read .w16 regEDI
  | 4 => r.read .w16 regESI
  | 5 => r.read .w16 regEDI
  | 6 => r.read .w16 regEBP
  | _ => r.read .w16 regEBX

/-- A scaled index: none when the index field is 100 (30_encoding R285). -/
def scaledIndex (r : Regs) (ss : BitVec 2) (index : RegNum) : Nat :=
  if index = 4 then 0 else r.read .w32 index * 2 ^ ss.toNat

/-- The effective address (30_encoding R286). -/
def effAddr (r : Regs) : Mem → Nat
  | .a16 rm d => (base16 r rm + dispValue d) % 2 ^ 16
  | .abs16 v => v.toNat
  | .a32 rm d => (r.read .w32 rm + dispValue d) % 2 ^ 32
  | .abs32 v => v.toNat
  | .sib ss index base d => (r.read .w32 base + scaledIndex r ss index + dispValue d) % 2 ^ 32
  | .sibAbs ss index v => (scaledIndex r ss index + v.toNat) % 2 ^ 32

/-- The default segment (30_encoding R283): SS for a BP, EBP or ESP base, else DS. -/
def defaultSeg : Mem → SegName
  | .a16 rm _ => if rm = 2 ∨ rm = 3 ∨ rm = 6 then .ss else .ds
  | .a32 rm _ => if rm = 5 then .ss else .ds
  | .sib _ _ base _ => if base = 4 ∨ base = 5 then .ss else .ds
  | .abs16 _ | .abs32 _ | .sibAbs _ _ _ => .ds

/-- The segment of a memory operand: the override, else the default (30_encoding R271, R283). -/
def State.memSeg (s : State) (m : Mem) : SegName := s.dec.seg.getD (defaultSeg m)

/-- The offset of a memory operand. -/
def State.memOff (s : State) (m : Mem) : Nat := effAddr s.regs m

/-- Reads `n` bytes at `delta` from a memory operand. -/
def loadMem (m : Mem) (delta n align : Nat) : M Nat := do
  let s ← get
  load (s.memSeg m) (s.memOff m + delta) n align

/-- Writes `n` bytes at a memory operand. -/
def storeMem (m : Mem) (n align v : Nat) : M Unit := do
  let s ← get
  store (s.memSeg m) (s.memOff m) n align v

/-- The places of `n` bytes of a memory operand, all checks made. -/
def locateMem (m : Mem) (n align : Nat) (write : Bool) : M (List BytePlace) := do
  let s ← get
  locate (s.memSeg m) (s.memOff m) n align write

/-! ### Register or memory (30_encoding R280, R291) -/

/-- Reads an r/m operand. -/
def readRm (w : Width) : Rm → M Nat
  | .reg r => getReg w r
  | .mem m => loadMem m 0 w.bytes w.bytes

/-- Writes an r/m operand that the instruction does not read. -/
def writeRm (w : Width) (rm : Rm) (v : Nat) : M Unit :=
  match rm with
  | .reg r => setReg w r v
  | .mem m => storeMem m w.bytes w.bytes v

/-- Reads at places, locked under the LOCK prefix (20_memory R113). -/
def readLocked (ps : List BytePlace) : M Nat := do
  let s ← get
  readBytes s.dec.lock ps

/-- A read-modify-write of an r/m operand: the checks of the write come first, then the read. `f` gives the new value and sets
the flags. 41_integer R360 and 60_exceptions R870 put those checks before anything is written and do not say whether a check of
the read comes before them: the page fault of such an operand, here and wherever one is located for a write and then read,
always reports a write. DESIGN CHOICE (notes/assumptions/79, UNSAFE). -/
def modifyRm (w : Width) (rm : Rm) (f : Nat → M Nat) : M Unit :=
  match rm with
  | .reg r => do
    let v ← getReg w r
    let v' ← f v
    setReg w r v'
  | .mem m => do
    let ps ← locateMem m w.bytes w.bytes true
    let v ← readLocked ps
    let v' ← f v
    writeBytes ps v'

/-- A far pointer in memory (30_encoding R291): its offset is read first, then its selector (41_integer R374; JMP and CALL, for
which R491 and R498 give no order, read theirs likewise: DEDUCED, notes/assumptions/81). The alignment of 20_memory R106, 4 or 2 by
operand size, is checked with the offset; where it holds the selector is aligned too. -/
def loadFar (m : Mem) (z : Size) : M (DWord × Word) := do
  let off ← loadMem m 0 z.bytes z.bytes
  let sel ← loadMem m z.bytes 2 2
  pure (BitVec.ofNat 32 off, BitVec.ofNat 16 sel)

end Sys2Proof.Machine
end

