-- ==== Sys2Proof/Machine/Arith.lean ====
section
/-! DEFINITION. Arithmetic and logic: 40_integer R330 to R336, 41_integer R381 to R400. -/
namespace Sys2Proof.Machine

/-! ### Two-operand instructions (41_integer R385) -/

/-- The forms whose destination is in memory, on which LOCK is allowed (30_encoding R275). -/
def AluForm.lockable : AluForm → Bool
  | .ebGb _ m | .evGv _ m | .eb80 m _ | .ev81 m _ | .eb82 m _ | .ev83 m _ => m.isMem
  | .gbEb _ _ | .gvEv _ _ | .alIb _ | .eaxIv _ => false

/-- A two-operand instruction that writes its destination: `op N DEST SRC` sets the flags and gives the result. An
immediate byte of a wider form is sign-extended (R334). -/
def aluWrite (op : Nat → Nat → Nat → M Nat) (f : AluForm) : M Unit := do
  let v ← getWidth
  match f with
  | .ebGb r m => do
    let b ← getReg .w8 r
    modifyRm .w8 m (fun a => op 8 a b)
  | .evGv r m => do
    let b ← getReg v r
    modifyRm v m (fun a => op v.bits a b)
  | .gbEb r m => do
    let b ← readRm .w8 m
    modifyRm .w8 (.reg r) (fun a => op 8 a b)
  | .gvEv r m => do
    let b ← readRm v m
    modifyRm v (.reg r) (fun a => op v.bits a b)
  | .alIb imm => modifyRm .w8 (.reg regEAX) (fun a => op 8 a imm.toNat)
  | .eaxIv imm => modifyRm v (.reg regEAX) (fun a => op v.bits a (imm.toNat % 2 ^ v.bits))
  | .eb80 m imm => modifyRm .w8 m (fun a => op 8 a imm.toNat)
  | .ev81 m imm => modifyRm v m (fun a => op v.bits a (imm.toNat % 2 ^ v.bits))
  | .eb82 m imm => modifyRm .w8 m (fun a => op 8 a imm.toNat)
  | .ev83 m imm => modifyRm v m (fun a => op v.bits a (sextByte v imm))

/-- A two-operand instruction that only reads (CMP, R387). -/
def aluRead (op : Nat → Nat → Nat → M Unit) (f : AluForm) : M Unit := do
  let v ← getWidth
  match f with
  | .ebGb r m => do
    let a ← readRm .w8 m
    let b ← getReg .w8 r
    op 8 a b
  | .evGv r m => do
    let a ← readRm v m
    let b ← getReg v r
    op v.bits a b
  | .gbEb r m => do
    let a ← getReg .w8 r
    let b ← readRm .w8 m
    op 8 a b
  | .gvEv r m => do
    let a ← getReg v r
    let b ← readRm v m
    op v.bits a b
  | .alIb imm => do
    let a ← getReg .w8 regEAX
    op 8 a imm.toNat
  | .eaxIv imm => do
    let a ← getReg v regEAX
    op v.bits a (imm.toNat % 2 ^ v.bits)
  | .eb80 m imm => do
    let a ← readRm .w8 m
    op 8 a imm.toNat
  | .ev81 m imm => do
    let a ← readRm v m
    op v.bits a (imm.toNat % 2 ^ v.bits)
  | .eb82 m imm => do
    let a ← readRm .w8 m
    op 8 a imm.toNat
  | .ev83 m imm => do
    let a ← readRm v m
    op v.bits a (sextByte v imm)

/-- CF as a number. -/
def getCarry : M Nat := fun s => .ok (carry s.flags.cf) s

/-- a + b (R335). -/
def addOp (n a b : Nat) : M Nat := do
  modFlags (addFlags n a b 0)
  pure (addResult n a b 0)

/-- a + b + CF (R334). -/
def adcOp (n a b : Nat) : M Nat := do
  let c ← getCarry
  modFlags (addFlags n a b c)
  pure (addResult n a b c)

/-- a - b (R385). -/
def subOp (n a b : Nat) : M Nat := do
  modFlags (subFlags n a b 0)
  pure (subResult n a b 0)

/-- a - b - CF (R386). -/
def sbbOp (n a b : Nat) : M Nat := do
  let c ← getCarry
  modFlags (subFlags n a b c)
  pure (subResult n a b c)

/-- The flags of a logical result, AF free; gives the result (R336, R397, R398). -/
def logicOp (n r : Nat) : M Nat := do
  let u ← freshBool
  modFlags (logicFlags n r u)
  pure r

/-- The flags of a comparison (R387). -/
def cmpOp (n a b : Nat) : M Unit := modFlags (subFlags n a b 0)

/-- ADD (R335). -/
def execAdd (f : AluForm) (s : State) : Host.Outcome State Fault Refusal :=
  runInstr (AluForm.lockable f) false (aluWrite addOp f) s

/-- ADC (R334). -/
def execAdc (f : AluForm) (s : State) : Host.Outcome State Fault Refusal :=
  runInstr (AluForm.lockable f) false (aluWrite adcOp f) s

/-- SUB (R385). -/
def execSub (f : AluForm) (s : State) : Host.Outcome State Fault Refusal :=
  runInstr (AluForm.lockable f) false (aluWrite subOp f) s

/-- SBB (R386). -/
def execSbb (f : AluForm) (s : State) : Host.Outcome State Fault Refusal :=
  runInstr (AluForm.lockable f) false (aluWrite sbbOp f) s

/-- AND (R336). -/
def execAnd (f : AluForm) (s : State) : Host.Outcome State Fault Refusal :=
  runInstr (AluForm.lockable f) false (aluWrite (fun n a b => logicOp n (a &&& b)) f) s

/-- OR (R397). -/
def execOr (f : AluForm) (s : State) : Host.Outcome State Fault Refusal :=
  runInstr (AluForm.lockable f) false (aluWrite (fun n a b => logicOp n (a ||| b)) f) s

/-- XOR (R398). -/
def execXor (f : AluForm) (s : State) : Host.Outcome State Fault Refusal :=
  runInstr (AluForm.lockable f) false (aluWrite (fun n a b => logicOp n (a ^^^ b)) f) s

/-- CMP (R387): nothing is written. -/
def execCmp (f : AluForm) (s : State) : Host.Outcome State Fault Refusal :=
  runInstr false false (aluRead cmpOp f) s

/-! ### TEST (R400) -/

/-- The operands of TEST, and the flags of their AND. -/
def testBody (f : TestForm) : M Unit := do
  let v ← getWidth
  let fin (n a b : Nat) : M Unit := do
    let _ ← logicOp n (a &&& b)
  match f with
  | .ebGb r m => do
    let a ← readRm .w8 m
    let b ← getReg .w8 r
    fin 8 a b
  | .evGv r m => do
    let a ← readRm v m
    let b ← getReg v r
    fin v.bits a b
  | .alIb imm => do
    let a ← getReg .w8 regEAX
    fin 8 a imm.toNat
  | .eaxIv imm => do
    let a ← getReg v regEAX
    fin v.bits a (imm.toNat % 2 ^ v.bits)
  | .ebIb m imm => do
    let a ← readRm .w8 m
    fin 8 a imm.toNat
  | .evIv m imm => do
    let a ← readRm v m
    fin v.bits a (imm.toNat % 2 ^ v.bits)

/-- TEST (R400): nothing is written. -/
def execTest (f : TestForm) (s : State) : Host.Outcome State Fault Refusal :=
  runInstr false false (testBody f) s

/-! ### One-operand instructions -/

/-- a + 1, CF kept (R388). -/
def incOp (n a : Nat) : M Nat := do
  modFlags (fun f => { addFlags n a 1 0 f with cf := f.cf })
  pure (addResult n a 1 0)

/-- a - 1, CF kept (R389). -/
def decOp (n a : Nat) : M Nat := do
  modFlags (fun f => { subFlags n a 1 0 f with cf := f.cf })
  pure (subResult n a 1 0)

/-- The forms with a memory destination (30_encoding R275). -/
def IncForm.lockable : IncForm → Bool
  | .eb m | .ev m => m.isMem
  | .reg _ => false

/-- The operand of INC and DEC. -/
def incBody (op : Nat → Nat → M Nat) (f : IncForm) : M Unit := do
  let v ← getWidth
  match f with
  | .reg r => modifyRm v (.reg r) (op v.bits)
  | .eb m => modifyRm .w8 m (op 8)
  | .ev m => modifyRm v m (op v.bits)

/-- INC (R388). -/
def execInc (f : IncForm) (s : State) : Host.Outcome State Fault Refusal :=
  runInstr (IncForm.lockable f) false (incBody incOp f) s

/-- DEC (R389). -/
def execDec (f : IncForm) (s : State) : Host.Outcome State Fault Refusal :=
  runInstr (IncForm.lockable f) false (incBody decOp f) s

/-- The r/m operand of a group 3 form. -/
def UnaryForm.rm : UnaryForm → Rm
  | .eb m => m
  | .ev m => m

/-- The width of a group 3 form. -/
def UnaryForm.width (f : UnaryForm) (v : Width) : Width :=
  match f with
  | .eb _ => .w8
  | .ev _ => v

/-- A read-modify-write of a group 3 operand. -/
def unaryBody (op : Nat → Nat → M Nat) (f : UnaryForm) : M Unit := do
  let v ← getWidth
  let w := UnaryForm.width f v
  modifyRm w (UnaryForm.rm f) (op w.bits)

/-- 0 - a (R390). -/
def negOp (n a : Nat) : M Nat := do
  modFlags (subFlags n 0 a 0)
  pure (subResult n 0 a 0)

/-- NEG (R390). -/
def execNeg (f : UnaryForm) (s : State) : Host.Outcome State Fault Refusal :=
  runInstr (UnaryForm.rm f).isMem false (unaryBody negOp f) s

/-- NOT (R399): no flag changes. -/
def execNot (f : UnaryForm) (s : State) : Host.Outcome State Fault Refusal :=
  runInstr (UnaryForm.rm f).isMem false (unaryBody (fun n a => pure (a ^^^ (2 ^ n - 1))) f) s

/-! ### Multiplication and division -/

/-- Writes a double-width result: AX, DX:AX or EDX:EAX (R391). -/
def setDouble (w : Width) (v : Nat) : M Unit :=
  match w with
  | .w8 => setReg .w16 regEAX v
  | w => do
    setReg w regEAX (v % 2 ^ w.bits)
    setReg w regEDX (v / 2 ^ w.bits % 2 ^ w.bits)

/-- Reads AX, DX:AX or EDX:EAX (R393). -/
def getDouble (w : Width) : M Nat :=
  match w with
  | .w8 => getReg .w16 regEAX
  | w => do
    let lo ← getReg w regEAX
    let hi ← getReg w regEDX
    pure (lo + hi * 2 ^ w.bits)

/-- CF = OF = `c`; SF, ZF, AF, PF free (R391, R392). -/
def mulFlags (c : Bool) : M Unit := do
  let u ← fresh
  modFlags (fun f => { freeStatus u f with cf := c, ovf := c })

/-- The body of MUL (R391). -/
def mulBody (f : UnaryForm) : M Unit := do
  let v ← getWidth
  let w := UnaryForm.width f v
  let b ← readRm w (UnaryForm.rm f)
  let a ← getReg w regEAX
  setDouble w (a * b)
  mulFlags (a * b / 2 ^ w.bits != 0)

/-- MUL (R391). -/
def execMul (f : UnaryForm) (s : State) : Host.Outcome State Fault Refusal :=
  runInstr false false (mulBody f) s

/-- One-operand IMUL (R392). -/
def imulWide (w : Width) (m : Rm) : M Unit := do
  let b ← readRm w m
  let a ← getReg w regEAX
  let p := toSigned w.bits a * toSigned w.bits b
  setDouble w (ofSigned (2 * w.bits) p)
  mulFlags (p != toSigned w.bits (ofSigned w.bits p))

/-- Two- and three-operand IMUL (R392): the low N bits go to the register. -/
def imulNarrow (w : Width) (r : RegNum) (a b : Nat) : M Unit := do
  let p := toSigned w.bits a * toSigned w.bits b
  setReg w r (ofSigned w.bits p)
  mulFlags (p != toSigned w.bits (ofSigned w.bits p))

/-- The body of IMUL (R392). -/
def imulBody (f : ImulForm) : M Unit := do
  let v ← getWidth
  match f with
  | .eb m => imulWide .w8 m
  | .ev m => imulWide v m
  | .gvEv r m => do
    let b ← readRm v m
    let a ← getReg v r
    imulNarrow v r a b
  | .gvEvIb r m imm => do
    let a ← readRm v m
    imulNarrow v r a (sextByte v imm)
  | .gvEvIv r m imm => do
    let a ← readRm v m
    imulNarrow v r a (imm.toNat % 2 ^ v.bits)

/-- IMUL (R392). -/
def execImul (f : ImulForm) (s : State) : Host.Outcome State Fault Refusal :=
  runInstr false false (imulBody f) s

/-- Quotient and remainder to AL and AH, AX and DX, or EAX and EDX; all six status flags free (R393). -/
def setQuotient (w : Width) (q r : Nat) : M Unit := do
  match w with
  | .w8 => setReg .w16 regEAX (r * 2 ^ 8 + q)
  | w => do
    setReg w regEAX q
    setReg w regEDX r
  let u ← fresh
  modFlags (freeStatus u)

/-- The body of DIV (R393). -/
def divBody (f : UnaryForm) : M Unit := do
  let v ← getWidth
  let w := UnaryForm.width f v
  let b ← readRm w (UnaryForm.rm f)
  let a ← getDouble w
  if b = 0 then raiseDE
  if a / b ≥ 2 ^ w.bits then raiseDE
  setQuotient w (a / b) (a % b)

/-- DIV (R393). -/
def execDiv (f : UnaryForm) (s : State) : Host.Outcome State Fault Refusal :=
  runInstr false false (divBody f) s

/-- The body of IDIV (R394): the quotient is rounded toward zero. -/
def idivBody (f : UnaryForm) : M Unit := do
  let v ← getWidth
  let w := UnaryForm.width f v
  let b ← readRm w (UnaryForm.rm f)
  let a ← getDouble w
  let sb := toSigned w.bits b
  let sa := toSigned (2 * w.bits) a
  let q := sa.tdiv sb
  if b = 0 then raiseDE
  if q > 2 ^ (w.bits - 1) - 1 ∨ q < -(2 ^ (w.bits - 1)) then raiseDE
  setQuotient w (ofSigned w.bits q) (ofSigned w.bits (sa.tmod sb))

/-- IDIV (R394). -/
def execIdiv (f : UnaryForm) (s : State) : Host.Outcome State Fault Refusal :=
  runInstr false false (idivBody f) s

/-! ### XADD and CMPXCHG (R381, R382) -/

/-- The register operand of XADD and CMPXCHG. -/
def XaddForm.reg : XaddForm → RegNum
  | .ebGb r _ => r
  | .evGv r _ => r

/-- The r/m operand of XADD and CMPXCHG. -/
def XaddForm.rm : XaddForm → Rm
  | .ebGb _ m => m
  | .evGv _ m => m

/-- The width of XADD and CMPXCHG. -/
def XaddForm.width (f : XaddForm) (v : Width) : Width :=
  match f with
  | .ebGb _ _ => .w8
  | .evGv _ _ => v

/-- The body of XADD (R381): SRC receives DEST, then DEST the sum. -/
def xaddBody (f : XaddForm) : M Unit := do
  let v ← getWidth
  let w := XaddForm.width f v
  let b ← getReg w (XaddForm.reg f)
  modifyRm w (XaddForm.rm f) (fun a => do
    let t ← addOp w.bits a b
    setReg w (XaddForm.reg f) a
    pure t)

/-- XADD (R381). -/
def execXadd (f : XaddForm) (s : State) : Host.Outcome State Fault Refusal :=
  runInstr (XaddForm.rm f).isMem false (xaddBody f) s

/-- The body of CMPXCHG (R382): a memory destination is always written. -/
def cmpxchgBody (f : XaddForm) : M Unit := do
  let v ← getWidth
  let w := XaddForm.width f v
  let b ← getReg w (XaddForm.reg f)
  let acc ← getReg w regEAX
  modifyRm w (XaddForm.rm f) (fun d => do
    cmpOp w.bits acc d
    if acc = d then pure b
    else do
      setReg w regEAX d
      pure d)

/-- CMPXCHG (R382). -/
def execCmpxchg (f : XaddForm) (s : State) : Host.Outcome State Fault Refusal :=
  runInstr (XaddForm.rm f).isMem false (cmpxchgBody f) s

/-! ### Decimal adjustment -/

/-- AL and AH. -/
def getAX : M (Nat × Nat) := do
  let ax ← getReg .w16 regEAX
  pure (ax % 2 ^ 8, ax / 2 ^ 8)

/-- AL and AH written together. -/
def setAX (al ah : Nat) : M Unit := setReg .w16 regEAX (ah * 2 ^ 8 + al)

/-- AF = CF = `c`; OF, SF, ZF, PF free (R330, R333). -/
def aaaFlags (c : Bool) : M Unit := do
  let u ← fresh
  modFlags (fun f => { freeStatus u f with af := c, cf := c })

/-- Whether AAA, AAS, DAA and DAS adjust the low digit. -/
def lowDigitBad (al : Nat) (f : Flags) : Bool := decide (al % 16 > 9) || f.af

/-- The body of AAA (R330; the else branch clears the high nibble, 90_conflicts C35). -/
def aaaBody : M Unit := do
  let (al, ah) ← getAX
  let s ← get
  if lowDigitBad al s.flags then
    setAX ((al + 6) % 16) ((ah + 1) % 2 ^ 8)
    aaaFlags true
  else
    setAX (al % 16) ah
    aaaFlags false

/-- AAA (R330). -/
def execAaa (s : State) : Host.Outcome State Fault Refusal := runInstr false false aaaBody s

/-- The body of AAS (R333). -/
def aasBody : M Unit := do
  let (al, ah) ← getAX
  let s ← get
  if lowDigitBad al s.flags then
    setAX ((al + 2 ^ 8 - 6) % 16) ((ah + 2 ^ 8 - 1) % 2 ^ 8)
    aaaFlags true
  else
    setAX (al % 16) ah
    aaaFlags false

/-- AAS (R333). -/
def execAas (s : State) : Host.Outcome State Fault Refusal := runInstr false false aasBody s

/-- SF, ZF, PF from a byte; OF, AF, CF free (R331, R332). -/
def aadFlags (al : Nat) : M Unit := do
  let u ← fresh
  modFlags (fun f => szp 8 al (freeStatus u f))

/-- The body of AAD (R331): the immediate is the base. -/
def aadBody (imm : Byte) : M Unit := do
  let (al, ah) ← getAX
  let r := (ah * imm.toNat + al) % 2 ^ 8
  setAX r 0
  aadFlags r

/-- AAD (R331). -/
def execAad (imm : Byte) (s : State) : Host.Outcome State Fault Refusal := runInstr false false (aadBody imm) s

/-- The body of AAM (R332): base 0 raises #DE. -/
def aamBody (imm : Byte) : M Unit := do
  let (al, _) ← getAX
  if imm = 0 then raiseDE
  setAX (al % imm.toNat) (al / imm.toNat)
  aadFlags (al % imm.toNat)

/-- AAM (R332). -/
def execAam (imm : Byte) (s : State) : Host.Outcome State Fault Refusal := runInstr false false (aamBody imm) s

/-- AL, the flags SF, ZF, PF it gives, AF and CF; OF free (R395, R396). -/
def setDecimal (al : Nat) (af cf : Bool) : M Unit := do
  setReg .w8 regEAX al
  let u ← freshBool
  modFlags (fun f => szp 8 al { f with af := af, cf := cf, ovf := u })

/-- The body of DAA (R395). -/
def daaBody : M Unit := do
  let al ← getReg .w8 regEAX
  let s ← get
  let low := lowDigitBad al s.flags
  let high := decide (al > 0x99) || s.flags.cf
  let a1 := if low then (al + 6) % 2 ^ 8 else al
  let a2 := if high then (a1 + 0x60) % 2 ^ 8 else a1
  setDecimal a2 low high

/-- DAA (R395). -/
def execDaa (s : State) : Host.Outcome State Fault Refusal := runInstr false false daaBody s

/-- The body of DAS (R396). -/
def dasBody : M Unit := do
  let al ← getReg .w8 regEAX
  let s ← get
  let low := lowDigitBad al s.flags
  let high := decide (al > 0x99) || s.flags.cf
  let a1 := if low then (al + 2 ^ 8 - 6) % 2 ^ 8 else al
  let a2 := if high then (a1 + 2 ^ 8 - 0x60) % 2 ^ 8 else a1
  setDecimal a2 low (high || (low && (s.flags.cf || decide (al < 6))))

/-- DAS (R396). -/
def execDas (s : State) : Host.Outcome State Fault Refusal := runInstr false false dasBody s

end Sys2Proof.Machine
end

