-- ==== Sys2Proof/Machine/Control.lean ====
section
/-! DEFINITION. Control transfer (43_integer R488 to R505), BOUND (40_integer R338), the prefixes (30_encoding R270 to
R275) and the undefined encodings (44_integer R595). -/
namespace Sys2Proof.Machine

/-! ### Jumps -/

/-- A relative displacement of OperandSize as a signed number added to EIP (43_integer R490). -/
def relTarget (s : State) (rel : DWord) : Nat :=
  match s.osz with
  | .s16 => (s.eip + (rel.setWidth 16).signExtend 32).toNat
  | .s32 => (s.eip + rel).toNat

/-- EIP plus a sign-extended byte (43_integer R490). -/
def rel8Target (s : State) (rel : Byte) : Nat := (s.eip + rel.signExtend 32).toNat

/-- The body of JMP (43_integer R490, R491). -/
def jmpBody (f : JmpForm) : M Unit := do
  let s ← get
  match f with
  | .rel rel => nearJump (relTarget s rel)
  | .rel8 rel => nearJump (rel8Target s rel)
  | .ev m => do
    let t ← readRm s.osz.width m
    nearJump t
  | .far off sel => do
    let t ← farTarget sel off
    commitFar t
  | .mp m => do
    let (off, sel) ← loadFar m s.osz
    let t ← farTarget sel off
    commitFar t

/-- JMP (43_integer R490, R491). -/
def execJmp (f : JmpForm) (s : State) : Host.Outcome State Fault Refusal := runInstr false false (jmpBody f) s

/-- The body of Jcc (43_integer R492). -/
def jccBody (c : Cond) (f : JccForm) : M Unit := do
  let s ← get
  if c.holds s.flags then
    nearJump (match f with | .short rel => rel8Target s rel | .near rel => relTarget s rel)

/-- JO (43_integer R492). -/
def execJO (f : JccForm) (s : State) : Host.Outcome State Fault Refusal := runInstr false false (jccBody .o f) s

/-- JNO (43_integer R492). -/
def execJNo (f : JccForm) (s : State) : Host.Outcome State Fault Refusal := runInstr false false (jccBody .no f) s

/-- JB/C/NAE (43_integer R492). -/
def execJB (f : JccForm) (s : State) : Host.Outcome State Fault Refusal := runInstr false false (jccBody .b f) s

/-- JAE/NB/NC (43_integer R492). -/
def execJAe (f : JccForm) (s : State) : Host.Outcome State Fault Refusal := runInstr false false (jccBody .ae f) s

/-- JE/Z (43_integer R492). -/
def execJE (f : JccForm) (s : State) : Host.Outcome State Fault Refusal := runInstr false false (jccBody .e f) s

/-- JNE/NZ (43_integer R492). -/
def execJNe (f : JccForm) (s : State) : Host.Outcome State Fault Refusal := runInstr false false (jccBody .ne f) s

/-- JBE/NA (43_integer R492). -/
def execJBe (f : JccForm) (s : State) : Host.Outcome State Fault Refusal := runInstr false false (jccBody .be f) s

/-- JA/NBE (43_integer R492). -/
def execJA (f : JccForm) (s : State) : Host.Outcome State Fault Refusal := runInstr false false (jccBody .a f) s

/-- JS (43_integer R492). -/
def execJS (f : JccForm) (s : State) : Host.Outcome State Fault Refusal := runInstr false false (jccBody .s f) s

/-- JNS (43_integer R492). -/
def execJNs (f : JccForm) (s : State) : Host.Outcome State Fault Refusal := runInstr false false (jccBody .ns f) s

/-- JP/PE (43_integer R492). -/
def execJP (f : JccForm) (s : State) : Host.Outcome State Fault Refusal := runInstr false false (jccBody .p f) s

/-- JNP/PO (43_integer R492). -/
def execJNp (f : JccForm) (s : State) : Host.Outcome State Fault Refusal := runInstr false false (jccBody .np f) s

/-- JL/NGE (43_integer R492). -/
def execJL (f : JccForm) (s : State) : Host.Outcome State Fault Refusal := runInstr false false (jccBody .l f) s

/-- JGE/NL (43_integer R492). -/
def execJGe (f : JccForm) (s : State) : Host.Outcome State Fault Refusal := runInstr false false (jccBody .ge f) s

/-- JLE/NG (43_integer R492). -/
def execJLe (f : JccForm) (s : State) : Host.Outcome State Fault Refusal := runInstr false false (jccBody .le f) s

/-- JG/NLE (43_integer R492). -/
def execJG (f : JccForm) (s : State) : Host.Outcome State Fault Refusal := runInstr false false (jccBody .g f) s

/-- The body of JCXZ and JECXZ (43_integer R493): CX or ECX by AddressSize. -/
def jcxzBody (rel : Byte) : M Unit := do
  let s ← get
  if s.regs.read s.asz.width regECX = 0 then nearJump (rel8Target s rel)

/-- JCXZ and JECXZ (43_integer R493). -/
def execJcxz (rel : Byte) (s : State) : Host.Outcome State Fault Refusal := runInstr false false (jcxzBody rel) s

/-- LOOP, LOOPE, LOOPNE (43_integer R494): `ok` is the condition on ZF. -/
def loopBody (ok : Bool → Bool) (rel : Byte) : M Unit := do
  let s ← get
  let w := s.asz.width
  let count := (s.regs.read w regECX + 2 ^ w.bits - 1) % 2 ^ w.bits
  setReg w regECX count
  if count != 0 && ok s.flags.zf then nearJump (rel8Target s rel)

/-- LOOP (43_integer R494). -/
def execLoop (rel : Byte) (s : State) : Host.Outcome State Fault Refusal := runInstr false false (loopBody (fun _ => true) rel) s

/-- LOOPE (43_integer R494). -/
def execLoope (rel : Byte) (s : State) : Host.Outcome State Fault Refusal := runInstr false false (loopBody (fun z => z) rel) s

/-- LOOPNE (43_integer R494). -/
def execLoopne (rel : Byte) (s : State) : Host.Outcome State Fault Refusal := runInstr false false (loopBody (fun z => !z) rel) s

/-! ### Calls and returns -/

/-- A near call: the target is checked before the return address is pushed (43_integer R497). -/
def nearCall (t : Nat) : M Unit := do
  let t ← nearTarget t
  let s ← get
  push s.osz.bytes (s.eip.toNat % 2 ^ s.osz.bits)
  setEip t

/-- A far call: all checks, the stack's among them, before the pushes (43_integer R498). -/
def farCall (sel : Word) (off : DWord) : M Unit := do
  let t ← farTarget sel off
  let s ← get
  let cs ← freeHigh s.osz s.segs.cs.sel
  pushList s.osz.bytes s.osz.bytes [cs, s.eip.toNat % 2 ^ s.osz.bits]
  commitFar t

/-- The body of CALL (43_integer R497, R498). -/
def callBody (f : CallForm) : M Unit := do
  let s ← get
  match f with
  | .rel rel => nearCall (relTarget s rel)
  | .ev m => do
    let t ← readRm s.osz.width m
    nearCall t
  | .far off sel => farCall sel off
  | .mp m => do
    let (off, sel) ← loadFar m s.osz
    farCall sel off

/-- CALL (43_integer R497, R498). -/
def execCall (f : CallForm) (s : State) : Host.Outcome State Fault Refusal := runInstr false false (callBody f) s

/-- The bytes of parameters a return discards. -/
def RetForm.params : RetForm → Nat
  | .iw imm => imm.toNat
  | .plain => 0

/-- The body of RET (43_integer R499). -/
def retBody (f : RetForm) : M Unit := do
  let s ← get
  let t ← pop s.osz.bytes
  nearJump t
  let s ← get
  setSP (s.sp + RetForm.params f)

/-- RET (43_integer R499). -/
def execRet (f : RetForm) (s : State) : Host.Outcome State Fault Refusal := runInstr false false (retBody f) s

/-- The body of RETF (43_integer R500). -/
def retfBody (f : RetForm) : M Unit := do
  let s ← get
  let n := s.osz.bytes
  let off ← pop n
  let sel ← pop n
  farReturn n (RetForm.params f) (BitVec.ofNat 16 sel) (BitVec.ofNat 32 off)

/-- RETF (43_integer R500). -/
def execRetf (f : RetForm) (s : State) : Host.Outcome State Fault Refusal := runInstr false false (retfBody f) s

/-! ### Software interrupts and the return from them -/

/-- INT n (43_integer R501). -/
def execIntIb (imm : Byte) (s : State) : Host.Outcome State Fault Refusal := runInstr false false (softInt imm) s

/-- INT 3 (43_integer R501). -/
def execInt3 (s : State) : Host.Outcome State Fault Refusal := runInstr false false (softInt 3) s

/-- The body of INTO (43_integer R502). -/
def intoBody : M Unit := do
  let s ← get
  if s.flags.ovf then softInt 4

/-- INTO (43_integer R502). -/
def execInto (s : State) : Host.Outcome State Fault Refusal := runInstr false false intoBody s

/-- IRET and IRETD (43_integer R503): RF is loaded, not cleared. -/
def execIret (s : State) : Host.Outcome State Fault Refusal := runInstr false true interruptReturn s

/-- Reads `n` bytes of the operand of BOUND, `k` bytes into it. In real mode what the limit refuses beyond offset FFFFH raises
interrupt 13 through every segment, SS among them: R338 says so of BOUND, where 20_memory R135 and 60_exceptions R859 and R870
have interrupt 12 for an access through SS. DEDUCED (notes/assumptions/85, UNSAFE). -/
def loadBound (m : Mem) (k n : Nat) : M Nat := fun s =>
  if !s.pe && decide (2 ^ 16 < s.memOff m + k + n) && !(s.segs.get (s.memSeg m)).hid.inLimit (s.memOff m + k) n then raiseGP 0 s
  else loadMem m k n n s

/-- The body of BOUND (40_integer R338). -/
def boundBody (r : RegNum) (m : Mem) : M Unit := do
  let s ← get
  let w := s.osz.width
  let lower ← loadBound m 0 w.bytes
  let upper ← loadBound m w.bytes w.bytes
  let x ← getReg w r
  if toSigned w.bits x < toSigned w.bits lower ∨ toSigned w.bits upper < toSigned w.bits x then raise 5 none

/-- BOUND (40_integer R338). -/
def execBound (r : RegNum) (m : Mem) (s : State) : Host.Outcome State Fault Refusal := runInstr false false (boundBody r m) s

/-! ### Stack frames -/

/-- The frame pointers ENTER copies (43_integer R504): `k` values of `n` bytes, from `bp` down, all located for reading;
`bpBits` is the width BP or EBP. -/
def framePlaces (n bpBits : Nat) : Nat → Nat → M (List (List BytePlace))
  | 0, _ => pure []
  | k + 1, bp => do
    let bp' := (bp + 2 ^ bpBits - n) % 2 ^ bpBits
    let ps ← locate .ss bp' n n false
    let rest ← framePlaces n bpBits k bp'
    pure (ps :: rest)

/-- Each copied frame pointer is read and then written at its place, in order (43_integer R504). -/
def copyFrames : List (List BytePlace) → List (List BytePlace) → M Unit
  | src :: srcs, dst :: dsts => do
    let v ← readBytes false src
    writeBytes dst v
    copyFrames srcs dsts
  | _, _ => pure ()

/-- The body of ENTER (43_integer R504). Every access is checked before the first write; the stack below the new eSP is
checked too. -/
def enterBody (size : Word) (level : Byte) : M Unit := do
  let s ← get
  let n := s.osz.bytes
  let v := s.osz.width
  let level := level.toNat % 32
  let bp := s.regs.read v regEBP
  let pushes := if level = 0 then 1 else level + 1
  let dst ← pushPlaces n n pushes 0
  let src ← framePlaces n (8 * n) (level - 1) bp
  let frame := s.spMinus n
  let newSP := (s.spMinus (n * pushes) + 2 ^ s.ssz.bits - size.toNat % 2 ^ s.ssz.bits) % 2 ^ s.ssz.bits
  let _ ← segCheck .ss newSP 1 true
  match dst with
  | [] => pure ()
  | d :: ds => do
    writeBytes d bp
    copyFrames src ds
    if level > 0 then writeBytes (ds.getLast?.getD []) (frame % 2 ^ (8 * n))
  setReg v regEBP frame
  setSP newSP

/-- ENTER (43_integer R504). -/
def execEnter (size : Word) (level : Byte) (s : State) : Host.Outcome State Fault Refusal :=
  runInstr false false (enterBody size level) s

/-- The body of LEAVE (43_integer R505). -/
def leaveBody : M Unit := do
  let s ← get
  setSP (s.regs.read s.ssz.width regEBP)
  let v ← pop s.osz.bytes
  setReg s.osz.width regEBP v

/-- LEAVE (43_integer R505). -/
def execLeave (s : State) : Host.Outcome State Fault Refusal := runInstr false false leaveBody s

/-! ### Prefixes (30_encoding R270 to R275, R305)

A prefix changes the decode variables only; the step goes on with the next item of the instruction. Of two prefixes of
one kind the last wins (U1). -/

/-- The state with a change of its decode variables. -/
def State.withPrefix (s : State) (d : Dec) : State := { s with dec := d }

/-- REP, REPE (R270). -/
def execRepPrefix (s : State) : Host.Outcome State Fault Refusal := .next (s.withPrefix { s.dec with rep := some .rep })

/-- REPNE (R270). -/
def execRepnePrefix (s : State) : Host.Outcome State Fault Refusal := .next (s.withPrefix { s.dec with rep := some .repne })

/-- LOCK (R275). -/
def execLockPrefix (s : State) : Host.Outcome State Fault Refusal := .next (s.withPrefix { s.dec with lock := true })

/-- CS: (R271). -/
def execCsPrefix (s : State) : Host.Outcome State Fault Refusal := .next (s.withPrefix { s.dec with seg := some .cs })

/-- SS: (R271). -/
def execSsPrefix (s : State) : Host.Outcome State Fault Refusal := .next (s.withPrefix { s.dec with seg := some .ss })

/-- DS: (R271). -/
def execDsPrefix (s : State) : Host.Outcome State Fault Refusal := .next (s.withPrefix { s.dec with seg := some .ds })

/-- ES: (R271). -/
def execEsPrefix (s : State) : Host.Outcome State Fault Refusal := .next (s.withPrefix { s.dec with seg := some .es })

/-- FS: (R271). -/
def execFsPrefix (s : State) : Host.Outcome State Fault Refusal := .next (s.withPrefix { s.dec with seg := some .fs })

/-- GS: (R271). -/
def execGsPrefix (s : State) : Host.Outcome State Fault Refusal := .next (s.withPrefix { s.dec with seg := some .gs })

/-- The operand-size prefix 66H (R272). -/
def execOpsizePrefix (s : State) : Host.Outcome State Fault Refusal := .next (s.withPrefix { s.dec with has66 := true })

/-- The address-size prefix 67H (R272). -/
def execAddrsizePrefix (s : State) : Host.Outcome State Fault Refusal := .next (s.withPrefix { s.dec with has67 := true })

/-! ### Undefined encodings -/

/-- An undefined encoding raises #UD (44_integer R595). -/
def execUndefined (_f : UndefForm) (s : State) : Host.Outcome State Fault Refusal := runInstr false false raiseUD s

end Sys2Proof.Machine
end

