-- ==== Sys2Proof/Machine/System.lean ====
section
/-! DEFINITION. System instructions: 44_integer R540 to R556, R590 to R592; ARPL (40_integer R337); HLT (43_integer R506).
The moves to and from control, debug and test registers are forms of MOV; their bodies are here. -/
namespace Sys2Proof.Machine

/-! ### Descriptor-table registers -/

/-- The operand of LGDT and LIDT (R540): limit, then base, cut to 24 bits for a 16-bit operand size. -/
def loadTable (m : Mem) : M TableReg := do
  requireCpl0
  let limit ← loadMem m 0 2 2
  let base ← loadMem m 2 4 4
  let s ← get
  let base := match s.osz with | .s16 => base % 2 ^ 24 | .s32 => base
  pure { base := BitVec.ofNat 32 base, limit := BitVec.ofNat 16 limit }

/-- The body of LGDT (R540). -/
def lgdtBody (m : Mem) : M Unit := do
  let t ← loadTable m
  modify (fun s => { s with gdtr := t })

/-- LGDT (R540). -/
def execLgdt (m : Mem) (s : State) : Host.Outcome State Fault Refusal := runInstr false false (lgdtBody m) s

/-- The body of LIDT (R540). -/
def lidtBody (m : Mem) : M Unit := do
  let t ← loadTable m
  modify (fun s => { s with idtr := t })

/-- LIDT (R540). -/
def execLidt (m : Mem) (s : State) : Host.Outcome State Fault Refusal := runInstr false false (lidtBody m) s

/-- The alignment of the two writes of SGDT and SIDT, a word and a dword (R541, 20_memory R106), checked after the
segment. -/
def tableAlign (sr : SegName) (off : Nat) : M Unit := fun s =>
  match segCheck sr off 6 true s with
  | .ok lin s' =>
    (do
      alignCheck lin 2
      alignCheck (lin + 2) 4) s'
  | .error _ _ => .ok () s

/-- The two writes of SGDT and SIDT, the limit's 2 bytes and then the base's 4 (R541). -/
def writeTable (limit base : Nat) (ps : List BytePlace) : M Unit := do
  writeBytes (ps.take 2) limit
  writeBytes (ps.drop 2) base

/-- Stores a table register (R541): with a 16-bit operand size the byte at offset 5 is free (U10). The checks are those of one
write of 6 bytes. -/
def storeTable (t : TableReg) (m : Mem) : M Unit := do
  let s ← get
  let base ← (match s.osz with
    | .s32 => pure t.base.toNat
    | .s16 => do
      let u ← fresh
      pure (t.base.toNat % 2 ^ 24 + (u.toNat % 2 ^ 8) * 2 ^ 24) : M Nat)
  tableAlign (s.memSeg m) (s.memOff m)
  storeWith (s.memSeg m) (s.memOff m) 6 1 (t.limit.toNat + base * 2 ^ 16) (writeTable t.limit.toNat base)

/-- The body of SGDT (R541). -/
def sgdtBody (m : Mem) : M Unit := do
  let s ← get
  storeTable s.gdtr m

/-- SGDT (R541). -/
def execSgdt (m : Mem) (s : State) : Host.Outcome State Fault Refusal := runInstr false false (sgdtBody m) s

/-- The body of SIDT (R541). -/
def sidtBody (m : Mem) : M Unit := do
  let s ← get
  storeTable s.idtr m

/-- SIDT (R541). -/
def execSidt (m : Mem) (s : State) : Host.Outcome State Fault Refusal := runInstr false false (sidtBody m) s

/-- A selector's descriptor in the GDT, as LLDT and LTR need it (R542, R544). -/
def gdtDesc (sel : Word) : M (Nat × Desc) := do
  if selTI sel then raiseGP (selCode sel)
  needDesc sel (raiseGP (selCode sel))

/-- The body of LLDT (R542). -/
def lldtBody (m : Rm) : M Unit := do
  requireProtected
  requireCpl0
  let v ← readRm .w16 m
  let sel := BitVec.ofNat 16 v
  if isNull sel then
    modify (fun s => { s with ldtr := { sel := sel, hid := { s.ldtr.hid with valid := false } } })
  else
    let (_, d) ← gdtDesc sel
    if d.s || d.type != 2 then raiseGP (selCode sel)
    if !d.present then raiseNP (selCode sel)
    modify (fun s => { s with ldtr := { sel := sel, hid := d.hidden } })

/-- LLDT (R542). -/
def execLldt (m : Rm) (s : State) : Host.Outcome State Fault Refusal := runInstr false false (lldtBody m) s

/-- The body of LTR (R544): the descriptor becomes busy in memory. -/
def ltrBody (m : Rm) : M Unit := do
  requireProtected
  requireCpl0
  let v ← readRm .w16 m
  let sel := BitVec.ofNat 16 v
  if isNull sel then raiseGP 0
  let (a, d) ← gdtDesc sel
  if d.s || !(d.type == 1 || d.type == 9) then raiseGP (selCode sel)
  if !d.present then raiseNP (selCode sel)
  let sp ← descSpot a
  setMark sp 2
  modify (fun s => { s with tr := { sel := sel, hid := { d.hidden with type := d.type ||| 2 } } })

/-- LTR (R544). -/
def execLtr (m : Rm) (s : State) : Host.Outcome State Fault Refusal := runInstr false false (ltrBody m) s

/-- Stores a 16-bit system value (R543): 16 bits in memory; in a 32-bit register the upper half is free (U9). -/
def writeSystemWord (m : Rm) (v : Word) : M Unit := do
  let s ← get
  match m with
  | .mem _ => writeRm .w16 m v.toNat
  | .reg r => do
    let x ← freeHigh s.osz v
    setReg s.osz.width r x

/-- The body of SLDT (R543). -/
def sldtBody (m : Rm) : M Unit := do
  requireProtected
  let s ← get
  writeSystemWord m s.ldtr.sel

/-- SLDT (R543). -/
def execSldt (m : Rm) (s : State) : Host.Outcome State Fault Refusal := runInstr false false (sldtBody m) s

/-- The body of STR (R545). -/
def strBody (m : Rm) : M Unit := do
  requireProtected
  let s ← get
  writeSystemWord m s.tr.sel

/-- STR (R545). -/
def execStr (m : Rm) (s : State) : Host.Outcome State Fault Refusal := runInstr false false (strBody m) s

/-! ### Control, debug and test registers -/

/-- The defined bits of CR0 (10_state R47). -/
def cr0Mask : DWord := 0xE005003F

/-- Loads CR0: reserved bits keep their value (R549, 10_state R54); the TLB is emptied when PG, PE or WP changes. -/
def setCr0 (v : DWord) : M Unit := fun s =>
  let new := (s.cr0 &&& ~~~cr0Mask) ||| (v &&& cr0Mask)
  let s' := { s with cr0 := new }
  .ok () (if s'.pg != s.pg || s'.pe != s.pe || s'.wp != s.wp then { s' with tlb := s'.tlb.flush } else s')

/-- The six status flags are undefined after a move to or from a control, debug or test register (R549, U2). -/
def freeFlags : M Unit := do
  let u ← fresh
  modFlags (freeStatus u)

/-- MOV r32,CRn (R549). -/
def movFromCr (c r : RegNum) : M Unit := do
  if !(c == 0 || c == 2 || c == 3) then raiseUD
  requireCpl0
  let s ← get
  setReg .w32 r (match c.toNat with | 0 => s.cr0 | 2 => s.cr2 | _ => s.cr3).toNat
  freeFlags

/-- MOV CRn,r32 (R549). -/
def movToCr (c r : RegNum) : M Unit := do
  if !(c == 0 || c == 2 || c == 3) then raiseUD
  requireCpl0
  let v ← getReg .w32 r
  let v := BitVec.ofNat 32 v
  match c.toNat with
  | 0 => do
    if v.getLsbD 31 && !v.getLsbD 0 then raiseGP 0
    if !v.getLsbD 30 && v.getLsbD 29 then raiseGP 0
    setCr0 v
  | 2 => modify (fun s => { s with cr2 := v })
  | _ => modify (fun s => { s with cr3 := v &&& 0xFFFFF018, tlb := s.tlb.flush })
  freeFlags

/-- A debug register by number; 4 and 5 are 6 and 7 (10_state R50). -/
def DebugRegs.get (d : DebugRegs) (n : RegNum) : DWord :=
  match n.toNat with
  | 0 => d.dr0
  | 1 => d.dr1
  | 2 => d.dr2
  | 3 => d.dr3
  | 4 | 6 => d.dr6
  | _ => d.dr7

/-- Writes a debug register; reserved bits of DR6 and DR7 keep their values (10_state R50, R54). -/
def DebugRegs.set (d : DebugRegs) (n : RegNum) (v : DWord) : DebugRegs :=
  match n.toNat with
  | 0 => { d with dr0 := v }
  | 1 => { d with dr1 := v }
  | 2 => { d with dr2 := v }
  | 3 => { d with dr3 := v }
  | 4 | 6 => { d with dr6 := (v &&& 0x0000E00F) ||| 0xFFFF0FF0 }
  | _ => { d with dr7 := v &&& 0xFFFF23FF }

/-- Privilege, then general detect: with DR7.GD = 1 the access sets DR6.BD and raises #DB as a fault (R550). -/
def debugAccess : M Unit := do
  requireCpl0
  let s ← get
  if s.dbg.dr7.getLsbD 13 then
    set { s with dbg := { s.dbg with dr6 := setBit s.dbg.dr6 13 true } }
    raise 1 none

/-- MOV r32,DRn (R550). -/
def movFromDr (c r : RegNum) : M Unit := do
  debugAccess
  let s ← get
  setReg .w32 r (s.dbg.get c).toNat
  freeFlags

/-- MOV DRn,r32 (R550). -/
def movToDr (c r : RegNum) : M Unit := do
  debugAccess
  let v ← getReg .w32 r
  modify (fun s => { s with dbg := s.dbg.set c (BitVec.ofNat 32 v) })
  freeFlags

/-- A test register by number (R551). -/
def TestRegs.get (t : TestRegs) (n : RegNum) : DWord :=
  match n.toNat with
  | 3 => t.tr3
  | 4 => t.tr4
  | 5 => t.tr5
  | 6 => t.tr6
  | _ => t.tr7

/-- Writes a test register: plain storage (R551, D5). -/
def TestRegs.set (t : TestRegs) (n : RegNum) (v : DWord) : TestRegs :=
  match n.toNat with
  | 3 => { t with tr3 := v }
  | 4 => { t with tr4 := v }
  | 5 => { t with tr5 := v }
  | 6 => { t with tr6 := v }
  | _ => { t with tr7 := v }

/-- MOV r32,TRn (R551). -/
def movFromTr (c r : RegNum) : M Unit := do
  if c.toNat < 3 then raiseUD
  requireCpl0
  let s ← get
  setReg .w32 r (s.test.get c).toNat
  freeFlags

/-- MOV TRn,r32 (R551). -/
def movToTr (c r : RegNum) : M Unit := do
  if c.toNat < 3 then raiseUD
  requireCpl0
  let v ← getReg .w32 r
  modify (fun s => { s with test := s.test.set c (BitVec.ofNat 32 v) })
  freeFlags

/-- The body of LMSW (R546): TS, EM, MP are loaded, PE can only be set. -/
def lmswBody (m : Rm) : M Unit := do
  requireCpl0
  let v ← readRm .w16 m
  let s ← get
  setCr0 ((s.cr0 &&& 0xFFFFFFF1) ||| BitVec.ofNat 32 (v % 16))

/-- LMSW (R546). -/
def execLmsw (m : Rm) (s : State) : Host.Outcome State Fault Refusal := runInstr false false (lmswBody m) s

/-- The body of SMSW (R547). -/
def smswBody (m : Rm) : M Unit := do
  let s ← get
  writeSystemWord m (s.cr0.setWidth 16)

/-- SMSW (R547). -/
def execSmsw (m : Rm) (s : State) : Host.Outcome State Fault Refusal := runInstr false false (smswBody m) s

/-- The body of CLTS (R548). -/
def cltsBody : M Unit := do
  requireCpl0
  modify (fun s => { s with cr0 := setBit s.cr0 3 false })

/-- CLTS (R548). -/
def execClts (s : State) : Host.Outcome State Fault Refusal := runInstr false false cltsBody s

/-! ### Descriptor inspection -/

/-- Whether privilege lets a descriptor be inspected (R552): conforming code, or CPL and RPL at most DPL. -/
def Desc.visible (d : Desc) (cpl : BitVec 2) (sel : Word) : Bool :=
  d.hidden.conforming || (decide (cpl ≤ d.dpl) && decide (selRPL sel ≤ d.dpl))

/-- The descriptor a non-null selector names, if it lies in its table (R552). -/
def inspect (sel : Word) : M (Option Desc) := do
  if isNull sel then pure none
  else do
    let d ← findDesc sel
    pure (d.map Prod.snd)

/-- ZF alone changes. -/
def setZF (b : Bool) : M Unit := modFlags (fun f => { f with zf := b })

/-- The system types LAR accepts (R552). -/
def larType (t : BitVec 4) : Bool := [1, 2, 3, 4, 5, 9, 11, 12].contains t.toNat

/-- The system types LSL accepts (R553). -/
def lslType (t : BitVec 4) : Bool := [1, 2, 3, 9, 11].contains t.toNat

/-- The common part of LAR and LSL: `types` the system types accepted, `value` what the register receives (R552, R553). -/
def inspectInto (types : BitVec 4 → Bool) (value : Size → Desc → Nat) (r : RegNum) (m : Rm) : M Unit := do
  requireProtected
  let v ← getWidth
  let src ← readRm v m
  let sel := BitVec.ofNat 16 src
  let d ← inspect sel
  let s ← get
  match d with
  | some d =>
    if (d.s || types d.type) && d.visible s.cpl sel then
      setReg v r (value s.osz d)
      setZF true
    else setZF false
  | none => setZF false

/-- What LAR gives (R552). -/
def larValue (z : Size) (d : Desc) : Nat :=
  match z with
  | .s32 => (d.hi &&& 0x00F0FF00).toNat
  | .s16 => (d.hi &&& 0x0000FF00).toNat

/-- What LSL gives (R553). -/
def lslValue (_ : Size) (d : Desc) : Nat := d.limit.toNat

/-- LAR (R552). -/
def execLar (r : RegNum) (m : Rm) (s : State) : Host.Outcome State Fault Refusal :=
  runInstr false false (inspectInto larType larValue r m) s

/-- LSL (R553). -/
def execLsl (r : RegNum) (m : Rm) (s : State) : Host.Outcome State Fault Refusal :=
  runInstr false false (inspectInto lslType lslValue r m) s

/-- The common part of VERR and VERW (R554). -/
def verify (ok : Desc → BitVec 2 → Word → Bool) (m : Rm) : M Unit := do
  requireProtected
  let v ← readRm .w16 m
  let sel := BitVec.ofNat 16 v
  let d ← inspect sel
  let s ← get
  setZF (match d with
    | some d => ok d s.cpl sel
    | none => false)

/-- VERR (R554). -/
def execVerr (m : Rm) (s : State) : Host.Outcome State Fault Refusal :=
  runInstr false false (verify (fun d cpl sel => d.hidden.readable && d.visible cpl sel) m) s

/-- VERW (R554). -/
def execVerw (m : Rm) (s : State) : Host.Outcome State Fault Refusal :=
  runInstr false false (verify (fun d cpl sel => d.hidden.writable && decide (cpl ≤ d.dpl) && decide (selRPL sel ≤ d.dpl)) m) s

/-- The body of ARPL (40_integer R337): the first operand is written only when its RPL is raised. A memory operand is read once
to compare; only when its RPL is raised is it checked for a write and read again to be written. R337 gives neither the number
of reads nor whether the check for a write comes first. DESIGN CHOICE (notes/assumptions/72, UNSAFE). -/
def arplBody (r : RegNum) (m : Rm) : M Unit := do
  requireProtected
  let dst ← readRm .w16 m
  let src ← getReg .w16 r
  if dst % 4 < src % 4 then
    modifyRm .w16 m (fun d => pure (d / 4 * 4 + src % 4))
    setZF true
  else setZF false

/-- ARPL (40_integer R337). -/
def execArpl (r : RegNum) (m : Rm) (s : State) : Host.Outcome State Fault Refusal :=
  runInstr false false (arplBody r m) s

/-! ### Cache and TLB control -/

/-- The body of INVD (R590). -/
def invdBody : M Unit := do
  requireCpl0
  modify (fun s => { s with cache := s.cache.flush })
  busEvent .cacheFlush

/-- INVD (R590). -/
def execInvd (s : State) : Host.Outcome State Fault Refusal := runInstr false false invdBody s

/-- The body of WBINVD (R591). -/
def wbinvdBody : M Unit := do
  requireCpl0
  modify (fun s => { s with cache := s.cache.flush })
  busEvent .writeBackFlush

/-- WBINVD (R591). -/
def execWbinvd (s : State) : Host.Outcome State Fault Refusal := runInstr false false wbinvdBody s

/-- The body of INVLPG (R592): no access, no check; the page's TLB entry is dropped. -/
def invlpgBody (m : Mem) : M Unit := do
  requireCpl0
  modify (fun s =>
    let lin := ((s.segs.get (s.memSeg m)).hid.base.toNat + s.memOff m) % 2 ^ 32
    { s with tlb := s.tlb.dropPage (lin / 4096) })

/-- INVLPG (R592). -/
def execInvlpg (m : Mem) (s : State) : Host.Outcome State Fault Refusal := runInstr false false (invlpgBody m) s

/-- The body of HLT (43_integer R506): the halt cycle, then the halt state. -/
def hltBody : M Unit := do
  requireCpl0
  busEvent .halt
  modify (fun s => { s with run := .halted })

/-- HLT (43_integer R506). -/
def execHlt (s : State) : Host.Outcome State Fault Refusal := runInstr false false hltBody s

end Sys2Proof.Machine
end

