-- ==== Sys2Proof/Machine/Data.lean ====
section
/-! DEFINITION. Data movement, stack, ports and flag control: 41_integer R361 to R380, R401 to R409; 40_integer R342. -/
namespace Sys2Proof.Machine

/-! ### MOV -/

/-- The segment register an encoding number names; 6 and 7 name none (30_encoding R281). -/
def segOfNum (n : RegNum) : Option SegName :=
  match n.toNat with
  | 0 => some .es
  | 1 => some .cs
  | 2 => some .ss
  | 3 => some .ds
  | 4 => some .fs
  | 5 => some .gs
  | _ => none

/-- The segment of a moffs or string source operand: DS unless overridden (R361, 30_encoding R271). -/
def State.dataSeg (s : State) : SegName := s.dec.seg.getD .ds

/-- MOV r/m16,Sreg (R362). -/
def movFromSeg (r : RegNum) (m : Rm) : M Unit := do
  let s ← get
  match segOfNum r with
  | none => raiseUD
  | some n => writeSystemWord m (s.segs.get n).sel

/-- MOV Sreg,r/m16 (R362): a load of SS sets the shadow. -/
def movToSeg (r : RegNum) (m : Rm) : M Unit := do
  match segOfNum r with
  | none => raiseUD
  | some .cs => raiseUD
  | some n => do
    let v ← readRm .w16 m
    loadSeg n (BitVec.ofNat 16 v)
    if n = .ss then setShadow

/-- accumulator ← moffs (R361). -/
def loadMoffs (w : Width) (off : DWord) : M Unit := do
  let s ← get
  let v ← load s.dataSeg off.toNat w.bytes w.bytes
  setReg w regEAX v

/-- moffs ← accumulator (R361). -/
def storeMoffs (w : Width) (off : DWord) : M Unit := do
  let s ← get
  let v ← getReg w regEAX
  store s.dataSeg off.toNat w.bytes w.bytes v

/-- The body of MOV (R361, R362; 44_integer R549 to R551). -/
def movBody (f : MovForm) : M Unit := do
  let v ← getWidth
  match f with
  | .ebGb r m => do
    let x ← getReg .w8 r
    writeRm .w8 m x
  | .evGv r m => do
    let x ← getReg v r
    writeRm v m x
  | .gbEb r m => do
    let x ← readRm .w8 m
    setReg .w8 r x
  | .gvEv r m => do
    let x ← readRm v m
    setReg v r x
  | .ewSw r m => movFromSeg r m
  | .swEw r m => movToSeg r m
  | .alOb off => loadMoffs .w8 off
  | .eaxOv off => loadMoffs v off
  | .obAl off => storeMoffs .w8 off
  | .ovEax off => storeMoffs v off
  | .r8Ib r imm => setReg .w8 r imm.toNat
  | .regIv r imm => setReg v r imm.toNat
  | .ebIb m imm => writeRm .w8 m imm.toNat
  | .evIv m imm => writeRm v m (imm.toNat % 2 ^ v.bits)
  | .fromCr _ c r => movFromCr c r
  | .fromDr _ c r => movFromDr c r
  | .toCr _ c r => movToCr c r
  | .toDr _ c r => movToDr c r
  | .fromTr _ c r => movFromTr c r
  | .toTr _ c r => movToTr c r

/-- MOV (R361, R362, R549, R550, R551). -/
def execMov (f : MovForm) (s : State) : Host.Outcome State Fault Refusal := runInstr false false (movBody f) s

/-- The source of MOVSX and MOVZX: its value and width (R363, R364). -/
def movxBody (extend : Nat → Nat → Nat → Nat) (f : MovxForm) : M Unit := do
  let v ← getWidth
  match f with
  | .gvEb r m => do
    let x ← readRm .w8 m
    setReg v r (extend 8 v.bits x)
  | .gvEw r m => do
    let x ← readRm .w16 m
    setReg v r (extend 16 v.bits x)

/-- Sign extension from `k` to `n` bits. -/
def sext (k n x : Nat) : Nat := ofSigned n (toSigned k x)

/-- MOVSX (R363). -/
def execMovsx (f : MovxForm) (s : State) : Host.Outcome State Fault Refusal := runInstr false false (movxBody sext f) s

/-- MOVZX (R364). -/
def execMovzx (f : MovxForm) (s : State) : Host.Outcome State Fault Refusal :=
  runInstr false false (movxBody (fun _ _ x => x) f) s

/-! ### XCHG, BSWAP -/

/-- The forms of XCHG with a memory operand, on which LOCK is allowed (30_encoding R275). -/
def XchgForm.lockable : XchgForm → Bool
  | .ebGb _ m | .evGv _ m => m.isMem
  | .eaxReg _ => false

/-- Exchanges a register and an r/m operand; with memory the read is locked (R365). -/
def exchange (w : Width) (r : RegNum) (m : Rm) : M Unit := do
  let x ← getReg w r
  match m with
  | .reg n => do
    let y ← getReg w n
    setReg w n x
    setReg w r y
  | .mem a => do
    let ps ← locateMem a w.bytes w.bytes true
    let y ← readBytes true ps
    writeBytes ps x
    setReg w r y

/-- The body of XCHG (R365). -/
def xchgBody (f : XchgForm) : M Unit := do
  let v ← getWidth
  match f with
  | .ebGb r m => exchange .w8 r m
  | .evGv r m => exchange v r m
  | .eaxReg r => exchange v regEAX (.reg r)

/-- XCHG (R365). -/
def execXchg (f : XchgForm) (s : State) : Host.Outcome State Fault Refusal :=
  runInstr (XchgForm.lockable f) false (xchgBody f) s

/-- The bytes of a dword in reverse order (40_integer R342). -/
def byteSwap (v : DWord) : DWord := v.extractLsb' 0 8 ++ v.extractLsb' 8 8 ++ v.extractLsb' 16 8 ++ v.extractLsb' 24 8

/-- The body of BSWAP (40_integer R342): with a 16-bit operand size the low half of the result is free (U4). -/
def bswapBody (r : RegNum) : M Unit := do
  let s ← get
  match s.osz with
  | .s32 => setReg .w32 r (byteSwap (s.regs.get r)).toNat
  | .s16 => do
    let u ← fresh
    setReg .w16 r (u.toNat % 2 ^ 16)

/-- BSWAP (40_integer R342). -/
def execBswap (r : RegNum) (s : State) : Host.Outcome State Fault Refusal := runInstr false false (bswapBody r) s

/-! ### The stack -/

/-- In real mode a PUSH with eSP = 1 shuts the processor down (R366). -/
def pushRoom : M Unit := fun s => if !s.pe && s.sp == 1 then .error .shutdown s else .ok () s

/-- The value PUSH pushes (R366): a selector pushed as 32 bits has a free upper half (U9). -/
def pushValue (f : PushForm) : M Nat := do
  let s ← get
  let v := s.osz.width
  match f with
  | .es => freeHigh s.osz s.segs.es.sel
  | .cs => freeHigh s.osz s.segs.cs.sel
  | .ss => freeHigh s.osz s.segs.ss.sel
  | .ds => freeHigh s.osz s.segs.ds.sel
  | .fs => freeHigh s.osz s.segs.fs.sel
  | .gs => freeHigh s.osz s.segs.gs.sel
  | .reg r => getReg v r
  | .iv imm => pure (imm.toNat % 2 ^ v.bits)
  | .ib imm => pure (sextByte v imm)
  | .ev m => readRm v m

/-- The body of PUSH (R366). -/
def pushBody (f : PushForm) : M Unit := do
  let x ← pushValue f
  pushRoom
  let s ← get
  push s.osz.bytes x

/-- PUSH (R366). -/
def execPush (f : PushForm) (s : State) : Host.Outcome State Fault Refusal := runInstr false false (pushBody f) s

/-- POP into a segment register (R367). -/
def popSeg (n : SegName) : M Unit := do
  let s ← get
  let v ← pop s.osz.bytes
  loadSeg n (BitVec.ofNat 16 v)

/-- The body of POP (R367): a destination address that uses ESP has it after the increment. -/
def popBody (f : PopForm) : M Unit := do
  let s ← get
  let v := s.osz.width
  match f with
  | .es => popSeg .es
  | .ss => do
    popSeg .ss
    setShadow
  | .ds => popSeg .ds
  | .fs => popSeg .fs
  | .gs => popSeg .gs
  | .reg r => do
    let x ← pop s.osz.bytes
    setReg v r x
  | .ev m => do
    let x ← pop s.osz.bytes
    writeRm v m x

/-- POP (R367). -/
def execPop (f : PopForm) (s : State) : Host.Outcome State Fault Refusal := runInstr false false (popBody f) s

/-- The real-mode limits of PUSHA (R368): shutdown for eSP 1, 3, 5; interrupt 13 for 7 to 15 odd. -/
def pushaRoom : M Unit := fun s =>
  if s.pe then .ok () s
  else if s.sp == 1 || s.sp == 3 || s.sp == 5 then .error .shutdown s
  else if s.sp == 7 || s.sp == 9 || s.sp == 11 || s.sp == 13 || s.sp == 15 then raiseGP 0 s
  else .ok () s

/-- The body of PUSHA and PUSHAD (R368). The value `t` pushed for eSP is SP or ESP by OperandSize, all of ESP for PUSHAD even
with a 16-bit stack: R368 writes eSP, which 10_state R21 reads by operand size and 30_encoding R263 by the stack's. DESIGN
CHOICE (notes/assumptions/67, UNSAFE). -/
def pushaBody : M Unit := do
  pushaRoom
  let s ← get
  let v := s.osz.width
  let g (n : RegNum) : Nat := s.regs.read v n
  pushList s.osz.bytes s.osz.bytes
    [g regEAX, g regECX, g regEDX, g regEBX, g regESP, g regEBP, g regESI, g regEDI]

/-- PUSHA and PUSHAD (R368). -/
def execPusha (s : State) : Host.Outcome State Fault Refusal := runInstr false false pushaBody s

/-- POPA, POPAD: real mode raises interrupt 13, not 12, beyond offset FFFFH (R369). -/
def popaRoom : M Unit := fun s =>
  if !s.pe && decide (s.sp + 8 * s.osz.bytes > 2 ^ 16) then raiseGP 0 s else .ok () s

/-- eSP moved past `n` bytes of the stack segment that are not read. -/
def skipStack (n : Nat) : M Unit := do
  let s ← get
  let _ ← segCheck .ss s.sp n false
  setSP (s.sp + n)

/-- The body of POPA and POPAD (R369): the saved stack pointer is skipped. -/
def popaBody : M Unit := do
  popaRoom
  let s ← get
  let n := s.osz.bytes
  let v := s.osz.width
  let di ← pop n
  let si ← pop n
  let bp ← pop n
  skipStack n
  let bx ← pop n
  let dx ← pop n
  let cx ← pop n
  let ax ← pop n
  setReg v regEDI di
  setReg v regESI si
  setReg v regEBP bp
  setReg v regEBX bx
  setReg v regEDX dx
  setReg v regECX cx
  setReg v regEAX ax

/-- POPA and POPAD (R369). -/
def execPopa (s : State) : Host.Outcome State Fault Refusal := runInstr false false popaBody s

/-- The body of PUSHF and PUSHFD (R377): VM and RF are pushed as 0. -/
def pushfBody : M Unit := do
  let s ← get
  push s.osz.bytes ((s.flags.toBits &&& 0x00FCFFFF).toNat % 2 ^ s.osz.bits)

/-- PUSHF and PUSHFD (R377). -/
def execPushf (s : State) : Host.Outcome State Fault Refusal := runInstr false false pushfBody s

/-- The flags POPF loads from the image `f` (R378); real mode is as CPL 0. -/
def popfFlags (z : Size) (cpl : BitVec 2) (f old : Flags) : Flags :=
  { old with
    cf := f.cf, pf := f.pf, af := f.af, zf := f.zf, sf := f.sf, tf := f.tf, df := f.df, ovf := f.ovf, nt := f.nt
    intf := if cpl ≤ old.iopl then f.intf else old.intf
    iopl := if cpl = 0 then f.iopl else old.iopl
    ac := if z = .s32 then f.ac else old.ac }

/-- The body of POPF and POPFD (R378). -/
def popfBody : M Unit := do
  let s ← get
  let v ← pop s.osz.bytes
  modFlags (popfFlags s.osz (if s.pe then s.cpl else 0) (Flags.ofBits (BitVec.ofNat 32 v)))

/-- POPF and POPFD (R378): RF is not touched. -/
def execPopf (s : State) : Host.Outcome State Fault Refusal := runInstr false true popfBody s

/-! ### Addresses, tables, conversions -/

/-- The body of LEA (R370). -/
def leaBody (r : RegNum) (m : Mem) : M Unit := do
  let s ← get
  setReg s.osz.width r (s.memOff m)

/-- LEA (R370). -/
def execLea (r : RegNum) (m : Mem) (s : State) : Host.Outcome State Fault Refusal := runInstr false false (leaBody r m) s

/-- The body of XLAT (R371). -/
def xlatBody : M Unit := do
  let s ← get
  let off := (s.regs.read s.asz.width regEBX + s.regs.read .w8 regEAX) % 2 ^ s.asz.bits
  let v ← load s.dataSeg off 1 1
  setReg .w8 regEAX v

/-- XLAT (R371). -/
def execXlat (s : State) : Host.Outcome State Fault Refusal := runInstr false false xlatBody s

/-- The body of CBW and CWDE (R372). -/
def cbwBody : M Unit := do
  let s ← get
  match s.osz with
  | .s16 => setReg .w16 regEAX (sext 8 16 (s.regs.read .w8 regEAX))
  | .s32 => setReg .w32 regEAX (sext 16 32 (s.regs.read .w16 regEAX))

/-- CBW and CWDE (R372). -/
def execCbw (s : State) : Host.Outcome State Fault Refusal := runInstr false false cbwBody s

/-- The body of CWD and CDQ (R373). -/
def cwdBody : M Unit := do
  let s ← get
  let v := s.osz.width
  setReg v regEDX (if (s.regs.read v regEAX).testBit (v.bits - 1) then 2 ^ v.bits - 1 else 0)

/-- CWD and CDQ (R373). -/
def execCwd (s : State) : Host.Outcome State Fault Refusal := runInstr false false cwdBody s

/-- A far pointer into a segment register and a general register (R374): both change or neither. -/
def loadPointer (n : SegName) (r : RegNum) (m : Mem) : M Unit := do
  let s ← get
  let (off, sel) ← loadFar m s.osz
  loadSeg n sel
  setReg s.osz.width r off.toNat

/-- LES (R374). -/
def execLes (r : RegNum) (m : Mem) (s : State) : Host.Outcome State Fault Refusal :=
  runInstr false false (loadPointer .es r m) s

/-- LDS (R374). -/
def execLds (r : RegNum) (m : Mem) (s : State) : Host.Outcome State Fault Refusal :=
  runInstr false false (loadPointer .ds r m) s

/-- LSS (R374): no shadow is needed. -/
def execLss (r : RegNum) (m : Mem) (s : State) : Host.Outcome State Fault Refusal :=
  runInstr false false (loadPointer .ss r m) s

/-- LFS (R374). -/
def execLfs (r : RegNum) (m : Mem) (s : State) : Host.Outcome State Fault Refusal :=
  runInstr false false (loadPointer .fs r m) s

/-- LGS (R374). -/
def execLgs (r : RegNum) (m : Mem) (s : State) : Host.Outcome State Fault Refusal :=
  runInstr false false (loadPointer .gs r m) s

/-! ### Flags -/

/-- LAHF (R375): AH receives the low byte of EFLAGS. -/
def execLahf (s : State) : Host.Outcome State Fault Refusal :=
  runInstr false false (setReg .w8 4 (s.flags.toBits.toNat % 2 ^ 8)) s

/-- SAHF (R376). -/
def execSahf (s : State) : Host.Outcome State Fault Refusal :=
  let f := Flags.ofBits (BitVec.ofNat 32 (s.regs.read .w8 4))
  runInstr false false (modFlags (fun old => { old with sf := f.sf, zf := f.zf, af := f.af, pf := f.pf, cf := f.cf })) s

/-- CLC (R401). -/
def execClc (s : State) : Host.Outcome State Fault Refusal := runInstr false false (modFlags (fun f => { f with cf := false })) s

/-- STC (R402). -/
def execStc (s : State) : Host.Outcome State Fault Refusal := runInstr false false (modFlags (fun f => { f with cf := true })) s

/-- CMC (R403). -/
def execCmc (s : State) : Host.Outcome State Fault Refusal := runInstr false false (modFlags (fun f => { f with cf := !f.cf })) s

/-- CLD (R404). -/
def execCld (s : State) : Host.Outcome State Fault Refusal := runInstr false false (modFlags (fun f => { f with df := false })) s

/-- STD (R405). -/
def execStd (s : State) : Host.Outcome State Fault Refusal := runInstr false false (modFlags (fun f => { f with df := true })) s

/-- CLI and STI need CPL ≤ IOPL in protected mode (R406). -/
def requireIopl : M Unit := fun s => if s.pe && decide (s.flags.iopl < s.cpl) then raiseGP 0 s else .ok () s

/-- The body of CLI (R406). -/
def cliBody : M Unit := do
  requireIopl
  modFlags (fun f => { f with intf := false })

/-- CLI (R406). -/
def execCli (s : State) : Host.Outcome State Fault Refusal := runInstr false false cliBody s

/-- The body of STI (R407): the shadow when IF was 0. -/
def stiBody : M Unit := do
  requireIopl
  let s ← get
  modFlags (fun f => { f with intf := true })
  if !s.flags.intf then setShadow

/-- STI (R407). -/
def execSti (s : State) : Host.Outcome State Fault Refusal := runInstr false false stiBody s

/-- NOP (R408). -/
def execNop (s : State) : Host.Outcome State Fault Refusal := runInstr false false (pure ()) s

/-- The body of SETcc (R409). -/
def setccBody (c : Cond) (m : Rm) : M Unit := do
  let s ← get
  writeRm .w8 m (if c.holds s.flags then 1 else 0)

/-- SETO (R409); the reg field is ignored. -/
def execSetO (_r : RegNum) (m : Rm) (s : State) : Host.Outcome State Fault Refusal := runInstr false false (setccBody .o m) s

/-- SETNO (R409); the reg field is ignored. -/
def execSetNo (_r : RegNum) (m : Rm) (s : State) : Host.Outcome State Fault Refusal := runInstr false false (setccBody .no m) s

/-- SETB/C/NAE (R409); the reg field is ignored. -/
def execSetB (_r : RegNum) (m : Rm) (s : State) : Host.Outcome State Fault Refusal := runInstr false false (setccBody .b m) s

/-- SETAE/NB/NC (R409); the reg field is ignored. -/
def execSetAe (_r : RegNum) (m : Rm) (s : State) : Host.Outcome State Fault Refusal := runInstr false false (setccBody .ae m) s

/-- SETE/Z (R409); the reg field is ignored. -/
def execSetE (_r : RegNum) (m : Rm) (s : State) : Host.Outcome State Fault Refusal := runInstr false false (setccBody .e m) s

/-- SETNE/NZ (R409); the reg field is ignored. -/
def execSetNe (_r : RegNum) (m : Rm) (s : State) : Host.Outcome State Fault Refusal := runInstr false false (setccBody .ne m) s

/-- SETBE/NA (R409); the reg field is ignored. -/
def execSetBe (_r : RegNum) (m : Rm) (s : State) : Host.Outcome State Fault Refusal := runInstr false false (setccBody .be m) s

/-- SETA/NBE (R409); the reg field is ignored. -/
def execSetA (_r : RegNum) (m : Rm) (s : State) : Host.Outcome State Fault Refusal := runInstr false false (setccBody .a m) s

/-- SETS (R409); the reg field is ignored. -/
def execSetS (_r : RegNum) (m : Rm) (s : State) : Host.Outcome State Fault Refusal := runInstr false false (setccBody .s m) s

/-- SETNS (R409); the reg field is ignored. -/
def execSetNs (_r : RegNum) (m : Rm) (s : State) : Host.Outcome State Fault Refusal := runInstr false false (setccBody .ns m) s

/-- SETP/PE (R409); the reg field is ignored. -/
def execSetP (_r : RegNum) (m : Rm) (s : State) : Host.Outcome State Fault Refusal := runInstr false false (setccBody .p m) s

/-- SETNP/PO (R409); the reg field is ignored. -/
def execSetNp (_r : RegNum) (m : Rm) (s : State) : Host.Outcome State Fault Refusal := runInstr false false (setccBody .np m) s

/-- SETL/NGE (R409); the reg field is ignored. -/
def execSetL (_r : RegNum) (m : Rm) (s : State) : Host.Outcome State Fault Refusal := runInstr false false (setccBody .l m) s

/-- SETGE/NL (R409); the reg field is ignored. -/
def execSetGe (_r : RegNum) (m : Rm) (s : State) : Host.Outcome State Fault Refusal := runInstr false false (setccBody .ge m) s

/-- SETLE/NG (R409); the reg field is ignored. -/
def execSetLe (_r : RegNum) (m : Rm) (s : State) : Host.Outcome State Fault Refusal := runInstr false false (setccBody .le m) s

/-- SETG/NLE (R409); the reg field is ignored. -/
def execSetG (_r : RegNum) (m : Rm) (s : State) : Host.Outcome State Fault Refusal := runInstr false false (setccBody .g m) s

/-! ### Ports -/

/-- IN from a port (R379). -/
def inPort (w : Width) (port : Nat) : M Unit := do
  ioCheck port w.bytes
  let v ← ioRead port w.bytes
  setReg w regEAX v

/-- The body of IN (R379). -/
def inBody (f : InForm) : M Unit := do
  let v ← getWidth
  let dx ← getReg .w16 regEDX
  match f with
  | .alIb imm => inPort .w8 imm.toNat
  | .eaxIb imm => inPort v imm.toNat
  | .alDx => inPort .w8 dx
  | .eaxDx => inPort v dx

/-- IN (R379). -/
def execIn (f : InForm) (s : State) : Host.Outcome State Fault Refusal := runInstr false false (inBody f) s

/-- OUT to a port (R380). -/
def outPort (w : Width) (port : Nat) : M Unit := do
  ioCheck port w.bytes
  let v ← getReg w regEAX
  ioWrite port w.bytes v

/-- The body of OUT (R380). -/
def outBody (f : OutForm) : M Unit := do
  let v ← getWidth
  let dx ← getReg .w16 regEDX
  match f with
  | .ibAl imm => outPort .w8 imm.toNat
  | .ibEax imm => outPort v imm.toNat
  | .dxAl => outPort .w8 dx
  | .dxEax => outPort v dx

/-- OUT (R380). -/
def execOut (f : OutForm) (s : State) : Host.Outcome State Fault Refusal := runInstr false false (outBody f) s

end Sys2Proof.Machine
end

