-- ==== Sys2Proof/Machine/Fpu.lean ====
section
/-! DEFINITION. The floating-point unit: its register stack and words (11_fpu_state R60 to R74), the envelope of an
instruction (45_fpu_numerics R600 to R602), the classes of numbers, NaNs, rounding, and what exceptions do
(45_fpu_numerics R604 to R670). -/
namespace Sys2Proof.Machine

/-! ### The register stack (11_fpu_state R60, R61) -/

/-- Data register Rn. -/
def FpuRegs.get (r : FpuRegs) (n : BitVec 3) : Ext :=
  match n.toNat with
  | 0 => r.r0
  | 1 => r.r1
  | 2 => r.r2
  | 3 => r.r3
  | 4 => r.r4
  | 5 => r.r5
  | 6 => r.r6
  | _ => r.r7

/-- Replaces Rn. -/
def FpuRegs.set (r : FpuRegs) (n : BitVec 3) (v : Ext) : FpuRegs :=
  match n.toNat with
  | 0 => { r with r0 := v }
  | 1 => { r with r1 := v }
  | 2 => { r with r2 := v }
  | 3 => { r with r3 := v }
  | 4 => { r with r4 := v }
  | 5 => { r with r5 := v }
  | 6 => { r with r6 := v }
  | _ => { r with r7 := v }

/-- The physical number of ST(i) (R61). -/
def Fpu.phys (f : Fpu) (i : RegNum) : BitVec 3 := f.st.top + i
/-- The contents of ST(i). -/
def Fpu.reg (f : Fpu) (i : RegNum) : Ext := f.regs.get (f.phys i)
/-- Whether ST(i) is tagged empty (R62). -/
def Fpu.isEmpty (f : Fpu) (i : RegNum) : Bool := f.empty.getLsbD (f.phys i).toNat
/-- Writes ST(i), which is then not empty. -/
def Fpu.put (f : Fpu) (i : RegNum) (v : Ext) : Fpu :=
  { f with regs := f.regs.set (f.phys i) v, empty := setBit f.empty (f.phys i).toNat false }
/-- Tags ST(i) empty. -/
def Fpu.free (f : Fpu) (i : RegNum) : Fpu := { f with empty := setBit f.empty (f.phys i).toNat true }
/-- TOP moved by `d`, modulo 8. -/
def Fpu.turn (f : Fpu) (d : BitVec 3) : Fpu := { f with st := { f.st with top := f.st.top + d } }
/-- `pop()` (46_fpu_data_transfer). -/
def Fpu.pop (f : Fpu) : Fpu := (f.free 0).turn 1
/-- `push(v)`, the check for an empty register made (46_fpu_data_transfer). -/
def Fpu.push (f : Fpu) (v : Ext) : Fpu := (f.turn 7).put 0 v

/-! ### Control and status words (11_fpu_state R65 to R74) -/

/-- RC (R68): 00 nearest, 01 down, 10 up, 11 chop. -/
def Fpu.rc (f : Fpu) : BitVec 2 := f.cw.extractLsb' 10 2
/-- PC (R67). -/
def Fpu.pc (f : Fpu) : BitVec 2 := f.cw.extractLsb' 8 2
/-- The mask bits, in the order of the flags (R66). -/
def Fpu.masks (f : Fpu) : BitVec 6 := f.cw.extractLsb' 0 6
/-- The significand length PC selects; for the reserved code 01 one of the three (U13), by a free number. -/
def Fpu.precision (f : Fpu) (u : Nat) : Nat :=
  match f.pc.toNat with
  | 0 => 24
  | 2 => 53
  | 3 => 64
  | _ => if u % 3 = 0 then 24 else if u % 3 = 1 then 53 else 64

/-- A set of numeric exceptions, in the order of SW bits 0 to 5 (45_fpu_numerics R628). -/
abbrev Exns := BitVec 6
/-- Invalid operation. -/
abbrev excI : Exns := 1
/-- Denormal operand. -/
abbrev excD : Exns := 2
/-- Zero divide. -/
abbrev excZ : Exns := 4
/-- Overflow. -/
abbrev excO : Exns := 8
/-- Underflow. -/
abbrev excU : Exns := 16
/-- Precision. -/
abbrev excP : Exns := 32

/-- The exception flags IE to PE. -/
def FpuStatus.flags (t : FpuStatus) : Exns :=
  BitVec.ofBool t.pe ++ BitVec.ofBool t.ue ++ BitVec.ofBool t.oe ++ BitVec.ofBool t.ze ++ BitVec.ofBool t.de ++ BitVec.ofBool t.ie

/-- Sets exception flags; none is cleared (R71). -/
def FpuStatus.raise (t : FpuStatus) (e : Exns) : FpuStatus :=
  { t with
    ie := t.ie || e.getLsbD 0
    de := t.de || e.getLsbD 1
    ze := t.ze || e.getLsbD 2
    oe := t.oe || e.getLsbD 3
    ue := t.ue || e.getLsbD 4
    pe := t.pe || e.getLsbD 5 }

/-- ES, and B: an unmasked exception flag is set (R73). -/
def Fpu.es (f : Fpu) : Bool := f.st.flags &&& ~~~f.masks != 0

/-- The FERR# output: asserted while an unmasked exception is pending, whatever CR0.NE is (21_bus R256). Immediately after RESET
70_reset R926 and R930 leave it undefined; the model's is ES of the FPU state there too. DESIGN CHOICE (notes/assumptions/59, UNSAFE). -/
def State.ferr (s : State) : Bool := s.fpu.es

/-- SW as 16 bits (R70). -/
def Fpu.sw (f : Fpu) : Word :=
  BitVec.ofBool f.es ++ BitVec.ofBool f.st.c3 ++ f.st.top ++ BitVec.ofBool f.st.c2 ++ BitVec.ofBool f.st.c1 ++
    BitVec.ofBool f.st.c0 ++ BitVec.ofBool f.es ++ BitVec.ofBool f.st.sf ++ f.st.flags

/-- SW loaded from 16 bits; ES and B follow from the flags and masks (R73). -/
def FpuStatus.ofWord (w : Word) : FpuStatus where
  ie := w.getLsbD 0
  de := w.getLsbD 1
  ze := w.getLsbD 2
  oe := w.getLsbD 3
  ue := w.getLsbD 4
  pe := w.getLsbD 5
  sf := w.getLsbD 6
  c0 := w.getLsbD 8
  c1 := w.getLsbD 9
  c2 := w.getLsbD 10
  c3 := w.getLsbD 14
  top := w.extractLsb' 11 3

/-- Sets exception flags. -/
def Fpu.raise (f : Fpu) (e : Exns) : Fpu := { f with st := f.st.raise e }
/-- Sets C1. -/
def Fpu.setC1 (f : Fpu) (b : Bool) : Fpu := { f with st := { f.st with c1 := b } }
/-- Sets C2. -/
def Fpu.setC2 (f : Fpu) (b : Bool) : Fpu := { f with st := { f.st with c2 := b } }
/-- Sets C3, C2 and C0. -/
def Fpu.setCodes (f : Fpu) (c3 c2 c0 : Bool) : Fpu := { f with st := { f.st with c3 := c3, c2 := c2, c0 := c0 } }
/-- C3, C2 and C0 undefined (U14): free values. -/
def Fpu.freeCodes (f : Fpu) (u : BitVec 128) : Fpu := f.setCodes (u.getLsbD 0) (u.getLsbD 1) (u.getLsbD 2)
/-- All four codes undefined (U14): free values. -/
def Fpu.freeAllCodes (f : Fpu) (u : BitVec 128) : Fpu := (f.freeCodes u).setC1 (u.getLsbD 3)
/-- The part of a free number that chooses a reserved precision (U13). -/
def freeChoice (u : BitVec 128) : Nat := (u.extractLsb' 8 16).toNat

/-! ### Classes of numbers (45_fpu_numerics R625) -/

/-- The classes of an extended value. -/
inductive FpClass where
  | zero
  | denormal
  | pseudoDenormal
  | normal
  | unnormal
  | infinity
  | qnan
  | snan
  | pseudo
  deriving DecidableEq, Repr

/-- The sign of an extended value (11_fpu_state R78). -/
def extNeg (x : Ext) : Bool := x.getLsbD 79
/-- The biased exponent. -/
def extExp (x : Ext) : Nat := (x.extractLsb' 64 15).toNat
/-- The significand, integer bit included. -/
def extSig (x : Ext) : Nat := (x.extractLsb' 0 64).toNat
/-- An extended value from its fields. -/
def extPack (neg : Bool) (e sig : Nat) : Ext := BitVec.ofBool neg ++ BitVec.ofNat 15 e ++ BitVec.ofNat 64 sig

/-- The class of an extended value. -/
def extClass (x : Ext) : FpClass :=
  let e := extExp x
  let j := x.getLsbD 63
  let f := extSig x % 2 ^ 63
  if e = 0 then (if j then .pseudoDenormal else if f = 0 then .zero else .denormal)
  else if e = 0x7FFF then
    (if j then (if f = 0 then .infinity else if x.getLsbD 62 then .qnan else .snan) else .pseudo)
  else (if j then .normal else .unnormal)

/-- A format the FPU does not support. -/
def FpClass.unsupported (c : FpClass) : Bool := c = .pseudo || c = .unnormal
/-- A NaN. -/
def FpClass.isNan (c : FpClass) : Bool := c = .qnan || c = .snan
/-- A denormal or pseudo-denormal. -/
def FpClass.isDenormal (c : FpClass) : Bool := c = .denormal || c = .pseudoDenormal

/-- The real indefinite (R634). -/
def indefinite : Ext := 0xFFFFC000000000000000#80
/-- A signed zero. -/
def extZero (neg : Bool) : Ext := extPack neg 0 0
/-- A signed infinity. -/
def extInf (neg : Bool) : Ext := extPack neg 0x7FFF (2 ^ 63)
/-- +1.0. -/
def extOne : Ext := 0x3FFF8000000000000000#80

/-- A NaN made quiet: the most significant fraction bit set (R620). -/
def quiet (x : Ext) : Ext := x ||| (1#80 <<< 62)

/-- The NaN of two that Table 2.5 delivers, made quiet (R620). -/
def chooseNan (a b : Ext) : Ext :=
  match extClass a, extClass b with
  | .snan, .qnan => b
  | .qnan, .snan => a
  | ca, cb =>
    if !cb.isNan then quiet a
    else if !ca.isNan then quiet b
    else if extSig a > extSig b then quiet a
    else if extSig b > extSig a then quiet b
    else if extNeg a then quiet b
    else quiet a

/-! ### Rounding (45_fpu_numerics R604, 11_fpu_state R67, R68) -/

/-- A finite number (-1)^neg * sig * 2^exp. -/
structure Finite where
  neg : Bool
  sig : Nat
  exp : Int
  deriving DecidableEq, Repr

/-- The finite number an extended value of a finite class stands for. -/
def extFinite (x : Ext) : Finite := { neg := extNeg x, sig := extSig x, exp := (max (extExp x) 1 : Nat) - 16446 }

/-- The number of bits of a number. -/
def bitLen (n : Nat) : Nat := if n = 0 then 0 else Nat.log2 n + 1

/-- A number of units, whether something was lost, and whether it was rounded up in magnitude. -/
structure Rounded where
  q : Nat
  inexact : Bool
  up : Bool
  deriving DecidableEq, Repr

/-- Whether a remainder `r` of 2^`d` above the quotient `q` rounds up in magnitude (R68). -/
def roundsUp (rc : BitVec 2) (neg : Bool) (q r d : Nat) : Bool :=
  match rc.toNat with
  | 0 => decide (2 * r > 2 ^ d) || (decide (2 * r = 2 ^ d) && q % 2 == 1)
  | 1 => neg && r != 0
  | 2 => !neg && r != 0
  | _ => false

/-- `x` rounded to a multiple of 2^`unit`. -/
def roundAt (rc : BitVec 2) (x : Finite) (unit : Int) : Rounded :=
  if unit ≤ x.exp then { q := x.sig * 2 ^ (x.exp - unit).toNat, inexact := false, up := false }
  else
    let d := (unit - x.exp).toNat
    let q := x.sig / 2 ^ d
    let r := x.sig % 2 ^ d
    let up := roundsUp rc x.neg q r d
    { q := if up then q + 1 else q, inexact := r != 0, up := up }

/-- The unit that leaves `p` significant bits of `x`. -/
def unitFor (p : Nat) (x : Finite) : Int := x.exp + bitLen x.sig - p

/-- The exponent of the leading bit of `q` units. -/
def leading (q : Nat) (unit : Int) : Int := unit + bitLen q - 1

/-- The extended value of `q` units of 2^`unit`; the value is representable. -/
def extEncode (neg : Bool) (q : Nat) (unit : Int) : Ext :=
  let n := bitLen q
  let e := leading q unit
  if q = 0 then extZero neg
  else if e < -16382 then extPack neg 0 (q * 2 ^ (unit + 16445).toNat)
  else extPack neg (e + 16383).toNat (if n ≤ 64 then q * 2 ^ (64 - n) else q / 2 ^ (n - 64))

/-- A numeric result: the value the responses in force give, the exceptions met, and whether it was rounded up. -/
structure Num where
  val : Ext
  exc : Exns
  up : Bool
  deriving DecidableEq, Repr

/-- An exact result. -/
def Num.exact (v : Ext) : Num := { val := v, exc := 0, up := false }
/-- An invalid operation with its masked response. -/
def Num.invalid (v : Ext) : Num := { val := v, exc := excI, up := false }

/-- The largest finite extended value of precision `p`. -/
def extLargest (neg : Bool) (p : Nat) : Ext := extPack neg 0x7FFE ((2 ^ p - 1) * 2 ^ (64 - p))

/-- Whether the masked response to overflow is infinity (R651). -/
def overflowToInf (rc : BitVec 2) (neg : Bool) : Bool :=
  match rc.toNat with
  | 0 => true
  | 1 => neg
  | 2 => !neg
  | _ => false

/-- PE when something was lost. -/
def excIf (b : Bool) (e : Exns) : Exns := if b then e else 0

/-- The responses to overflow of a register result (R650, R651): masked, the infinity or largest finite value; unmasked,
the exponent lowered by 24576, or infinity when that does not suffice (FSCALE). C1 is 1 where the result is an infinity, masked or
not: DEDUCED (notes/assumptions/38, UNSAFE). With O unmasked P is recorded too (R676) when the
significand is inexact: the vectors of 97_test_vectors_fpu (F3 row 15, F4 row 33) have OE alone for an exact one. DEDUCED
(notes/assumptions/37, UNSAFE). -/
def overflowReg (f : Fpu) (p : Nat) (neg : Bool) (r : Rounded) (unit : Int) : Num :=
  if f.masks &&& excO != 0 then
    let inf := overflowToInf f.rc neg
    { val := if inf then extInf neg else extLargest neg p, exc := excO ||| excP, up := inf }
  else if leading r.q unit - 24576 > 16383 then { val := extInf neg, exc := excO ||| excP, up := true }
  else { val := extEncode neg r.q (unit - 24576), exc := excO ||| excIf r.inexact excP, up := r.up }

/-- The responses to a tiny register result (R655): masked, denormalised, an exception only if something is lost;
unmasked, the exponent raised by 24576, or zero, with U and P and C1 = 0, when that does not suffice (FSCALE), also where the
raised exponent lies within the denormals: R655 has ±0 there, 90_conflicts C33 "+-0 (or denormal)". DESIGN CHOICE
(notes/assumptions/84, UNSAFE). -/
def tinyReg (f : Fpu) (p : Nat) (x : Finite) (r : Rounded) (unit : Int) : Num :=
  if f.masks &&& excU != 0 then
    let least : Int := -16381 - p
    let d := roundAt f.rc x least
    { val := extEncode x.neg d.q least, exc := excIf d.inexact (excU ||| excP), up := d.up }
  else if leading r.q unit + 24576 < -16382 then { val := extZero x.neg, exc := excU ||| excP, up := false }
  else { val := extEncode x.neg r.q (unit + 24576), exc := excU ||| excIf r.inexact excP, up := r.up }

/-- A finite result rounded to a register with `p` significant bits (R604, R650, R655, R660). -/
def roundReg (f : Fpu) (p : Nat) (x : Finite) : Num :=
  if x.sig = 0 then Num.exact (extZero x.neg)
  else
    let unit := unitFor p x
    let r := roundAt f.rc x unit
    if leading r.q unit > 16383 then overflowReg f p x.neg r unit
    else if leading r.q unit < -16382 then tinyReg f p x r unit
    else { val := extEncode x.neg r.q unit, exc := excIf r.inexact excP, up := r.up }

/-! ### Operands, and the order in which exceptions are found (45_fpu_numerics R670) -/

/-- A numeric operand: its extended value, and whether it is or was a denormal (R645). -/
structure Operand where
  val : Ext
  den : Bool
  deriving DecidableEq, Repr

/-- A register as an operand. -/
def regOperand (x : Ext) : Operand := { val := x, den := (extClass x).isDenormal }

/-- What is found before D: an unsupported operand, an SNaN, a QNaN (R670 1 and 2), else what `special` says of other
invalid operations and zero divides. -/
def beforeDenormal (special : Option Num) (a b : Ext) : Option Num :=
  let ca := extClass a
  let cb := extClass b
  if ca.unsupported || cb.unsupported then some (Num.invalid indefinite)
  else if ca = .snan || cb = .snan then some (Num.invalid (chooseNan a b))
  else if ca = .qnan || cb = .qnan then some (Num.exact (chooseNan a b))
  else special

/-- D added to a result. -/
def Num.withDenormal (n : Num) (den : Bool) : Num := { n with exc := n.exc ||| excIf den excD }

/-- A two-operand operation: `special` for the invalid cases and zero divides of its own, `compute` for the rest. -/
def numeric2 (special : Ext → Ext → Option Num) (compute : Ext → Ext → Num) (a b : Operand) : Num :=
  match beforeDenormal (special a.val b.val) a.val b.val with
  | some n => n
  | none => (compute a.val b.val).withDenormal (a.den || b.den)

/-- A one-operand operation. -/
def numeric1 (special : Ext → Option Num) (compute : Ext → Num) (a : Operand) : Num :=
  numeric2 (fun x _ => special x) (fun x _ => compute x) a a

/-! ### Committing a result (45_fpu_numerics R629, R640, R665) -/

/-- The exceptions of `e` that are not masked. -/
def Fpu.unmasked (f : Fpu) (e : Exns) : Exns := e &&& ~~~f.masks

/-- Commits a register result: an unmasked I, D or Z leaves the operands unchanged, with no lower exception flagged;
else `write` delivers the value. C1 is the direction of rounding (R605, R665). -/
def Fpu.commit (f : Fpu) (n : Num) (write : Ext → Fpu → Fpu) : Fpu :=
  if f.unmasked (n.exc &&& 7) != 0 then (f.raise (n.exc &&& 7)).setC1 false
  else write n.val ((f.raise n.exc).setC1 n.up)

/-- A stack fault: IE, SF and C1; `masked` is the masked response, the unmasked one changes nothing else (R640). -/
def Fpu.stackFault (f : Fpu) (overflow : Bool) (masked : Fpu → Fpu) : Fpu :=
  let g := (f.raise excI).setC1 overflow
  let g := { g with st := { g.st with sf := true } }
  if f.unmasked excI != 0 then g else masked g

/-- Pushes a result that does not come from a register: stack overflow when ST(7) is not empty (R640). -/
def Fpu.pushNum (f : Fpu) (n : Num) : Fpu :=
  if !f.isEmpty 7 then f.stackFault true (fun g => g.push indefinite)
  else f.commit n (fun v g => g.push v)

/-- An operation on ST(0) that replaces it. -/
def Fpu.unary (f : Fpu) (op : Operand → Num) : Fpu :=
  if f.isEmpty 0 then f.stackFault false (fun g => g.put 0 indefinite)
  else f.commit (op (regOperand (f.reg 0))) (fun v g => g.put 0 v)

/-- An operation on the registers ST(i) and ST(j) whose result replaces ST(i); `post` pops or not. -/
def Fpu.binary (f : Fpu) (i j : RegNum) (post : Fpu → Fpu) (op : Operand → Operand → Num) : Fpu :=
  if f.isEmpty i || f.isEmpty j then f.stackFault false (fun g => post (g.put i indefinite))
  else f.commit (op (regOperand (f.reg i)) (regOperand (f.reg j))) (fun v g => post (g.put i v))

/-- An operation on ST(0) and a memory operand. -/
def Fpu.withMemory (f : Fpu) (b : Operand) (op : Operand → Operand → Num) : Fpu :=
  if f.isEmpty 0 then f.stackFault false (fun g => g.put 0 indefinite)
  else f.commit (op (regOperand (f.reg 0)) b) (fun v g => g.put 0 v)

/-! ### The envelope (45_fpu_numerics R600 to R602, 60_exceptions R855, R880) -/

/-- The low 11 bits of the opcode: bits 2..0 of the first byte and the ModR/M byte (11_fpu_state R83). -/
def escOpcode (i : Instr) : BitVec 11 :=
  match i.raw.tail with
  | .rm reg m => i.raw.op.setWidth 3 ++ (encodeRm reg m).headD 0
  | _ => 0

/-- The pending-exception check of a waiting instruction (R880). -/
def pendingCheck : M Unit := fun s =>
  if !s.fpu.es then .ok () s
  else if s.ne then raise 16 none .fault s
  else if s.pins.ignne then .ok () s
  else .error .freeze s

/-- What comes before an ESC instruction: #NM, then #UD for LOCK, then for a waiting instruction the pending error. -/
def escCheck (waits : Bool) : M Unit := do
  let s ← get
  if s.em || s.ts then raiseNM
  if s.dec.lock then raiseUD
  if waits then pendingCheck

/-- Changes the FPU. -/
def modFpu (g : Fpu → Fpu) : M Unit := fun s => .ok () { s with fpu := g s.fpu }

/-- The exception pointers and the opcode (11_fpu_state R83): the address of the first prefix; the operand's address, or
a free value with no memory operand (U16). -/
def notePointers (i : Instr) (m : Option Mem) (u : BitVec 128) : M Unit := fun s =>
  .ok () { s with fpu := { s.fpu with
    ip := s.eip - BitVec.ofNat 32 s.dec.len
    cs := s.segs.cs.sel
    op := escOpcode i
    dp := match m with
      | some m => BitVec.ofNat 32 (s.memOff m)
      | none => u.extractLsb' 32 32
    ds := match m with
      | some m => (s.segs.get (s.memSeg m)).sel
      | none => u.extractLsb' 64 16 } }

/-- A numeric instruction without a memory operand. `g` gets a free number for what is undefined. -/
def escRegister (i : Instr) (g : BitVec 128 → Fpu → Fpu) (s : State) : Host.Outcome State Fault Refusal :=
  runInstr true false (do
    escCheck true
    let u ← fresh
    modFpu (g u)
    notePointers i none u) s

/-- A numeric instruction without a memory operand whose result may itself be undefined (U18): `g` gets a second free number
for it, independent of the first. -/
def escRegister2 (i : Instr) (g : BitVec 128 → BitVec 128 → Fpu → Fpu) (s : State) : Host.Outcome State Fault Refusal :=
  runInstr true false (do
    escCheck true
    let u ← fresh
    let w ← fresh
    modFpu (g u w)
    notePointers i none u) s

/-- A numeric instruction that reads `n` bytes of memory. -/
def escLoad (i : Instr) (m : Mem) (n align : Nat) (g : Nat → BitVec 128 → Fpu → Fpu) (s : State) : Host.Outcome State Fault Refusal :=
  runInstr true false (do
    escCheck true
    let v ← loadMem m 0 n align
    let u ← fresh
    modFpu (g v u)
    notePointers i (some m) u) s

/-- A numeric instruction that stores `n` bytes: `g` gives the FPU after it and what is stored, nothing when an unmasked
exception prevents the store (R665); the operand is checked in either case (R602). That check is the one of a write: it sets the
page's Dirty bit and can match a data breakpoint though nothing is stored, which the spec leaves open (46_fpu R688). DESIGN
CHOICE (notes/assumptions/75, UNSAFE). -/
def escStore (i : Instr) (m : Mem) (n align : Nat) (g : BitVec 128 → Fpu → Fpu × Option Nat) (s : State) : Host.Outcome State Fault Refusal :=
  runInstr true false (do
    escCheck true
    let u ← fresh
    let t ← get
    let (f, out) := g u t.fpu
    match out with
    | some v => storeMem m n align v
    | none => do
      let _ ← locateMem m n align true
    modFpu (fun _ => f)
    notePointers i (some m) u) s

/-- An instruction of the control group (49_fpu_control): the pointers stay; `waits` is false for the no-wait ones. -/
def escControl (waits : Bool) (body : M Unit) (s : State) : Host.Outcome State Fault Refusal :=
  runInstr true false (do
    escCheck waits
    body) s

end Sys2Proof.Machine
end

