-- ==== Sys2Proof/Machine/FpuTransfer.lean ====
section
/-! DEFINITION. FPU data transfer: loads, stores, exchange, constants (46_fpu_data_transfer R680 to R705) and the memory
formats (11_fpu_state R75 to R81). -/
namespace Sys2Proof.Machine

/-! ### Conversion to extended (11_fpu_state R76 to R80) -/

/-- A real format of memory: the widths of its exponent and fraction (R78). -/
structure RealFormat where
  expBits : Nat
  fracBits : Nat
  deriving DecidableEq, Repr

/-- Single real. -/
def single : RealFormat := { expBits := 8, fracBits := 23 }
/-- Double real. -/
def double : RealFormat := { expBits := 11, fracBits := 52 }

/-- The bias of the exponent (R78). -/
def RealFormat.bias (k : RealFormat) : Nat := 2 ^ (k.expBits - 1) - 1

/-- A real of memory as an operand: exact; a denormal is normalised and noted (R645), an SNaN stays one. -/
def ofReal (k : RealFormat) (v : Nat) : Operand :=
  let frac := v % 2 ^ k.fracBits
  let e := v / 2 ^ k.fracBits % 2 ^ k.expBits
  let neg := v.testBit (k.expBits + k.fracBits)
  if e = 0 then
    if frac = 0 then { val := extZero neg, den := false }
    else { val := extEncode neg frac (1 - (k.bias : Int) - k.fracBits), den := true }
  else if e = 2 ^ k.expBits - 1 then { val := extPack neg 0x7FFF (2 ^ 63 + frac * 2 ^ (63 - k.fracBits)), den := false }
  else { val := extPack neg (e + 16383 - k.bias) ((2 ^ k.fracBits + frac) * 2 ^ (63 - k.fracBits)), den := false }

/-- An integer as an extended value: exact (R76). -/
def ofInt (i : Int) : Ext := extEncode (decide (i < 0)) i.natAbs 0

/-- A two's complement integer of `n` bits as an operand. -/
def ofInteger (n v : Nat) : Operand := { val := ofInt (toSigned n v), den := false }

/-- The value of `n` decimal digits, the lowest first; none when a digit is not decimal (R77). -/
def bcdValue : Nat → Nat → Option Nat
  | 0, _ => some 0
  | n + 1, v =>
    if v % 16 > 9 then none
    else (bcdValue n (v / 16)).map (fun r => v % 16 + 10 * r)

/-- `n` decimal digits, the lowest first. -/
def bcdDigits : Nat → Nat → Nat
  | 0, _ => 0
  | n + 1, v => v % 10 + 16 * bcdDigits n (v / 10)

/-- A packed decimal as an extended value (R77); a free value where a digit is not decimal (U15). -/
def ofPacked (v : Nat) (u : Ext) : Ext :=
  match bcdValue 18 v with
  | some n => if n = 0 then extZero (v.testBit 79) else extEncode (v.testBit 79) n 0
  | none => u

/-! ### Conversion from extended (46_fpu_data_transfer R685, R686, R690; 45_fpu_numerics R630, R634) -/

/-- What a store would write, the exceptions met, and whether it was rounded up. -/
structure Stored where
  bits : Nat
  exc : Exns
  up : Bool
  deriving DecidableEq, Repr

/-- The sign bit of a real format. -/
def RealFormat.sign (k : RealFormat) (neg : Bool) : Nat := if neg then 2 ^ (k.expBits + k.fracBits) else 0
/-- The exponent field of infinities and NaNs. -/
def RealFormat.special (k : RealFormat) : Nat := (2 ^ k.expBits - 1) * 2 ^ k.fracBits
/-- The real indefinite of a format (R634). -/
def RealFormat.indefinite (k : RealFormat) : Nat := k.sign true + k.special + 2 ^ (k.fracBits - 1)

/-- A NaN chopped on the right and made quiet (R620, R685). -/
def RealFormat.nan (k : RealFormat) (x : Ext) : Nat :=
  k.sign (extNeg x) + k.special + extSig (quiet x) % 2 ^ 63 / 2 ^ (63 - k.fracBits)

/-- A finite nonzero value in a real format of memory, with the responses to overflow and underflow (R650, R655). When
they are unmasked nothing is stored: see `Fpu.commitStore`; P is recorded with an unmasked O (R676) when the significand is
inexact, as in `overflowReg` (DEDUCED, notes/assumptions/37, UNSAFE). -/
def RealFormat.round (k : RealFormat) (f : Fpu) (x : Finite) : Stored :=
  let p := k.fracBits + 1
  let unit := unitFor p x
  let r := roundAt f.rc x unit
  let e := leading r.q unit
  if e > k.bias then
    if f.masks &&& excO != 0 then
      let inf := overflowToInf f.rc x.neg
      { bits := k.sign x.neg + (if inf then k.special else k.special - 1), exc := excO ||| excP, up := inf }
    else { bits := 0, exc := excO ||| excIf r.inexact excP, up := r.up }
  else if e < 1 - (k.bias : Int) then
    if f.masks &&& excU != 0 then
      let d := roundAt f.rc x (1 - (k.bias : Int) - k.fracBits)
      { bits := k.sign x.neg + d.q, exc := excIf d.inexact (excU ||| excP), up := d.up }
    else { bits := 0, exc := excU ||| excIf r.inexact excP, up := r.up }
  else
    let q := if bitLen r.q ≤ p then r.q * 2 ^ (p - bitLen r.q) else r.q / 2
    { bits := k.sign x.neg + (e + k.bias - 1).toNat * 2 ^ k.fracBits + q, exc := excIf r.inexact excP, up := r.up }

/-- D added to what a store meets (45_fpu_numerics R603, R645). -/
def Stored.withDenormal (x : Stored) : Stored := { x with exc := x.exc ||| excD }

/-- An extended value in a real format of memory (R685); of a denormal D is raised (45_fpu_numerics R645). -/
def toReal (k : RealFormat) (f : Fpu) (x : Ext) : Stored :=
  match extClass x with
  | .pseudo | .unnormal => { bits := k.indefinite, exc := excI, up := false }
  | .snan => { bits := k.nan x, exc := excI, up := false }
  | .qnan => { bits := k.nan x, exc := 0, up := false }
  | .infinity => { bits := k.sign (extNeg x) + k.special, exc := 0, up := false }
  | .zero => { bits := k.sign (extNeg x), exc := 0, up := false }
  | .normal => k.round f (extFinite x)
  | .denormal | .pseudoDenormal => (k.round f (extFinite x)).withDenormal

/-- The signed integer a rounded value stands for. -/
def signedOf (neg : Bool) (q : Nat) : Int := if neg then -(q : Int) else q

/-- An extended value as an integer of `n` bits: rounded by RC; the integer indefinite where it is no number or does not
fit (R686, R634); of a denormal D is raised (45_fpu_numerics R645). -/
def toInteger (n : Nat) (f : Fpu) (x : Ext) : Stored :=
  let bad : Stored := { bits := 2 ^ (n - 1), exc := excI, up := false }
  match extClass x with
  | .pseudo | .unnormal | .snan | .qnan | .infinity => bad
  | .zero | .normal | .denormal | .pseudoDenormal =>
    let r := roundAt f.rc (extFinite x) 0
    if r.q > 2 ^ (n - 1) - (if extNeg x then 0 else 1) then bad
    else
      { bits := ofSigned n (signedOf (extNeg x) r.q)
        exc := excIf r.inexact excP ||| excIf (extClass x).isDenormal excD
        up := r.up }

/-- The packed decimal indefinite: FFH, FFH, C0H, then zeros from the top (R634). -/
def packedIndefinite : Nat := 0xFFFFC000000000000000

/-- An extended value as packed decimal (R690); of a denormal D is raised (45_fpu_numerics R645). -/
def toPacked (f : Fpu) (x : Ext) : Stored :=
  let bad : Stored := { bits := packedIndefinite, exc := excI, up := false }
  match extClass x with
  | .pseudo | .unnormal | .snan | .qnan | .infinity => bad
  | .zero | .normal | .denormal | .pseudoDenormal =>
    let r := roundAt f.rc (extFinite x) 0
    if r.q ≥ 10 ^ 18 then bad
    else
      { bits := (if extNeg x then 2 ^ 79 else 0) + bcdDigits 18 r.q
        exc := excIf r.inexact excP ||| excIf (extClass x).isDenormal excD
        up := r.up }

/-- Commits a store: an unmasked I, D, Z, O or U stores nothing and does not pop (R650, R665, R673). -/
def Fpu.commitStore (f : Fpu) (n : Stored) (post : Fpu → Fpu) : Fpu × Option Nat :=
  if f.unmasked (n.exc &&& 7) != 0 then ((f.raise (n.exc &&& 7)).setC1 false, none)
  else if f.unmasked (n.exc &&& 24) != 0 then ((f.raise n.exc).setC1 n.up, none)
  else (post ((f.raise n.exc).setC1 n.up), some n.bits)

/-- A store of ST(0) to memory: `indef` is stored for an empty register when I is masked (R640). -/
def Fpu.storeTop (f : Fpu) (indef : Nat) (conv : Fpu → Ext → Stored) (post : Fpu → Fpu) : Fpu × Option Nat :=
  if f.isEmpty 0 then (f.stackFault false post, if f.unmasked excI != 0 then none else some indef)
  else f.commitStore (conv f (f.reg 0)) post

/-- A store of ST(0) to ST(i) (R685): the 80 bits are copied. -/
def Fpu.storeReg (f : Fpu) (i : RegNum) (post : Fpu → Fpu) : Fpu :=
  if f.isEmpty 0 then f.stackFault false (fun g => post (g.put i indefinite))
  else post ((f.put i (f.reg 0)).setC1 false)

/-! ### Loads -/

/-- A load of a real with conversion (R680): I for an SNaN, D for a denormal. -/
def loadReal (k : RealFormat) (v : Nat) (f : Fpu) : Fpu :=
  f.pushNum (numeric1 (fun _ => none) Num.exact (ofReal k v))

/-- FLD (R680). -/
def execFld (f : FldForm) (s : State) : Host.Outcome State Fault Refusal :=
  match f with
  | .m32 m => escLoad (.fld f) m 4 4 (fun v u g => loadReal single v (g.freeCodes u)) s
  | .m64 m => escLoad (.fld f) m 8 8 (fun v u g => loadReal double v (g.freeCodes u)) s
  | .m80 m => escLoad (.fld f) m 10 8 (fun v u g => (g.freeCodes u).pushNum (Num.exact (BitVec.ofNat 80 v))) s
  | .st i => escRegister (.fld f) (fun u g =>
      let g := g.freeCodes u
      if g.isEmpty i then g.stackFault false (fun h => h.push indefinite)
      else g.pushNum (Num.exact (g.reg i))) s

/-- FILD (R681). -/
def execFild (f : FildForm) (s : State) : Host.Outcome State Fault Refusal :=
  match f with
  | .m16 m => escLoad (.fild f) m 2 2 (fun v u g => (g.freeCodes u).pushNum (Num.exact (ofInteger 16 v).val)) s
  | .m32 m => escLoad (.fild f) m 4 4 (fun v u g => (g.freeCodes u).pushNum (Num.exact (ofInteger 32 v).val)) s
  | .m64 m => escLoad (.fild f) m 8 8 (fun v u g => (g.freeCodes u).pushNum (Num.exact (ofInteger 64 v).val)) s

/-- FBLD (R682). -/
def execFbld (m : Mem) (s : State) : Host.Outcome State Fault Refusal :=
  escLoad (.fbld m) m 10 8 (fun v u g => (g.freeCodes u).pushNum (Num.exact (ofPacked v (u.extractLsb' 24 80)))) s

/-! ### Stores -/

/-- FST (R685). -/
def execFst (f : FstForm) (s : State) : Host.Outcome State Fault Refusal :=
  match f with
  | .m32 m => escStore (.fst f) m 4 4 (fun u g => (g.freeCodes u).storeTop single.indefinite (toReal single) id) s
  | .m64 m => escStore (.fst f) m 8 8 (fun u g => (g.freeCodes u).storeTop double.indefinite (toReal double) id) s
  | .st i => escRegister (.fst f) (fun u g => (g.freeCodes u).storeReg i id) s

/-- FSTP (R688). -/
def execFstp (f : FldForm) (s : State) : Host.Outcome State Fault Refusal :=
  match f with
  | .m32 m => escStore (.fstp f) m 4 4 (fun u g => (g.freeCodes u).storeTop single.indefinite (toReal single) Fpu.pop) s
  | .m64 m => escStore (.fstp f) m 8 8 (fun u g => (g.freeCodes u).storeTop double.indefinite (toReal double) Fpu.pop) s
  | .m80 m => escStore (.fstp f) m 10 8 (fun u g =>
      (g.freeCodes u).storeTop indefinite.toNat (fun _ x => { bits := x.toNat, exc := 0, up := false }) Fpu.pop) s
  | .st i => escRegister (.fstp f) (fun u g => (g.freeCodes u).storeReg i Fpu.pop) s

/-- FIST (R686). -/
def execFist (f : FistForm) (s : State) : Host.Outcome State Fault Refusal :=
  match f with
  | .m16 m => escStore (.fist f) m 2 2 (fun u g => (g.freeCodes u).storeTop (2 ^ 15) (toInteger 16) id) s
  | .m32 m => escStore (.fist f) m 4 4 (fun u g => (g.freeCodes u).storeTop (2 ^ 31) (toInteger 32) id) s

/-- FISTP (R689). -/
def execFistp (f : FildForm) (s : State) : Host.Outcome State Fault Refusal :=
  match f with
  | .m16 m => escStore (.fistp f) m 2 2 (fun u g => (g.freeCodes u).storeTop (2 ^ 15) (toInteger 16) Fpu.pop) s
  | .m32 m => escStore (.fistp f) m 4 4 (fun u g => (g.freeCodes u).storeTop (2 ^ 31) (toInteger 32) Fpu.pop) s
  | .m64 m => escStore (.fistp f) m 8 8 (fun u g => (g.freeCodes u).storeTop (2 ^ 63) (toInteger 64) Fpu.pop) s

/-- FBSTP (R690). -/
def execFbstp (m : Mem) (s : State) : Host.Outcome State Fault Refusal :=
  escStore (.fbstp m) m 10 8 (fun u g => (g.freeCodes u).storeTop packedIndefinite toPacked Fpu.pop) s

/-! ### Exchange -/

/-- An empty register filled with the indefinite. -/
def Fpu.fillEmpty (f : Fpu) (i : RegNum) : Fpu := if f.isEmpty i then f.put i indefinite else f

/-- The exchange of two registers that are not empty. -/
def Fpu.swap (f : Fpu) (i : RegNum) : Fpu := (f.put 0 (f.reg i)).put i (f.reg 0)

/-- FXCH (R693). -/
def execFxch (i : RegNum) (s : State) : Host.Outcome State Fault Refusal :=
  escRegister (.fxch i) (fun u g =>
    let g := g.freeCodes u
    if g.isEmpty 0 || g.isEmpty i then g.stackFault false (fun h => ((h.fillEmpty 0).fillEmpty i).swap i)
    else (g.swap i).setC1 false) s

/-! ### Constants (R700) -/

/-- The constant `near` as RC = 00 gives it, `down` for RC = 01 and 11, `upper` for RC = 10. -/
def constant (near down upper : Ext) (rc : BitVec 2) : Ext :=
  match rc.toNat with
  | 0 => near
  | 2 => upper
  | _ => down

/-- A constant load: it raises nothing but a stack fault. -/
def pushConstant (near down upper : Ext) (u : BitVec 128) (f : Fpu) : Fpu :=
  (f.freeCodes u).pushNum (Num.exact (constant near down upper f.rc))

/-- FLD1 (R700). -/
def execFld1 (s : State) : Host.Outcome State Fault Refusal :=
  escRegister .fld1 (pushConstant extOne extOne extOne) s

/-- FLDL2T (R700): log2(10). -/
def execFldl2t (s : State) : Host.Outcome State Fault Refusal :=
  escRegister .fldl2t (pushConstant 0x4000D49A784BCD1B8AFE#80 0x4000D49A784BCD1B8AFE#80 0x4000D49A784BCD1B8AFF#80) s

/-- FLDL2E (R700): log2(e). -/
def execFldl2e (s : State) : Host.Outcome State Fault Refusal :=
  escRegister .fldl2e (pushConstant 0x3FFFB8AA3B295C17F0BC#80 0x3FFFB8AA3B295C17F0BB#80 0x3FFFB8AA3B295C17F0BC#80) s

/-- FLDPI (R700). -/
def execFldpi (s : State) : Host.Outcome State Fault Refusal :=
  escRegister .fldpi (pushConstant 0x4000C90FDAA22168C235#80 0x4000C90FDAA22168C234#80 0x4000C90FDAA22168C235#80) s

/-- FLDLG2 (R700): log10(2). -/
def execFldlg2 (s : State) : Host.Outcome State Fault Refusal :=
  escRegister .fldlg2 (pushConstant 0x3FFD9A209A84FBCFF799#80 0x3FFD9A209A84FBCFF798#80 0x3FFD9A209A84FBCFF799#80) s

/-- FLDLN2 (R700): ln(2). -/
def execFldln2 (s : State) : Host.Outcome State Fault Refusal :=
  escRegister .fldln2 (pushConstant 0x3FFEB17217F7D1CF79AC#80 0x3FFEB17217F7D1CF79AB#80 0x3FFEB17217F7D1CF79AC#80) s

/-- FLDZ (R700). -/
def execFldz (s : State) : Host.Outcome State Fault Refusal :=
  escRegister .fldz (pushConstant (extZero false) (extZero false) (extZero false)) s

end Sys2Proof.Machine
end

