-- ==== Sys2Proof/Machine/FpuArith.lean ====
section
/-! DEFINITION. FPU arithmetic: the four basic operations, FSQRT, FSCALE, FPREM, FPREM1, FRNDINT, FXTRACT, FABS, FCHS
(47_fpu_arithmetic_compare R720 to R746). -/
namespace Sys2Proof.Machine

/-- A zero of either sign. -/
def isZero (x : Ext) : Bool := extClass x = .zero
/-- An infinity of either sign. -/
def isInf (x : Ext) : Bool := extClass x = .infinity

/-! ### Addition and subtraction (R723 to R725, 45_fpu_numerics R612, R613) -/

/-- The sign of a sum that is exactly zero: plus, but minus with RC = 01 (R612). -/
def zeroSumNeg (f : Fpu) : Bool := f.rc = 1

/-- The significand of a finite number in units of 2^`unit`, with its sign. -/
def Finite.scaled (x : Finite) (unit : Int) : Int := signedOf x.neg (x.sig * 2 ^ (x.exp - unit).toNat)

/-- The exact sum of two finite numbers; `neg` is the sign of a zero sum. -/
def Finite.add (x y : Finite) (neg : Bool) : Finite :=
  let unit := min x.exp y.exp
  let t := x.scaled unit + y.scaled unit
  { neg := if t = 0 then neg else decide (t < 0), sig := t.natAbs, exp := unit }

/-- `a + b`, or `a - b` when `sub`: the invalid case of two infinities. -/
def addSpecial (sub : Bool) (a b : Ext) : Option Num :=
  if isInf a && isInf b && extNeg a != (extNeg b ^^ sub) then some (Num.invalid indefinite) else none

/-- `a + b`, or `a - b` when `sub`, rounded to `p` bits. -/
def addCompute (f : Fpu) (p : Nat) (sub : Bool) (a b : Ext) : Num :=
  if isInf a then Num.exact a
  else if isInf b then Num.exact (extInf (extNeg b ^^ sub))
  else
    let x := extFinite a
    let y := { extFinite b with neg := extNeg b ^^ sub }
    roundReg f p (x.add y (if x.sig = 0 && y.sig = 0 && x.neg == y.neg then x.neg else zeroSumNeg f))

/-- A basic operation: the FPU's control word, the precision, destination and source. -/
abbrev BasicOp := Fpu → Nat → Operand → Operand → Num

/-- `dst + src` (R723). -/
def opAdd : BasicOp := fun f p a b => numeric2 (addSpecial false) (addCompute f p false) a b
/-- `dst - src` (R724). -/
def opSub : BasicOp := fun f p a b => numeric2 (addSpecial true) (addCompute f p true) a b
/-- `src - dst` (R725). -/
def opSubr : BasicOp := fun f p a b => opSub f p b a

/-! ### Multiplication and division (R726 to R728, 45_fpu_numerics R648) -/

/-- The invalid case of a product. -/
def mulSpecial (a b : Ext) : Option Num :=
  if (isInf a && isZero b) || (isZero a && isInf b) then some (Num.invalid indefinite) else none

/-- A product rounded to `p` bits. -/
def mulCompute (f : Fpu) (p : Nat) (a b : Ext) : Num :=
  let neg := extNeg a ^^ extNeg b
  if isInf a || isInf b then Num.exact (extInf neg)
  else
    let x := extFinite a
    let y := extFinite b
    roundReg f p { neg := neg, sig := x.sig * y.sig, exp := x.exp + y.exp }

/-- `dst * src` (R726). -/
def opMul : BasicOp := fun f p a b => numeric2 mulSpecial (mulCompute f p) a b

/-- The invalid cases of a quotient, and the division of a finite nonzero number by zero. -/
def divSpecial (a b : Ext) : Option Num :=
  if (isInf a && isInf b) || (isZero a && isZero b) then some (Num.invalid indefinite)
  else if isZero b && !isInf a then some { val := extInf (extNeg a ^^ extNeg b), exc := excZ, up := false }
  else none

/-- A quotient of more than 65 bits whose last bit is 1 when it is not exact. -/
def Finite.div (x y : Finite) : Finite :=
  let n := x.sig * 2 ^ 130
  { neg := x.neg ^^ y.neg
    sig := n / y.sig * 2 + (if n % y.sig = 0 then 0 else 1)
    exp := x.exp - y.exp - 131 }

/-- A quotient rounded to `p` bits. -/
def divCompute (f : Fpu) (p : Nat) (a b : Ext) : Num :=
  let neg := extNeg a ^^ extNeg b
  if isInf a || isZero b then Num.exact (extInf neg)
  else if isInf b || isZero a then Num.exact (extZero neg)
  else roundReg f p ((extFinite a).div (extFinite b))

/-- `dst / src` (R727). -/
def opDiv : BasicOp := fun f p a b => numeric2 divSpecial (divCompute f p) a b
/-- `src / dst` (R728). -/
def opDivr : BasicOp := fun f p a b => opDiv f p b a

/-! ### Forms (R720 to R722) -/

/-- The real and register forms of a basic operation. -/
def basicReal (op : BasicOp) (i : Instr) (f : FarithForm) (s : State) : Host.Outcome State Fault Refusal :=
  match f with
  | .m32 m => escLoad i m 4 4 (fun v u g => (g.freeCodes u).withMemory (ofReal single v) (op g (g.precision (freeChoice u)))) s
  | .m64 m => escLoad i m 8 8 (fun v u g => (g.freeCodes u).withMemory (ofReal double v) (op g (g.precision (freeChoice u)))) s
  | .stSti j => escRegister i (fun u g => (g.freeCodes u).binary 0 j id (op g (g.precision (freeChoice u)))) s
  | .stiSt j => escRegister i (fun u g => (g.freeCodes u).binary j 0 id (op g (g.precision (freeChoice u)))) s

/-- The integer forms. -/
def basicInteger (op : BasicOp) (i : Instr) (f : FistForm) (s : State) : Host.Outcome State Fault Refusal :=
  match f with
  | .m16 m => escLoad i m 2 2 (fun v u g => (g.freeCodes u).withMemory (ofInteger 16 v) (op g (g.precision (freeChoice u)))) s
  | .m32 m => escLoad i m 4 4 (fun v u g => (g.freeCodes u).withMemory (ofInteger 32 v) (op g (g.precision (freeChoice u)))) s

/-- The forms ST(i), ST that pop. -/
def basicPop (op : BasicOp) (i : Instr) (j : RegNum) (s : State) : Host.Outcome State Fault Refusal :=
  escRegister i (fun u g => (g.freeCodes u).binary j 0 Fpu.pop (op g (g.precision (freeChoice u)))) s

/-- FADD (R723). -/
def execFadd (f : FarithForm) (s : State) : Host.Outcome State Fault Refusal := basicReal opAdd (.fadd f) f s
/-- FIADD (R723). -/
def execFiadd (f : FistForm) (s : State) : Host.Outcome State Fault Refusal := basicInteger opAdd (.fiadd f) f s
/-- FADDP (R723). -/
def execFaddp (i : RegNum) (s : State) : Host.Outcome State Fault Refusal := basicPop opAdd (.faddp i) i s
/-- FMUL (R726). -/
def execFmul (f : FarithForm) (s : State) : Host.Outcome State Fault Refusal := basicReal opMul (.fmul f) f s
/-- FIMUL (R726). -/
def execFimul (f : FistForm) (s : State) : Host.Outcome State Fault Refusal := basicInteger opMul (.fimul f) f s
/-- FMULP (R726). -/
def execFmulp (i : RegNum) (s : State) : Host.Outcome State Fault Refusal := basicPop opMul (.fmulp i) i s
/-- FSUB (R724). -/
def execFsub (f : FarithForm) (s : State) : Host.Outcome State Fault Refusal := basicReal opSub (.fsub f) f s
/-- FISUB (R724). -/
def execFisub (f : FistForm) (s : State) : Host.Outcome State Fault Refusal := basicInteger opSub (.fisub f) f s
/-- FSUBP (R724). -/
def execFsubp (i : RegNum) (s : State) : Host.Outcome State Fault Refusal := basicPop opSub (.fsubp i) i s
/-- FSUBR (R725). -/
def execFsubr (f : FarithForm) (s : State) : Host.Outcome State Fault Refusal := basicReal opSubr (.fsubr f) f s
/-- FISUBR (R725). -/
def execFisubr (f : FistForm) (s : State) : Host.Outcome State Fault Refusal := basicInteger opSubr (.fisubr f) f s
/-- FSUBRP (R725). -/
def execFsubrp (i : RegNum) (s : State) : Host.Outcome State Fault Refusal := basicPop opSubr (.fsubrp i) i s
/-- FDIV (R727). -/
def execFdiv (f : FarithForm) (s : State) : Host.Outcome State Fault Refusal := basicReal opDiv (.fdiv f) f s
/-- FIDIV (R727). -/
def execFidiv (f : FistForm) (s : State) : Host.Outcome State Fault Refusal := basicInteger opDiv (.fidiv f) f s
/-- FDIVP (R727). -/
def execFdivp (i : RegNum) (s : State) : Host.Outcome State Fault Refusal := basicPop opDiv (.fdivp i) i s
/-- FDIVR (R728). -/
def execFdivr (f : FarithForm) (s : State) : Host.Outcome State Fault Refusal := basicReal opDivr (.fdivr f) f s
/-- FIDIVR (R728). -/
def execFidivr (f : FistForm) (s : State) : Host.Outcome State Fault Refusal := basicInteger opDivr (.fidivr f) f s
/-- FDIVRP (R728). -/
def execFdivrp (i : RegNum) (s : State) : Host.Outcome State Fault Refusal := basicPop opDivr (.fdivrp i) i s

/-! ### Square root (R735) -/

/-- The integer square root, bit by bit: `r` so far, `k` bits to go. -/
def isqrt : Nat → Nat → Nat → Nat
  | 0, _, r => r
  | k + 1, n, r => isqrt k n (if (r + 2 ^ k) * (r + 2 ^ k) ≤ n then r + 2 ^ k else r)

/-- A root of more than 65 bits whose last bit is 1 when it is not exact. -/
def Finite.sqrt (x : Finite) : Finite :=
  let n := x.sig * 2 ^ (140 + (x.exp % 2).toNat)
  let r := isqrt 110 n 0
  { neg := false, sig := r * 2 + (if r * r = n then 0 else 1), exp := (x.exp - (x.exp % 2) - 140) / 2 - 1 }

/-- The invalid case of a root: a negative operand other than -0. -/
def sqrtSpecial (a : Ext) : Option Num := if extNeg a && !isZero a then some (Num.invalid indefinite) else none

/-- A root rounded to `p` bits. -/
def sqrtCompute (f : Fpu) (p : Nat) (a : Ext) : Num :=
  if isZero a || isInf a then Num.exact a else roundReg f p (extFinite a).sqrt

/-- FSQRT (R735). -/
def execFsqrt (s : State) : Host.Outcome State Fault Refusal :=
  escRegister .fsqrt (fun u g => (g.freeCodes u).unary (numeric1 sqrtSpecial (sqrtCompute g (g.precision (freeChoice u))))) s

/-! ### FSCALE (R736) -/

/-- ST(1) cut to an integer; beyond 2^17 every value overflows or vanishes alike. -/
def scaleAmount (b : Ext) : Int :=
  let x := extFinite b
  if leading x.sig x.exp ≥ 17 then signedOf x.neg (2 ^ 17)
  else signedOf x.neg (roundAt 3 x 0).q

/-- The invalid cases: 0 by +infinity, infinity by -infinity (45_fpu_numerics R630). -/
def scaleSpecial (a b : Ext) : Option Num :=
  if (isZero a && isInf b && !extNeg b) || (isInf a && isInf b && extNeg b) then some (Num.invalid indefinite) else none

/-- ST(0) scaled by 2^ST(1). -/
def scaleCompute (f : Fpu) (a b : Ext) : Num :=
  if isInf a || isZero a then Num.exact a
  else if isInf b then Num.exact (if extNeg b then extZero (extNeg a) else extInf (extNeg a))
  else
    let x := extFinite a
    roundReg f 64 { x with exp := x.exp + scaleAmount b }

/-- FSCALE (R736). -/
def execFscale (s : State) : Host.Outcome State Fault Refusal :=
  escRegister .fscale (fun u g => (g.freeCodes u).binary 0 1 id (numeric2 scaleSpecial (scaleCompute g))) s

/-! ### Partial remainders (R741, R742) -/

/-- A partial remainder: the result, whether the reduction is complete, and the magnitude of the quotient. -/
structure Remainder where
  num : Num
  complete : Bool
  quotient : Nat
  deriving DecidableEq, Repr

/-- The quotient of two magnitudes, cut, or rounded to nearest even (FPREM1). -/
def quotientOf (nearest : Bool) (a b : Nat) : Nat :=
  let q := a / b
  let r := a % b
  if nearest && (decide (2 * r > b) || (decide (2 * r = b) && q % 2 == 1)) then q + 1 else q

/-- The remainder of finite nonzero numbers (R741, R742). -/
def remainder (f : Fpu) (nearest : Bool) (a b : Ext) : Remainder :=
  let x := extFinite a
  let y := extFinite b
  let d := leading x.sig x.exp - leading y.sig y.exp
  let unit := min x.exp y.exp
  let m := x.sig * 2 ^ (x.exp - unit).toNat
  let n := y.sig * 2 ^ (y.exp - unit).toNat
  let finish (rest : Int) : Num :=
    roundReg f 64 { neg := if rest = 0 then x.neg else x.neg ^^ decide (rest < 0), sig := rest.natAbs, exp := unit }
  if d < 64 then
    let q := quotientOf nearest m n
    { num := finish ((m : Int) - n * q), complete := true, quotient := q }
  else
    let k := d.toNat - (32 + Config.premN d.toNat % 32)
    let q := m / (n * 2 ^ k)
    { num := finish ((m : Int) - n * q * 2 ^ k), complete := false, quotient := 0 }

/-- The invalid cases: an infinite dividend, a zero modulus (45_fpu_numerics R630). -/
def remSpecial (a b : Ext) : Option Num :=
  if isInf a || isZero b then some (Num.invalid indefinite) else none

/-- The remainder of ST(0) by ST(1): a zero dividend or an infinite modulus leave ST(0) with Q = 0. -/
def remCompute (f : Fpu) (nearest : Bool) (a b : Ext) : Remainder :=
  if isZero a || isInf b then { num := Num.exact a, complete := true, quotient := 0 }
  else remainder f nearest a b

/-- The condition codes of a remainder: C2 tells that it is incomplete, C0, C3, C1 are quotient bits 2, 1, 0. -/
def Fpu.remCodes (f : Fpu) (r : Remainder) : Fpu :=
  (f.setCodes (r.quotient.testBit 1) (!r.complete) (r.quotient.testBit 2)).setC1 (r.quotient.testBit 0)

/-- FPREM and FPREM1. A masked invalid case sets C2 (45_fpu_numerics R630). DESIGN CHOICE (notes/assumptions/43): C3, C2 and
C0 are free after a NaN or unsupported operand, a stack underflow, and an unmasked I or D, and C3 and C0 after the masked
invalid case; 11_fpu_state R74 and R741, R742 give none there. -/
def Fpu.premainder (f : Fpu) (nearest : Bool) : Fpu :=
  if f.isEmpty 0 || f.isEmpty 1 then f.stackFault false (fun g => g.put 0 indefinite)
  else
    let a := regOperand (f.reg 0)
    let b := regOperand (f.reg 1)
    match beforeDenormal none a.val b.val with
    | some n => f.commit n (fun v g => g.put 0 v)
    | none =>
      match remSpecial a.val b.val with
      | some n => f.commit n (fun v g => (g.put 0 v).setC2 true)
      | none =>
        let r := remCompute f nearest a.val b.val
        f.commit (r.num.withDenormal (a.den || b.den)) (fun v g => (g.put 0 v).remCodes r)

/-- FPREM (R741). -/
def execFprem (s : State) : Host.Outcome State Fault Refusal :=
  escRegister .fprem (fun u g => (g.freeCodes u).premainder false) s

/-- FPREM1 (R742). -/
def execFprem1 (s : State) : Host.Outcome State Fault Refusal :=
  escRegister .fprem1 (fun u g => (g.freeCodes u).premainder true) s

/-! ### FRNDINT (R743) -/

/-- ST(0) rounded to an integer by RC. -/
def rndintCompute (f : Fpu) (a : Ext) : Num :=
  let x := extFinite a
  if isInf a || isZero a || decide (x.exp ≥ 0) then Num.exact a
  else
    let r := roundAt f.rc x 0
    { val := extEncode x.neg r.q 0, exc := excIf r.inexact excP, up := r.up }

/-- FRNDINT (R743). -/
def execFrndint (s : State) : Host.Outcome State Fault Refusal :=
  escRegister .frndint (fun u g => (g.freeCodes u).unary (numeric1 (fun _ => none) (rndintCompute g))) s

/-! ### FXTRACT (R744) -/

/-- Replaces ST(0) by `v` and pushes `w`. -/
def Fpu.putPush (f : Fpu) (v w : Ext) : Fpu := (f.put 0 v).push w

/-- An operation with two results on the stack: ST(0) must not be empty, ST(7) must be; the masked response to a fault
puts the indefinite in both (45_fpu_numerics R630, R678). -/
def Fpu.extend (f : Fpu) (op : Ext → Fpu → Fpu) : Fpu :=
  if f.isEmpty 0 then f.stackFault false (fun g => g.putPush indefinite indefinite)
  else if !f.isEmpty 7 then f.stackFault true (fun g => g.putPush indefinite indefinite)
  else op (f.reg 0) f

/-- The exponent of a finite nonzero number. -/
def exponentOf (x : Finite) : Ext := ofInt (leading x.sig x.exp)
/-- Its significand, with exponent 0. -/
def significandOf (x : Finite) : Ext := extEncode x.neg x.sig (1 - (bitLen x.sig : Int))

/-- FXTRACT on ST(0): exponent below significand. A zero raises Z. -/
def Fpu.xtract (a : Ext) (f : Fpu) : Fpu :=
  match beforeDenormal none a a with
  | some n => f.commit n (fun v g => g.putPush v v)
  | none =>
    if isZero a then f.commit { val := extInf true, exc := excZ, up := false } (fun v g => g.putPush v a)
    else if isInf a then f.commit (Num.exact (extInf false)) (fun v g => g.putPush v a)
    else f.commit ((Num.exact (exponentOf (extFinite a))).withDenormal (extClass a).isDenormal)
      (fun v g => g.putPush v (significandOf (extFinite a)))

/-- FXTRACT (R744). -/
def execFxtract (s : State) : Host.Outcome State Fault Refusal :=
  escRegister .fxtract (fun u g => (g.freeCodes u).extend Fpu.xtract) s

/-! ### Sign (R745, R746) -/

/-- An operation on the bits of ST(0) that raises only a stack fault. -/
def Fpu.onBits (f : Fpu) (op : Ext → Ext) : Fpu :=
  if f.isEmpty 0 then f.stackFault false (fun g => g.put 0 indefinite)
  else (f.put 0 (op (f.reg 0))).setC1 false

/-- FABS (R745). -/
def execFabs (s : State) : Host.Outcome State Fault Refusal :=
  escRegister .fabs (fun u g => (g.freeCodes u).onBits (fun x => setBit x 79 false)) s

/-- FCHS (R746). -/
def execFchs (s : State) : Host.Outcome State Fault Refusal :=
  escRegister .fchs (fun u g => (g.freeCodes u).onBits (fun x => x ^^^ (1#80 <<< 79))) s

end Sys2Proof.Machine
end

