-- ==== Sys2Proof/Machine/FpuCompare.lean ====
section
/-! DEFINITION. FPU comparisons and FXAM (47_fpu_arithmetic_compare R750 to R760). -/
namespace Sys2Proof.Machine

/-- The relation of ST(0) to the other operand (R750). -/
inductive Relation where
  | greater
  | less
  | equal
  | unordered
  deriving DecidableEq, Repr

/-- The condition codes of a relation (R750). -/
def Fpu.setRelation (f : Fpu) (r : Relation) : Fpu :=
  match r with
  | .greater => f.setCodes false false false
  | .less => f.setCodes false false true
  | .equal => f.setCodes true false false
  | .unordered => f.setCodes true true true

/-- A number that orders the finite values and infinities: an infinity lies beyond every finite value (R750). -/
def orderKey (x : Ext) : Int :=
  let a := extFinite x
  signedOf a.neg (if isInf x then 2 ^ 33000 else a.sig * 2 ^ (a.exp + 16445).toNat)

/-- The relation of two operands that are no NaN; zeros are equal whatever their signs. -/
def relationOf (a b : Ext) : Relation :=
  if orderKey a > orderKey b then .greater
  else if orderKey a < orderKey b then .less
  else .equal

/-- Whether a comparison is invalid: an unsupported operand or an SNaN, and for the FCOM family any NaN (R751, R756). -/
def compareInvalid (quietOk : Bool) (a b : Ext) : Bool :=
  let ca := extClass a
  let cb := extClass b
  ca.unsupported || cb.unsupported || ca = .snan || cb = .snan || (!quietOk && (ca = .qnan || cb = .qnan))

/-- A comparison of ST(0) with an operand. An invalid one sets the codes to unordered, masked or not (R751); with D
unmasked nothing is compared and the codes are free (notes/assumptions/30). `post` pops, when the instruction
completes. -/
def Fpu.compareWith (f : Fpu) (quietOk : Bool) (b : Operand) (post : Fpu → Fpu) (u : BitVec 128) : Fpu :=
  let a := regOperand (f.reg 0)
  let f := f.setC1 false
  if compareInvalid quietOk a.val b.val then
    let g := (f.raise excI).setRelation .unordered
    if f.unmasked excI != 0 then g else post g
  else if (extClass a.val).isNan || (extClass b.val).isNan then post (f.setRelation .unordered)
  else
    let d := excIf (a.den || b.den) excD
    if f.unmasked d != 0 then (f.raise d).freeCodes u
    else post ((f.raise d).setRelation (relationOf a.val b.val))

/-- Stack underflow in a comparison: unordered (R751, 45_fpu_numerics R640). -/
def Fpu.compareEmpty (f : Fpu) (post : Fpu → Fpu) : Fpu := (f.setRelation .unordered).stackFault false post

/-- A comparison of ST(0) with ST(i). -/
def Fpu.compareReg (f : Fpu) (quietOk : Bool) (i : RegNum) (post : Fpu → Fpu) (u : BitVec 128) : Fpu :=
  if f.isEmpty 0 || f.isEmpty i then f.compareEmpty post
  else f.compareWith quietOk (regOperand (f.reg i)) post u

/-- A comparison of ST(0) with a memory operand. -/
def Fpu.compareMem (f : Fpu) (b : Operand) (post : Fpu → Fpu) (u : BitVec 128) : Fpu :=
  if f.isEmpty 0 then f.compareEmpty post else f.compareWith false b post u

/-- The forms of FCOM and FCOMP. -/
def compareReal (i : Instr) (f : FstForm) (post : Fpu → Fpu) (s : State) : Host.Outcome State Fault Refusal :=
  match f with
  | .m32 m => escLoad i m 4 4 (fun v u g => g.compareMem (ofReal single v) post u) s
  | .m64 m => escLoad i m 8 8 (fun v u g => g.compareMem (ofReal double v) post u) s
  | .st j => escRegister i (fun u g => g.compareReg false j post u) s

/-- The forms of FICOM and FICOMP. -/
def compareInteger (i : Instr) (f : FistForm) (post : Fpu → Fpu) (s : State) : Host.Outcome State Fault Refusal :=
  match f with
  | .m16 m => escLoad i m 2 2 (fun v u g => g.compareMem (ofInteger 16 v) post u) s
  | .m32 m => escLoad i m 4 4 (fun v u g => g.compareMem (ofInteger 32 v) post u) s

/-- Pops twice. -/
def Fpu.pop2 (f : Fpu) : Fpu := f.pop.pop

/-- FCOM (R751). -/
def execFcom (f : FstForm) (s : State) : Host.Outcome State Fault Refusal := compareReal (.fcom f) f id s
/-- FCOMP (R752). -/
def execFcomp (f : FstForm) (s : State) : Host.Outcome State Fault Refusal := compareReal (.fcomp f) f Fpu.pop s
/-- FCOMPP (R753). -/
def execFcompp (s : State) : Host.Outcome State Fault Refusal :=
  escRegister .fcompp (fun u g => g.compareReg false 1 Fpu.pop2 u) s
/-- FICOM (R754). -/
def execFicom (f : FistForm) (s : State) : Host.Outcome State Fault Refusal := compareInteger (.ficom f) f id s
/-- FICOMP (R755). -/
def execFicomp (f : FistForm) (s : State) : Host.Outcome State Fault Refusal := compareInteger (.ficomp f) f Fpu.pop s
/-- FUCOM (R756). -/
def execFucom (i : RegNum) (s : State) : Host.Outcome State Fault Refusal :=
  escRegister (.fucom i) (fun u g => g.compareReg true i id u) s
/-- FUCOMP (R757). -/
def execFucomp (i : RegNum) (s : State) : Host.Outcome State Fault Refusal :=
  escRegister (.fucomp i) (fun u g => g.compareReg true i Fpu.pop u) s
/-- FUCOMPP (R758). -/
def execFucompp (s : State) : Host.Outcome State Fault Refusal :=
  escRegister .fucompp (fun u g => g.compareReg true 1 Fpu.pop2 u) s
/-- FTST (R759): a comparison with +0.0. -/
def execFtst (s : State) : Host.Outcome State Fault Refusal :=
  escRegister .ftst (fun u g => g.compareMem (regOperand (extZero false)) id u) s

/-- The codes C3, C2, C0 of ST(0)'s class (R760). A pseudo-denormal is reported as a denormal: 45_fpu_numerics R625 lists it
among the unsupported formats but says that FXAM reports "unsupported" only of the others. DEDUCED (notes/assumptions/70,
UNSAFE). -/
def Fpu.examine (f : Fpu) : Fpu :=
  let x := f.reg 0
  let f := f.setC1 (extNeg x)
  if f.isEmpty 0 then f.setCodes true false true
  else
    match extClass x with
    | .pseudo | .unnormal => f.setCodes false false false
    | .qnan | .snan => f.setCodes false false true
    | .normal => f.setCodes false true false
    | .infinity => f.setCodes false true true
    | .zero => f.setCodes true false false
    | .denormal | .pseudoDenormal => f.setCodes true true false

/-- FXAM (R760). -/
def execFxam (s : State) : Host.Outcome State Fault Refusal := escRegister .fxam (fun _ g => g.examine) s

end Sys2Proof.Machine
end

