-- ==== Sys2Proof/Machine/FpuControl.lean ====
section
/-! DEFINITION. FPU control instructions, WAIT and undefined ESC encodings (49_fpu_control R800 to R821) with the memory
images of the environment (11_fpu_state R83 to R89). -/
namespace Sys2Proof.Machine

/-! ### Control and status words -/

/-- FNINIT (R802). -/
def execFninit (s : State) : Host.Outcome State Fault Refusal :=
  escControl false (modFpu (fun f => Fpu.initialised f.regs)) s

/-- FLDCW (R803). -/
def execFldcw (m : Mem) (s : State) : Host.Outcome State Fault Refusal :=
  escControl true (do
    let v ← loadMem m 0 2 2
    let u ← fresh
    modFpu (fun f => { f with cw := BitVec.ofNat 16 v }.freeAllCodes u)) s

/-- FNSTCW (R804): no state change. -/
def execFnstcw (m : Mem) (s : State) : Host.Outcome State Fault Refusal :=
  escControl false (do
    let t ← get
    storeMem m 2 2 t.fpu.cw.toNat) s

/-- FNSTSW (R805, R806). -/
def execFnstsw (f : FnstswForm) (s : State) : Host.Outcome State Fault Refusal :=
  escControl false (do
    let t ← get
    match f with
    | .mem m => storeMem m 2 2 t.fpu.sw.toNat
    | .ax => setReg .w16 regEAX t.fpu.sw.toNat
    let u ← fresh
    modFpu (fun g => g.freeAllCodes u)) s

/-- The status after FNCLEX: the exception flags and SF cleared, so ES and B too (R807). -/
def FpuStatus.cleared (t : FpuStatus) : FpuStatus :=
  { t with ie := false, de := false, ze := false, oe := false, ue := false, pe := false, sf := false }

/-- FNCLEX (R807): C3 to C0 and TOP are unchanged. -/
def execFnclex (s : State) : Host.Outcome State Fault Refusal :=
  escControl false (modFpu (fun f => { f with st := f.st.cleared })) s

/-! ### Stack management and no operation -/

/-- FINCSTP (R808). -/
def execFincstp (s : State) : Host.Outcome State Fault Refusal :=
  escControl true (do
    let u ← fresh
    modFpu (fun f => ((f.turn 1).freeCodes u).setC1 false)) s

/-- FDECSTP (R809). -/
def execFdecstp (s : State) : Host.Outcome State Fault Refusal :=
  escControl true (do
    let u ← fresh
    modFpu (fun f => ((f.turn 7).freeCodes u).setC1 false)) s

/-- FFREE (R810). -/
def execFfree (i : RegNum) (s : State) : Host.Outcome State Fault Refusal :=
  escControl true (modFpu (fun f => f.free i)) s

/-- FNOP (R811): only the instruction pointer and the opcode change. -/
def execFnop (s : State) : Host.Outcome State Fault Refusal :=
  escControl true (do
    let t ← get
    notePointers .fnop none 0
    modFpu (fun f => { f with dp := t.fpu.dp, ds := t.fpu.ds })) s

/-- FENI (R813): nothing. -/
def execFeni (s : State) : Host.Outcome State Fault Refusal := escControl false (pure ()) s

/-- FDISI (R813): nothing. -/
def execFdisi (s : State) : Host.Outcome State Fault Refusal := escControl false (pure ()) s

/-- FSETPM (R813): nothing. -/
def execFsetpm (s : State) : Host.Outcome State Fault Refusal := escControl false (pure ()) s

/-- WAIT (R812): #NM with MP = 1 and TS = 1 (60_exceptions R855), then the pending-exception check. -/
def execWait (s : State) : Host.Outcome State Fault Refusal :=
  runInstr false false (do
    let t ← get
    if t.mp && t.ts then raiseNM
    pendingCheck) s

/-- An undefined ESC encoding: #NM, else #UD; no pending-exception check (45_fpu_numerics R675 (a)). -/
def execUndefinedEsc (_f : EscForm) (s : State) : Host.Outcome State Fault Refusal :=
  runInstr true false (do
    let t ← get
    if t.em || t.ts then raiseNM
    raiseUD) s

/-! ### The environment (11_fpu_state R62, R63, R83 to R89) -/

/-- The tag of a register (R62, R63). -/
def tagOf (isEmpty : Bool) (x : Ext) : BitVec 2 :=
  if isEmpty then 3
  else
    match extClass x with
    | .zero => 1
    | .normal => 0
    | _ => 2

/-- The tag of Rn. -/
def Fpu.tag (f : Fpu) (n : Nat) : BitVec 2 := tagOf (f.empty.getLsbD n) (f.regs.get (BitVec.ofNat 3 n))

/-- The tag word (R62). -/
def Fpu.tw (f : Fpu) : Word :=
  f.tag 7 ++ f.tag 6 ++ f.tag 5 ++ f.tag 4 ++ f.tag 3 ++ f.tag 2 ++ f.tag 1 ++ f.tag 0

/-- Whether the tag of Rn in a tag word is 11. -/
def tagEmpty (tw : Word) (n : Nat) : Bool := tw.extractLsb' (2 * n) 2 == 3

/-- The empty bits a tag word gives (R63). -/
def emptyOf (tw : Word) : BitVec 8 :=
  BitVec.ofBool (tagEmpty tw 7) ++ BitVec.ofBool (tagEmpty tw 6) ++ BitVec.ofBool (tagEmpty tw 5) ++ BitVec.ofBool (tagEmpty tw 4) ++
    BitVec.ofBool (tagEmpty tw 3) ++ BitVec.ofBool (tagEmpty tw 2) ++ BitVec.ofBool (tagEmpty tw 1) ++ BitVec.ofBool (tagEmpty tw 0)

/-- The instruction pointer as a linear address: selector * 16 + offset (R85). -/
def Fpu.linIp (f : Fpu) : DWord := (f.cs.setWidth 32 <<< 4) + f.ip
/-- The operand pointer as a linear address. -/
def Fpu.linDp (f : Fpu) : DWord := (f.ds.setWidth 32 <<< 4) + f.dp

/-- Sixteen free bits of a reserved field (U17). -/
def reservedField (u : BitVec 128) (n : Nat) : Word := u.extractLsb' (16 * n) 16

/-- The 28-byte protected-mode image (R84), the highest address first. -/
def Fpu.image32p (f : Fpu) (u : BitVec 128) : BitVec 224 :=
  reservedField u 4 ++ f.ds ++ f.dp ++ reservedField u 3 ++ f.cs ++ f.ip ++ reservedField u 2 ++ f.tw ++
    reservedField u 1 ++ f.sw ++ reservedField u 0 ++ f.cw

/-- The 28-byte real-mode image (R85). -/
def Fpu.image32r (f : Fpu) (u : BitVec 128) : BitVec 224 :=
  (0#4 ++ f.linDp.extractLsb' 16 16 ++ 0#12) ++ (reservedField u 4 ++ f.linDp.extractLsb' 0 16) ++
    (0#4 ++ f.linIp.extractLsb' 16 16 ++ 0#1 ++ f.op) ++ (reservedField u 3 ++ f.linIp.extractLsb' 0 16) ++
    (reservedField u 2 ++ f.tw) ++ (reservedField u 1 ++ f.sw) ++ (reservedField u 0 ++ f.cw)

/-- The 14-byte protected-mode image (R86). -/
def Fpu.image16p (f : Fpu) : BitVec 112 :=
  f.ds ++ f.dp.extractLsb' 0 16 ++ f.cs ++ f.ip.extractLsb' 0 16 ++ f.tw ++ f.sw ++ f.cw

/-- The 14-byte real-mode image (R87). -/
def Fpu.image16r (f : Fpu) : BitVec 112 :=
  (f.linDp.extractLsb' 16 4 ++ 0#12) ++ f.linDp.extractLsb' 0 16 ++ (f.linIp.extractLsb' 16 4 ++ 0#1 ++ f.op) ++
    f.linIp.extractLsb' 0 16 ++ f.tw ++ f.sw ++ f.cw

/-- The image of the environment in a mode and size (49_fpu_control R815). -/
def Fpu.image (f : Fpu) (pe : Bool) (z : Size) (u : BitVec 128) : Nat :=
  match pe, z with
  | true, .s32 => (f.image32p u).toNat
  | false, .s32 => (f.image32r u).toNat
  | true, .s16 => f.image16p.toNat
  | false, .s16 => f.image16r.toNat

/-- The bytes of the environment: 14 or 28. -/
def envBytes : Size → Nat
  | .s16 => 14
  | .s32 => 28

/-- The word at byte `k` of an image. -/
def imageWord (v k : Nat) : Word := BitVec.ofNat 16 (v / 2 ^ (8 * k))
/-- The dword at byte `k` of an image. -/
def imageDword (v k : Nat) : DWord := BitVec.ofNat 32 (v / 2 ^ (8 * k))

/-- The environment loaded from an image (R84 to R89). A real-mode image holds linear pointers: they are kept as offsets
with selector 0. A protected-mode image holds no opcode (D20): it stays. A 16-bit protected-mode image holds 16 bits of each
offset (R86): the upper half becomes 0. DESIGN CHOICE (notes/assumptions/52, UNSAFE). -/
def Fpu.loadImage (f : Fpu) (pe : Bool) (z : Size) (v : Nat) : Fpu :=
  let w := z.bytes
  let f := { f with cw := imageWord v 0, st := FpuStatus.ofWord (imageWord v w), empty := emptyOf (imageWord v (2 * w)) }
  match pe, z with
  | true, .s32 => { f with ip := imageDword v 12, cs := imageWord v 16, dp := imageDword v 20, ds := imageWord v 24 }
  | false, .s32 =>
    { f with
      ip := (imageDword v 16).extractLsb' 12 16 ++ imageWord v 12
      cs := 0
      op := (imageWord v 16).extractLsb' 0 11
      dp := (imageDword v 24).extractLsb' 12 16 ++ imageWord v 20
      ds := 0 }
  | true, .s16 =>
    { f with ip := (imageWord v 6).setWidth 32, cs := imageWord v 8, dp := (imageWord v 10).setWidth 32, ds := imageWord v 12 }
  | false, .s16 =>
    { f with
      ip := ((imageWord v 8).extractLsb' 12 4 ++ imageWord v 6).setWidth 32
      cs := 0
      op := (imageWord v 8).extractLsb' 0 11
      dp := ((imageWord v 12).extractLsb' 12 4 ++ imageWord v 10).setWidth 32
      ds := 0 }

/-- All exceptions masked (R816). -/
def Fpu.maskAll (f : Fpu) : Fpu := { f with cw := f.cw ||| 0x3F }

/-- FNSTENV (R816). -/
def execFnstenv (m : Mem) (s : State) : Host.Outcome State Fault Refusal :=
  escControl false (do
    let t ← get
    let u ← fresh
    storeMem m (envBytes t.osz) t.osz.bytes (t.fpu.image t.pe t.osz u)
    let u' ← fresh
    modFpu (fun f => f.maskAll.freeAllCodes u')) s

/-- An environment of which a part was loaded: the control word is 007FH, the rest is free, the data registers stay
(45_fpu_numerics R675 (e)). -/
def Fpu.torn (f : Fpu) (u v : BitVec 128) : Fpu :=
  { f with
    cw := 0x007F
    st := FpuStatus.ofWord (u.extractLsb' 0 16)
    empty := u.extractLsb' 16 8
    op := u.extractLsb' 24 11
    ip := v.extractLsb' 0 32
    cs := v.extractLsb' 32 16
    dp := v.extractLsb' 48 32
    ds := v.extractLsb' 80 16 }

/-- The read of an environment image; a segment violation beyond its first item leaves the environment torn. -/
def loadEnvironment (m : Mem) (n : Nat) : M Nat := fun s =>
  match loadMem m 0 n s.osz.bytes s with
  | .ok v t => .ok v t
  | .error (.exn e) t =>
    match (e.vector == 12 || e.vector == 13), locateMem m s.osz.bytes 1 false s with
    | true, .ok _ _ =>
      .error (.exn e) { t with fpu := t.fpu.torn (Config.freeBits t.freeCtr) (Config.freeBits (t.freeCtr + 1)), freeCtr := t.freeCtr + 2 }
    | _, _ => .error (.exn e) t
  | .error x t => .error x t

/-- FLDENV (R817). -/
def execFldenv (m : Mem) (s : State) : Host.Outcome State Fault Refusal :=
  escControl true (do
    let t ← get
    let v ← loadEnvironment m (envBytes t.osz)
    modFpu (fun f => f.loadImage t.pe t.osz v)) s

/-- The data registers from ST(0) on, the lowest address first. -/
def Fpu.stackImage (f : Fpu) : BitVec 640 :=
  f.reg 7 ++ f.reg 6 ++ f.reg 5 ++ f.reg 4 ++ f.reg 3 ++ f.reg 2 ++ f.reg 1 ++ f.reg 0

/-- FNSAVE (R820). -/
def execFnsave (m : Mem) (s : State) : Host.Outcome State Fault Refusal :=
  escControl false (do
    let t ← get
    let u ← fresh
    let e := envBytes t.osz
    storeMem m (e + 80) t.osz.bytes (t.fpu.image t.pe t.osz u + t.fpu.stackImage.toNat * 2 ^ (8 * e))
    modFpu (fun f => Fpu.initialised f.regs)) s

/-- ST(i) loaded from item `i` of a stack image, its tag kept. -/
def Fpu.loadItem (f : Fpu) (v : Nat) (i : Nat) : Fpu :=
  { f with regs := f.regs.set (f.phys (BitVec.ofNat 3 i)) (BitVec.ofNat 80 (v / 2 ^ (80 * i))) }

/-- All data registers from a stack image. -/
def Fpu.loadStack (f : Fpu) (v : Nat) : Fpu :=
  (((((((f.loadItem v 0).loadItem v 1).loadItem v 2).loadItem v 3).loadItem v 4).loadItem v 5).loadItem v 6).loadItem v 7

/-- FRSTOR (R821). -/
def execFrstor (m : Mem) (s : State) : Host.Outcome State Fault Refusal :=
  escControl true (do
    let t ← get
    let e := envBytes t.osz
    let v ← loadMem m 0 (e + 80) t.osz.bytes
    modFpu (fun f => (f.loadImage t.pe t.osz v).loadStack (v / 2 ^ (8 * e)))) s

end Sys2Proof.Machine
end

