-- ==== Sys2Proof/Machine/FpuApprox.lean ====
section
/-! DEFINITION. Approximations of the transcendental functions (48_fpu_transcendental R770 to R784), within far less than the
2^-62 of R771: truncated series over natural numbers in units of 2^-160. The step does not deliver them as they are; they say
which values `FPU.transc` may take (`transc` in Sys2Proof/Machine/FpuTrans.lean). -/
namespace Sys2Proof.Machine

/-! ### Series -/

/-- A fixed-point number counts units of 2^-160. -/
def apxBits : Nat := 160

/-- How many terms of a series are summed. -/
def apxTerms : Nat := 56

/-- `p` / `q` in fixed point. -/
def fixed (p q : Nat) : Nat := p * 2 ^ apxBits / q

/-- The sums of the terms of even and of odd index of a series from index `k` on, `n` terms: term k + 1 of the power part is
term k times `z` divided by `shrink (k + 1)`, and term k counts divided by `weight k`. -/
def series (z : Nat) (shrink weight : Nat → Nat) : Nat → Nat → Nat → Nat × Nat
  | 0, _, _ => (0, 0)
  | n + 1, k, t =>
    let rest := series z shrink weight n (k + 1) (t * z / 2 ^ apxBits / shrink (k + 1))
    (t / weight k + rest.2, rest.1)

/-- A series of terms of one sign. -/
def plainSeries (z : Nat) (shrink weight : Nat → Nat) : Nat :=
  let r := series z shrink weight apxTerms 0 (2 ^ apxBits)
  r.1 + r.2

/-- A series of terms of alternating sign. -/
def alternatingSeries (z : Nat) (shrink weight : Nat → Nat) : Nat :=
  let r := series z shrink weight apxTerms 0 (2 ^ apxBits)
  r.1 - r.2

/-- sin(r) / r, of z = r^2. -/
def sinFactor (z : Nat) : Nat := alternatingSeries z (fun k => 2 * k * (2 * k + 1)) (fun _ => 1)
/-- cos(r), of z = r^2. -/
def cosFactor (z : Nat) : Nat := alternatingSeries z (fun k => (2 * k - 1) * (2 * k)) (fun _ => 1)
/-- atan(w) / w, of z = w^2. -/
def atanFactor (z : Nat) : Nat := alternatingSeries z (fun _ => 1) (fun k => 2 * k + 1)
/-- atanh(w) / w, of z = w^2. -/
def atanhFactor (z : Nat) : Nat := plainSeries z (fun _ => 1) (fun k => 2 * k + 1)
/-- (e^t - 1) / t, of |t| and whether t is negative. -/
def expFactor (neg : Bool) (t : Nat) : Nat :=
  if neg then alternatingSeries t (fun k => k + 1) (fun _ => 1) else plainSeries t (fun k => k + 1) (fun _ => 1)

/-- ln 2 = 2 atanh(1/3). -/
def lnTwo : Nat := 2 * atanhFactor (fixed 1 9) / 3

/-- `num` / `den` * 2^`exp`, to 128 significant bits or more. -/
def quotient (neg : Bool) (num den : Nat) (exp : Int) : Finite :=
  let n := 128 + bitLen den
  { neg := neg, sig := num * 2 ^ n / den, exp := exp - n }

/-! ### Trigonometric functions -/

/-- Half of the internal pi (R772), in units of 2^-65: 3.243F6A8885A308D3H / 2. -/
def halfPi : Nat := 0x3243F6A8885A308D3

/-- The reduction of |x| by multiples of half the internal pi (R772): the number of quarter turns modulo 4, and what is left,
exactly, at most a quarter of pi in magnitude. -/
def reduceAngle (x : Finite) : Nat × Finite :=
  let unit := min x.exp (-65)
  let m := x.sig * 2 ^ (x.exp - unit).toNat
  let h := halfPi * 2 ^ (-65 - unit).toNat
  let k := (2 * m + h) / (2 * h)
  let r := (m : Int) - k * h
  (k % 4, { neg := decide (r < 0), sig := r.natAbs, exp := unit })

/-- The square of a number in fixed point. -/
def fixedSquare (r : Finite) : Nat :=
  let e := 2 * r.exp + apxBits
  if 0 ≤ e then r.sig * r.sig * 2 ^ e.toNat else r.sig * r.sig / 2 ^ (-e).toNat

/-- The sine of a reduced angle. -/
def sinReduced (r : Finite) : Finite := { r with sig := r.sig * sinFactor (fixedSquare r), exp := r.exp - apxBits }
/-- The cosine of a reduced angle. -/
def cosReduced (r : Finite) : Finite := { neg := false, sig := cosFactor (fixedSquare r), exp := -apxBits }

/-- The opposite number, or the same. -/
def Finite.negIf (x : Finite) (b : Bool) : Finite := { x with neg := x.neg ^^ b }

/-- sin(x). -/
def sinApprox (x : Finite) : Finite :=
  let (k, r) := reduceAngle x
  (if k % 2 = 0 then sinReduced r else cosReduced r).negIf (x.neg ^^ decide (2 ≤ k))

/-- cos(x). -/
def cosApprox (x : Finite) : Finite :=
  let (k, r) := reduceAngle x
  (if k % 2 = 0 then cosReduced r else sinReduced r).negIf (k == 1 || k == 2)

/-- tan(x). -/
def tanApprox (x : Finite) : Finite :=
  let (k, r) := reduceAngle x
  let s := sinReduced r
  let c := cosReduced r
  (if k % 2 = 0 then quotient s.neg s.sig c.sig (s.exp - c.exp)
   else quotient (!s.neg) c.sig s.sig (c.exp - s.exp)).negIf x.neg

/-! ### Arctangent -/

/-- atan(p/q) in fixed point, for p/q at most 1/8. -/
def atanSmall (p q : Nat) : Nat := p * atanFactor (fixed (p * p) (q * q)) / q

/-- atan(j/8) in fixed point: atan(j/8) - atan((j-1)/8) = atan(8 / (64 + j (j - 1))). -/
def atanEighths : Nat → Nat
  | 0 => 0
  | j + 1 => atanEighths j + atanSmall 8 (64 + (j + 1) * j)

/-- atan(p/q) in fixed point, for p/q at most 1: from the nearest eighth. -/
def atanUnit (p q : Nat) : Nat :=
  let j := (16 * p + q) / (2 * q)
  if j * q ≤ 8 * p then atanEighths j + atanSmall (8 * p - j * q) (8 * q + p * j)
  else atanEighths j - atanSmall (j * q - 8 * p) (8 * q + p * j)

/-- The arctangent of y/x in the quadrant of (x, y) (R776). -/
def atanApprox (y x : Finite) : Finite :=
  let e := min y.exp x.exp
  let p := y.sig * 2 ^ (y.exp - e).toNat
  let q := x.sig * 2 ^ (x.exp - e).toNat
  if !x.neg && decide (16 * p < q) then quotient y.neg (p * atanFactor (fixed (p * p) (q * q))) q (-apxBits)
  else
    let h := halfPi * 2 ^ (apxBits - 65)
    let t := if p ≤ q then atanUnit p q else h - atanUnit q p
    { neg := y.neg, sig := if x.neg then 2 * h - t else t, exp := -apxBits }

/-! ### Exponential and logarithms -/

/-- 2^x - 1, for x in -1 to +1. -/
def exp2m1Approx (x : Finite) : Finite :=
  let t := x.sig * lnTwo * 2 ^ x.exp.toNat / 2 ^ (-x.exp).toNat
  { neg := x.neg, sig := x.sig * lnTwo * expFactor x.neg t, exp := x.exp - 2 * apxBits }

/-- y * log2((1 + p/q) / (1 - p/q)) = y * 2 atanh(p/q) / ln 2, p/q with a sign. -/
def ylogRatio (y : Finite) (neg : Bool) (p q : Nat) : Finite :=
  quotient (y.neg ^^ neg) (y.sig * p * 2 * atanhFactor (fixed (p * p) (q * q))) (q * lnTwo) y.exp

/-- y * log2(x), x positive: x = 2^e * m with m between the square roots of 1/2 and of 2. -/
def ylog2Approx (y x : Finite) : Finite :=
  let n := bitLen x.sig
  let big := decide (2 ^ (2 * n - 1) ≤ x.sig * x.sig)
  let e := leading x.sig x.exp + (if big then 1 else 0)
  let d := 2 ^ (if big then n else n - 1)
  let neg := decide (x.sig < d)
  let p := if neg then d - x.sig else x.sig - d
  let q := x.sig + d
  if e = 0 then ylogRatio y neg p q
  else
    let f := 2 ^ apxBits * p * 2 * atanhFactor (fixed (p * p) (q * q)) / (q * lnTwo)
    let v := e * 2 ^ apxBits + (if neg then -(f : Int) else f)
    { neg := y.neg ^^ decide (v < 0), sig := y.sig * v.natAbs, exp := y.exp - apxBits }

/-- y * log2(x + 1), for |x| at most 1 - sqrt(2)/2. -/
def ylog2p1Approx (y x : Finite) : Finite :=
  let d := 2 ^ (1 - x.exp).toNat
  ylogRatio y x.neg x.sig (if x.neg then d - x.sig else d + x.sig)

end Sys2Proof.Machine
end

