-- ==== Sys2Proof/Machine/FpuTrans.lean ====
section
/-! DEFINITION. FPU transcendental instructions (48_fpu_transcendental R770 to R784) with the special operands of
45_fpu_numerics R612, R613 and R630. -/
namespace Sys2Proof.Machine

/-! ### `FPU.transc` (R771, 92_eei_decisions D22) -/

/-- A value next below in magnitude, by less than any rounding sees: no value of these functions but the exact cases is a
rational number, so none is exact. -/
def Finite.notExact (x : Finite) : Finite := { x with sig := x.sig * 2 ^ 128 - 1, exp := x.exp - 128 }

/-- Whether `v`, rounded to 64 bits by RC, lies within the relative error 2^-62 of `a` (R771); a 64th part of the bound is
kept for the error of `a` itself. -/
def withinBound (rc : BitVec 2) (v a : Finite) : Bool :=
  let unit := unitFor 64 v
  let e := min unit a.exp
  let m := (roundAt rc v unit).q * 2 ^ (unit - e).toNat
  let n := a.sig * 2 ^ (a.exp - e).toNat
  v.neg == a.neg && decide (((m : Int) - n).natAbs * 2 ^ 62 < n - n / 64)

/-- Whether a value, rounded to 64 bits by RC, is at most 1 in magnitude. -/
def atMostOne (rc : BitVec 2) (v : Finite) : Bool :=
  decide ((roundAt rc v (unitFor 64 v)).q ≤ 2 ^ (-unitFor 64 v).toNat)

/-- Whether a value is an angle of the quadrants of X: at most half of pi for X > 0, from half of pi to pi for X < 0 (R776). -/
def inQuadrant (xNeg : Bool) (v : Finite) : Bool :=
  let e := min v.exp (-65)
  let m := v.sig * 2 ^ (v.exp - e).toNat
  let h := halfPi * 2 ^ (-65 - e).toNat
  if xNeg then decide (h ≤ m) && decide (m ≤ 2 * h) else decide (m ≤ h)

/-- What a value of a function must meet beside the error bound: sines and cosines are at most 1, an arctangent lies in the
quadrants of X. -/
def transcLawful (op : Transc) (rc : BitVec 2) (x v : Finite) : Bool :=
  match op with
  | .sin | .cos => atMostOne rc v
  | .atan => inQuadrant x.neg v
  | .tan | .exp2m1 | .ylog2 | .ylog2p1 => true

/-- The approximation of a function; of two operands `x` is ST(0). -/
def transcApprox (op : Transc) (x y : Finite) : Finite :=
  match op with
  | .tan => tanApprox x
  | .atan => atanApprox y x
  | .sin => sinApprox x
  | .cos => cosApprox x
  | .exp2m1 => exp2m1Approx x
  | .ylog2 => ylog2Approx y x
  | .ylog2p1 => ylog2p1Approx y x

/-- The value a function delivers before rounding: that of `Config.transc` where it is within the bound and lawful, else the
approximation (notes/assumptions/33). -/
def transcValue (f : Fpu) (op : Transc) (x y : Ext) : Finite :=
  let a := transcApprox op (extFinite x) (extFinite y)
  let (neg, sig, exp) := Config.transc op x y f.rc f.pc
  let v : Finite := { neg := neg, sig := sig, exp := exp }
  if withinBound f.rc v.notExact a && transcLawful op f.rc (extFinite x) v.notExact then v.notExact else a.notExact

/-- A function value that no rule makes exact, rounded to a register: P is always met (R770). -/
def transc (f : Fpu) (op : Transc) (x y : Ext) : Num := roundReg f 64 (transcValue f op x y)

/-- `k` times a quarter of the 66-bit internal pi, rounded (R772, R612). -/
def quarterPi (f : Fpu) (neg : Bool) (k : Nat) : Num :=
  roundReg f 64 { neg := neg, sig := k * 0xC90FDAA22168C234C, exp := -68 }

/-- A value that is +1.0 in magnitude. -/
def isOne (x : Ext) : Bool := setBit x 79 false = extOne

/-! ### Trigonometric (R775, R777 to R779) -/

/-- Whether a finite value is at least 2^63 in magnitude. -/
def tooLarge (a : Ext) : Bool := decide (leading (extFinite a).sig (extFinite a).exp ≥ 63)

/-- The value of a trigonometric function: exact at zero. -/
def trigValue (f : Fpu) (op : Transc) (a : Ext) : Num :=
  if isZero a then (match op with | .cos => Num.exact extOne | _ => Num.exact a)
  else transc f op a a

/-- A trigonometric instruction on ST(0), which holds `a`: NaNs, an infinity (C2 set, C1 undefined), an argument out of
range (the same, and nothing else), or `value` with C2 = 0. `write` delivers a result that stands for all its destinations.
DESIGN CHOICE (notes/assumptions/44): with an unmasked I an infinity leaves C2 free, with an unmasked D a denormal leaves
C2 = 0; 11_fpu_state R74 and the rules say neither. -/
def Fpu.trig (f : Fpu) (a : Ext) (write : Ext → Fpu → Fpu) (value : Fpu → Fpu) (u : BitVec 128) : Fpu :=
  match beforeDenormal none a a with
  | some n => f.commit n write
  | none =>
    if isInf a then f.commit (Num.invalid indefinite) (fun v g => ((write v g).setC2 true).setC1 (u.getLsbD 3))
    else if tooLarge a then (f.setC2 true).setC1 (u.getLsbD 3)
    else value (f.setC2 false)

/-- FSIN and FCOS. -/
def Fpu.trig1 (f : Fpu) (op : Transc) (u : BitVec 128) : Fpu :=
  if f.isEmpty 0 then f.stackFault false (fun g => g.put 0 indefinite)
  else
    let a := f.reg 0
    f.trig a (fun v g => g.put 0 v)
      (fun g => g.commit ((trigValue g op a).withDenormal (extClass a).isDenormal) (fun v h => h.put 0 v)) u

/-- FSIN (R777). -/
def execFsin (s : State) : Host.Outcome State Fault Refusal :=
  escRegister .fsin (fun u g => (g.freeCodes u).trig1 .sin u) s

/-- FCOS (R778). -/
def execFcos (s : State) : Host.Outcome State Fault Refusal :=
  escRegister .fcos (fun u g => (g.freeCodes u).trig1 .cos u) s

/-- FPTAN (R775): the tangent, with 1.0 above it. When ST(7) is not empty C1 is 1: R775 has "C1 <- 0 on stack
fault", where R74 and R640 give 1 for an overflow and 0 for an underflow; R640 is followed. DEDUCED (notes/assumptions/82,
UNSAFE). -/
def execFptan (s : State) : Host.Outcome State Fault Refusal :=
  escRegister .fptan (fun u g =>
    (g.freeCodes u).extend (fun a f => f.trig a (fun v h => h.putPush v v)
      (fun h => h.commit ((trigValue h .tan a).withDenormal (extClass a).isDenormal) (fun v k => k.putPush v extOne)) u)) s

/-- Two results of one instruction: the exceptions of both; C1 is the direction of the last rounding (R605). -/
def Num.also (n : Num) (m : Num) : Num := { val := n.val, exc := n.exc ||| m.exc, up := m.up }

/-- FSINCOS (R779): the sine, with the cosine above it. -/
def execFsincos (s : State) : Host.Outcome State Fault Refusal :=
  escRegister .fsincos (fun u g =>
    (g.freeCodes u).extend (fun a f => f.trig a (fun v h => h.putPush v v)
      (fun h =>
        let c := trigValue h .cos a
        h.commit (((trigValue h .sin a).also c).withDenormal (extClass a).isDenormal) (fun v k => k.putPush v c.val)) u)) s

/-! ### FPATAN (R776) -/

/-- The arctangent of Y / X in the quadrant of (X, Y), `a` = Y, `b` = X (45_fpu_numerics R612, R613); pi / 4 for 1 / 1
to nearest (the example of R776). -/
def atanCompute (f : Fpu) (a b : Ext) : Num :=
  let ny := extNeg a
  let nx := extNeg b
  if isZero a then (if nx then quarterPi f ny 4 else Num.exact a)
  else if isInf a then
    if isInf b then quarterPi f ny (if nx then 3 else 1) else quarterPi f ny 2
  else if isZero b then quarterPi f ny 2
  else if isInf b then (if nx then quarterPi f ny 4 else Num.exact (extZero ny))
  else if a = extOne && b = extOne && f.rc == 0 then quarterPi f false 1
  else transc f .atan b a

/-- FPATAN (R776). -/
def execFpatan (s : State) : Host.Outcome State Fault Refusal :=
  escRegister .fpatan (fun u g => (g.freeCodes u).binary 1 0 Fpu.pop (numeric2 (fun _ _ => none) (atanCompute g))) s

/-! ### F2XM1 (R782) -/

/-- An undefined result (U18): any value and any PE; C1 may be 1 only with PE (45_fpu_numerics R605). -/
def undefinedResult (w : BitVec 128) : Num :=
  { val := w.extractLsb' 0 80, exc := excIf (w.getLsbD 80) excP, up := w.getLsbD 80 && w.getLsbD 81 }

/-- 2^x - 1 for x in -1 to +1; a free value beyond (U18). -/
def exp2m1Compute (f : Fpu) (w : BitVec 128) (a : Ext) : Num :=
  let x := extFinite a
  if isInf a then Num.exact (if extNeg a then extPack true 0x3FFF (2 ^ 63) else a)
  else if isZero a then Num.exact a
  else if isOne a then Num.exact (if extNeg a then extPack true 0x3FFE (2 ^ 63) else extOne)
  else if leading x.sig x.exp ≥ 0 then undefinedResult w
  else transc f .exp2m1 a a

/-- F2XM1 (R782). -/
def execF2xm1 (s : State) : Host.Outcome State Fault Refusal :=
  escRegister2 .f2xm1 (fun u w g => (g.freeCodes u).unary (numeric1 (fun _ => none) (exp2m1Compute g w))) s

/-! ### FYL2X (R783) and FYL2XP1 (R784) -/

/-- Whether a finite positive number is a power of two. -/
def isPower (x : Finite) : Bool := x.sig == 2 ^ (bitLen x.sig - 1)

/-- The sign of log2 of a finite positive number other than 1: minus below 1. -/
def logNeg (x : Finite) : Bool := decide (leading x.sig x.exp < 0)

/-- The invalid cases and the zero divide of Y * log2(X), `a` = Y, `b` = X (45_fpu_numerics R612, R613, R630, R648). -/
def ylog2Special (a b : Ext) : Option Num :=
  if extNeg b && !isZero b then some (Num.invalid indefinite)
  else if (isZero b && isZero a) || (isInf b && isZero a) || (isInf a && b = extOne) then some (Num.invalid indefinite)
  else if isZero b && !isInf a then some { val := extInf (!extNeg a), exc := excZ, up := false }
  else none

/-- Y * log2(X): exact products for infinities, zeros and powers of two. An infinite Y with X = ±0 gives, with no exception,
an infinity of the sign opposite to Y's: 45_fpu_numerics R613, R648 and R783 speak of a finite Y only. DESIGN CHOICE
(notes/assumptions/68, UNSAFE). A zero result, of X = 1 or of Y = ±0 with a finite X, has the sign of Y times that of log2(X),
log2(1) counting as plus: R612, R613 and R783 have no row for it. DESIGN CHOICE (notes/assumptions/76, UNSAFE). -/
def ylog2Compute (f : Fpu) (a b : Ext) : Num :=
  let y := extFinite a
  let x := extFinite b
  if isInf b then Num.exact (extInf (extNeg a))
  else if isInf a then Num.exact (extInf (extNeg a ^^ logNeg x))
  else if isZero a then Num.exact (extZero (extNeg a ^^ logNeg x))
  else if isPower x then
    let e := leading x.sig x.exp
    roundReg f 64 { neg := y.neg ^^ decide (e < 0), sig := y.sig * e.natAbs, exp := y.exp }
  else transc f .ylog2 b a

/-- FYL2X (R783). -/
def execFyl2x (s : State) : Host.Outcome State Fault Refusal :=
  escRegister .fyl2x (fun u g => (g.freeCodes u).binary 1 0 Fpu.pop (numeric2 ylog2Special (ylog2Compute g))) s

/-- Whether a finite number is below -1. -/
def belowMinusOne (b : Ext) : Bool :=
  let x := extFinite b
  x.neg && !isOne b && decide (leading x.sig x.exp ≥ 0)

/-- The invalid cases of Y * log2(X + 1) (45_fpu_numerics R613, R630). -/
def ylog2p1Special (a b : Ext) : Option Num :=
  if belowMinusOne b || (isInf b && extNeg b) || (isZero b && isInf a) || (isInf b && isZero a) then
    some (Num.invalid indefinite)
  else none

/-- |X| <= 1 - sqrt(2)/2, for X below 1 in magnitude: 2 (1 - |X|)^2 >= 1. -/
def inLogRange (x : Finite) : Bool :=
  let d := 2 ^ (-x.exp).toNat
  decide (leading x.sig x.exp < 0) && decide (2 * (d - x.sig) * (d - x.sig) ≥ d * d)

/-- Y * log2(X + 1); a free value for X out of range (U18). The zero of Y = ±0 and a nonzero X in range has the sign of Y times that
of X: R612, R613 and R784 have rows for X = ±0 only. DESIGN CHOICE (notes/assumptions/76, UNSAFE). -/
def ylog2p1Compute (f : Fpu) (w : BitVec 128) (a b : Ext) : Num :=
  let x := extFinite b
  if isInf b then Num.exact (extInf (extNeg a))
  else if isZero b then Num.exact (extZero (extNeg a ^^ extNeg b))
  else if isInf a && !(isOne b && extNeg b) then Num.exact (extInf (extNeg a ^^ extNeg b))
  else if !inLogRange x then undefinedResult w
  else if isZero a then Num.exact (extZero (extNeg a ^^ extNeg b))
  else transc f .ylog2p1 b a

/-- FYL2XP1 (R784). -/
def execFyl2xp1 (s : State) : Host.Outcome State Fault Refusal :=
  escRegister2 .fyl2xp1 (fun u w g => (g.freeCodes u).binary 1 0 Fpu.pop (numeric2 ylog2p1Special (ylog2p1Compute g w))) s

end Sys2Proof.Machine
end

