-- ==== Sys2Proof/Machine/Shift.lean ====
section
/-! DEFINITION. Rotates, shifts, double-precision shifts (42_integer R429 to R438), bit tests (40_integer R343, 42_integer
R439 to R442) and bit scans (40_integer R339, R340). -/
namespace Sys2Proof.Machine

/-! ### Rotates and shifts (R429)

Each operation takes N, the count c (1 to 31), the operand and the flags before, and gives the result, the new CF and,
where it is defined, the new OF. -/

/-- What a rotate or shift produces: the result, CF and OF; `none` is undefined, a free value (U2). -/
structure Shifted where
  val : Nat
  cf : Option Bool
  ovf : Option Bool
  deriving DecidableEq, Repr

/-- OF is defined for a count of 1 only (R429). -/
def ofOne (c : Nat) (b : Bool) : Option Bool := if c = 1 then some b else none

/-- ROL (R430). -/
def rolOp (n c a : Nat) : Shifted :=
  let k := c % n
  let r := (a * 2 ^ k + a / 2 ^ (n - k)) % 2 ^ n
  { val := r, cf := some (r.testBit 0), ovf := ofOne c (r.testBit (n - 1) ^^ r.testBit 0) }

/-- ROR (R431). -/
def rorOp (n c a : Nat) : Shifted :=
  let k := c % n
  let r := (a / 2 ^ k + a * 2 ^ (n - k)) % 2 ^ n
  { val := r, cf := some (r.testBit (n - 1)), ovf := ofOne c (r.testBit (n - 1) ^^ r.testBit (n - 2)) }

/-- One place of RCL: the operand and CF (R432). -/
def rclStep (n : Nat) : Nat → Nat × Bool → Nat × Bool
  | 0, x => x
  | k + 1, (a, cf) => rclStep n k ((a * 2 + carry cf) % 2 ^ n, a.testBit (n - 1))

/-- One place of RCR: the operand and CF (R433). -/
def rcrStep (n : Nat) : Nat → Nat × Bool → Nat × Bool
  | 0, x => x
  | k + 1, (a, cf) => rcrStep n k (a / 2 + carry cf * 2 ^ (n - 1), a.testBit 0)

/-- RCL by k = c mod (N + 1) places (R432). -/
def rclOp (n c a : Nat) (cf : Bool) : Shifted :=
  let (r, c') := rclStep n (c % (n + 1)) (a, cf)
  { val := r, cf := some c', ovf := ofOne c (r.testBit (n - 1) ^^ c') }

/-- RCR by k = c mod (N + 1) places (R433): OF from before the rotate. -/
def rcrOp (n c a : Nat) (cf : Bool) : Shifted :=
  let (r, c') := rcrStep n (c % (n + 1)) (a, cf)
  { val := r, cf := some c', ovf := ofOne c (a.testBit (n - 1) ^^ cf) }

/-- SHL (R434): CF undefined for a count above N. For a count of N, the formula `CF <- bit N - c` gives bit 0, and the prose
leaves CF undefined; the model follows the formula. DESIGN CHOICE (notes/assumptions/74, UNSAFE). -/
def shlOp (n c a : Nat) : Shifted :=
  let r := a * 2 ^ c % 2 ^ n
  let cf := a.testBit (n - c)
  { val := r, cf := if c ≤ n then some cf else none, ovf := ofOne c (r.testBit (n - 1) ^^ cf) }

/-- SHR (R435). -/
def shrOp (n c a : Nat) : Shifted :=
  { val := a / 2 ^ c, cf := if c ≤ n then some (a.testBit (c - 1)) else none, ovf := ofOne c (a.testBit (n - 1)) }

/-- SAR (R436): the sign is replicated. -/
def sarOp (n c a : Nat) : Shifted :=
  { val := ofSigned n (toSigned n a / (2 ^ c : Nat))
    cf := some (if c ≤ n then a.testBit (c - 1) else a.testBit (n - 1))
    ovf := ofOne c false }

/-- A defined value, or a free one. -/
def orFree (b : Option Bool) : M Bool := do
  match b with
  | some b => pure b
  | none => freshBool

/-- The flags of a rotate: CF and OF only (R429). -/
def rotateFlags (x : Shifted) : M Unit := do
  let c ← orFree x.cf
  let o ← orFree x.ovf
  modFlags (fun f => { f with cf := c, ovf := o })

/-- The flags of a shift: CF, OF, SF, ZF, PF; AF free (R429). -/
def shiftFlags (n : Nat) (x : Shifted) : M Unit := do
  let c ← orFree x.cf
  let o ← orFree x.ovf
  let u ← freshBool
  modFlags (fun f => szp n x.val { f with cf := c, ovf := o, af := u })

/-- A group 2 instruction on an operand. With a count of 0 nothing is written (R429); a memory operand is still read
(notes/assumptions/15). `op N c a` changes the flags and gives the result; `live` says whether count c changes anything. -/
def groupTwo (live : Nat → Nat → Bool) (op : Nat → Nat → Nat → M Nat) (w : Width) (m : Rm) (count : Nat) : M Unit := do
  let c := count % 32
  if live w.bits c then modifyRm w m (op w.bits c)
  else
    match m with
    | .reg _ => pure ()
    | .mem _ => do
      let _ ← readRm w m

/-- The forms of a rotate or shift (R429). -/
def shiftBody (live : Nat → Nat → Bool) (op : Nat → Nat → Nat → M Nat) (f : ShiftForm) : M Unit := do
  let v ← getWidth
  let cl ← getReg .w8 regECX
  match f with
  | .ebIb m imm => groupTwo live op .w8 m imm.toNat
  | .evIb m imm => groupTwo live op v m imm.toNat
  | .eb1 m => groupTwo live op .w8 m 1
  | .ev1 m => groupTwo live op v m 1
  | .ebCl m => groupTwo live op .w8 m cl
  | .evCl m => groupTwo live op v m cl

/-- A count that is not 0 (R429). -/
def liveCount (_ c : Nat) : Bool := c != 0

/-- RCL and RCR: a count that is not 0 modulo N + 1 (R432, R433). A memory operand with another count that is not 0 (9, 18 or 27
for a byte, 17 for a word) is read only, with no check for a write: R429 has the destination written for every count that is
not 0, R432 and R433 end before. DESIGN CHOICE (notes/assumptions/15, UNSAFE). -/
def liveThrough (n c : Nat) : Bool := c % (n + 1) != 0

/-- ROL (R430). -/
def execRol (f : ShiftForm) (s : State) : Host.Outcome State Fault Refusal :=
  runInstr false false (shiftBody liveCount (fun n c a => do
    rotateFlags (rolOp n c a)
    pure (rolOp n c a).val) f) s

/-- ROR (R431). -/
def execRor (f : ShiftForm) (s : State) : Host.Outcome State Fault Refusal :=
  runInstr false false (shiftBody liveCount (fun n c a => do
    rotateFlags (rorOp n c a)
    pure (rorOp n c a).val) f) s

/-- RCL (R432). -/
def execRcl (f : ShiftForm) (s : State) : Host.Outcome State Fault Refusal :=
  runInstr false false (shiftBody liveThrough (fun n c a => do
    let t ← get
    rotateFlags (rclOp n c a t.flags.cf)
    pure (rclOp n c a t.flags.cf).val) f) s

/-- RCR (R433). -/
def execRcr (f : ShiftForm) (s : State) : Host.Outcome State Fault Refusal :=
  runInstr false false (shiftBody liveThrough (fun n c a => do
    let t ← get
    rotateFlags (rcrOp n c a t.flags.cf)
    pure (rcrOp n c a t.flags.cf).val) f) s

/-- The result of a shift, its flags set. -/
def shiftWith (op : Nat → Nat → Nat → Shifted) (n c a : Nat) : M Nat := do
  shiftFlags n (op n c a)
  pure (op n c a).val

/-- The rows of SHL as a common form: /6 is an alias of /4 (R429). -/
def ShlForm.common : ShlForm → ShiftForm
  | .ebIb m imm | .ebIb6 m imm => .ebIb m imm
  | .evIb m imm | .evIb6 m imm => .evIb m imm
  | .eb1 m | .eb16 m => .eb1 m
  | .ev1 m | .ev16 m => .ev1 m
  | .ebCl m | .ebCl6 m => .ebCl m
  | .evCl m | .evCl6 m => .evCl m

/-- SHL and SAL (R434). -/
def execShl (f : ShlForm) (s : State) : Host.Outcome State Fault Refusal :=
  runInstr false false (shiftBody liveCount (shiftWith shlOp) (ShlForm.common f)) s

/-- SHR (R435). -/
def execShr (f : ShiftForm) (s : State) : Host.Outcome State Fault Refusal :=
  runInstr false false (shiftBody liveCount (shiftWith shrOp) f) s

/-- SAR (R436). -/
def execSar (f : ShiftForm) (s : State) : Host.Outcome State Fault Refusal :=
  runInstr false false (shiftBody liveCount (shiftWith sarOp) f) s

/-! ### Double-precision shifts (R437, R438) -/

/-- The result and flags of SHLD or SHRD for a count c from 1 to 31; all free when c > N (U22). `r` and `cf` are the
result and CF for c ≤ N. -/
def dshiftOp (r : Nat → Nat → Nat → Nat → Nat) (cf : Nat → Nat → Nat → Bool) (b n c a : Nat) : M Nat := do
  if c > n then
    let u ← fresh
    modFlags (freeStatus u)
    pure (u.toNat / 2 ^ 64 % 2 ^ n)
  else do
    let x := r n c a b
    shiftFlags n { val := x, cf := some (cf n c a), ovf := ofOne c (x.testBit (n - 1) != a.testBit (n - 1)) }
    pure x

/-- SHLD: bits of SRC come in from the right (R437). -/
def shldVal (n c a b : Nat) : Nat := (a * 2 ^ c + b / 2 ^ (n - c)) % 2 ^ n

/-- SHRD: bits of SRC come in from the left (R438). -/
def shrdVal (n c a b : Nat) : Nat := (a / 2 ^ c + b * 2 ^ (n - c)) % 2 ^ n

/-- The forms of SHLD and SHRD. -/
def dshiftBody (op : Nat → Nat → Nat → Nat → M Nat) (f : DshiftForm) : M Unit := do
  let v ← getWidth
  let cl ← getReg .w8 regECX
  match f with
  | .ib r m imm => do
    let b ← getReg v r
    groupTwo liveCount (op b) v m imm.toNat
  | .cl r m => do
    let b ← getReg v r
    groupTwo liveCount (op b) v m cl

/-- SHLD (R437). -/
def execShld (f : DshiftForm) (s : State) : Host.Outcome State Fault Refusal :=
  runInstr false false (dshiftBody (dshiftOp shldVal (fun n c a => a.testBit (n - c))) f) s

/-- SHRD (R438). -/
def execShrd (f : DshiftForm) (s : State) : Host.Outcome State Fault Refusal :=
  runInstr false false (dshiftBody (dshiftOp shrdVal (fun _ c a => a.testBit (c - 1))) f) s

/-! ### Bit tests (40_integer R343, 42_integer R439) -/

/-- A selected bit: the operand that holds it, or its offset in memory, and its number. -/
inductive BitPlace where
  | reg (r : RegNum) (bit : Nat)
  | mem (m : Mem) (delta : Int) (bit : Nat)
  deriving DecidableEq, Repr

/-- The bit `Bit[base, offset]` selects (30_encoding R296, 40_integer R343). -/
def bitPlace (v : Width) (m : Rm) (off : Int) : BitPlace :=
  match m with
  | .reg r => .reg r (off % v.bits).toNat
  | .mem a => .mem a (off / v.bits * v.bytes) (off % v.bits).toNat

/-- The bit a form selects: an immediate offset is taken modulo N, a register offset is signed (40_integer R343). -/
def selectBit (f : BitForm) : M BitPlace := do
  let v ← getWidth
  match f with
  | .evIb m imm => pure (bitPlace v m (imm.toNat % v.bits : Nat))
  | .evGv r m => do
    let x ← getReg v r
    pure (bitPlace v m (toSigned v.bits x))

/-- The offset of the unit that holds a selected bit: the effective address and `delta`, modulo 2^AddressSize. The formula of
40_integer R343 writes no modulus. DESIGN CHOICE (notes/assumptions/69, UNSAFE). -/
def State.bitOff (s : State) (m : Mem) (delta : Int) : Nat := (((s.memOff m : Int) + delta) % (2 ^ s.asz.bits : Nat)).toNat

/-- CF from the bit; OF, SF, ZF, AF, PF free (40_integer R343). -/
def bitFlags (b : Bool) : M Unit := do
  let u ← fresh
  modFlags (fun f => { freeStatus u f with cf := b })

/-- BT (40_integer R343): nothing is written. -/
def btBody (f : BitForm) : M Unit := do
  let v ← getWidth
  match ← selectBit f with
  | .reg r bit => do
    let x ← getReg v r
    bitFlags (x.testBit bit)
  | .mem m delta bit => do
    let s ← get
    let x ← load (s.memSeg m) (s.bitOff m delta) v.bytes v.bytes
    bitFlags (x.testBit bit)

/-- BTS, BTR, BTC (R439): `new` gives the bit's new value from its old one. -/
def bitModify (new : Bool → Bool) (f : BitForm) : M Unit := do
  let v ← getWidth
  let change (bit x : Nat) : Nat :=
    let b := x.testBit bit
    if new b = b then x else x ^^^ 2 ^ bit
  match ← selectBit f with
  | .reg r bit => do
    let x ← getReg v r
    setReg v r (change bit x)
    bitFlags (x.testBit bit)
  | .mem m delta bit => do
    let s ← get
    let ps ← locate (s.memSeg m) (s.bitOff m delta) v.bytes v.bytes true
    let x ← readLocked ps
    writeBytes ps (change bit x)
    bitFlags (x.testBit bit)

/-- The r/m operand of a bit test. -/
def BitForm.rm : BitForm → Rm
  | .evGv _ m => m
  | .evIb m _ => m

/-- BT (40_integer R343). -/
def execBt (f : BitForm) (s : State) : Host.Outcome State Fault Refusal := runInstr false false (btBody f) s

/-- BTS (R440). -/
def execBts (f : BitForm) (s : State) : Host.Outcome State Fault Refusal :=
  runInstr (BitForm.rm f).isMem false (bitModify (fun _ => true) f) s

/-- BTR (R441). -/
def execBtr (f : BitForm) (s : State) : Host.Outcome State Fault Refusal :=
  runInstr (BitForm.rm f).isMem false (bitModify (fun _ => false) f) s

/-- BTC (R442). -/
def execBtc (f : BitForm) (s : State) : Host.Outcome State Fault Refusal :=
  runInstr (BitForm.rm f).isMem false (bitModify (fun b => !b) f) s

/-! ### Bit scans (40_integer R339, R340) -/

/-- The lowest set bit among bits `i` to `i + k - 1`; `i + k` when there is none. -/
def lowestBit (x : Nat) : Nat → Nat → Nat
  | 0, i => i
  | k + 1, i => if x.testBit i then i else lowestBit x k (i + 1)

/-- The highest set bit below `k`; 0 when there is none. -/
def highestBit (x : Nat) : Nat → Nat
  | 0 => 0
  | k + 1 => if x.testBit k then k else highestBit x k

/-- BSF and BSR: ZF says whether the source is 0, and then the register is free (U3); the other five flags are free. -/
def scanBody (index : Nat → Nat → Nat) (r : RegNum) (m : Rm) : M Unit := do
  let v ← getWidth
  let x ← readRm v m
  let u ← fresh
  if x = 0 then setReg v r (u.toNat / 2 ^ 64 % 2 ^ v.bits)
  else setReg v r (index v.bits x)
  modFlags (fun f => { freeStatus u f with zf := x == 0 })

/-- BSF (40_integer R339). -/
def execBsf (r : RegNum) (m : Rm) (s : State) : Host.Outcome State Fault Refusal :=
  runInstr false false (scanBody (fun n x => lowestBit x n 0) r m) s

/-- BSR (40_integer R340). -/
def execBsr (r : RegNum) (m : Rm) (s : State) : Host.Outcome State Fault Refusal :=
  runInstr false false (scanBody (fun n x => highestBit x n) r m) s

end Sys2Proof.Machine
end

