-- ==== Sys2Proof/Machine/Strings.lean ====
section
/-! DEFINITION. String instructions (42_integer R450 to R458). A repeated instruction runs one iteration in a step: EIP
goes back to its first prefix until it ends, so that interrupts and traps are taken between iterations (R458). -/
namespace Sys2Proof.Machine

/-- eSI, eDI, eCX: the 16- or 32-bit register by AddressSize (R450). -/
def getIndex (r : RegNum) : M Nat := fun s => .ok (s.regs.read s.asz.width r) s

/-- Advances eSI or eDI by an element of `n` bytes, down when DF = 1 (R450). -/
def advance (r : RegNum) (n : Nat) : M Unit := fun s =>
  let v := s.regs.read s.asz.width r
  let z := 2 ^ s.asz.bits
  .ok () { s with regs := s.regs.write s.asz.width r (if s.flags.df then (v + z - n) % z else (v + n) % z) }

/-- Reads the element at seg:eSI; DS unless overridden (R450). -/
def loadSource (n : Nat) : M Nat := do
  let si ← getIndex regESI
  let s ← get
  load (s.dec.seg.getD .ds) si n n

/-- Reads the element at ES:eDI (R450). -/
def loadDest (n : Nat) : M Nat := do
  let di ← getIndex regEDI
  load .es di n n

/-- The places of the element at ES:eDI, checked for a write. -/
def destPlaces (n : Nat) : M (List BytePlace) := do
  let di ← getIndex regEDI
  locate .es di n n true

/-- The repeat prefixes (R458). `scan`: CMPS and SCAS, which also end on ZF. -/
def repeated (scan : Bool) (once : M Unit) : M Unit := do
  let s ← get
  match s.dec.rep with
  | none => once
  | some r => do
    let n ← getIndex regECX
    if n = 0 then pure ()
    else do
      once
      let t ← get
      setReg s.asz.width regECX (n - 1)
      let zEnds : Bool := match r with
        | .rep => !t.flags.zf
        | .repne => t.flags.zf
      if n = 1 ∨ (scan && zEnds) then pure ()
      else modify (fun t => { t with
        eip := t.eip - BitVec.ofNat 32 s.dec.len
        latch := { t.latch with repActive := true } })

/-- MOVS, once (R451). -/
def movsOnce (w : Width) : M Unit := do
  let v ← loadSource w.bytes
  let ps ← destPlaces w.bytes
  writeBytes ps v
  advance regESI w.bytes
  advance regEDI w.bytes

/-- CMPS, once (R452): the element at eSI is the minuend. -/
def cmpsOnce (w : Width) : M Unit := do
  let a ← loadSource w.bytes
  let b ← loadDest w.bytes
  modFlags (subFlags w.bits a b 0)
  advance regESI w.bytes
  advance regEDI w.bytes

/-- SCAS, once (R453). -/
def scasOnce (w : Width) : M Unit := do
  let a ← getReg w regEAX
  let b ← loadDest w.bytes
  modFlags (subFlags w.bits a b 0)
  advance regEDI w.bytes

/-- LODS, once (R454). -/
def lodsOnce (w : Width) : M Unit := do
  let v ← loadSource w.bytes
  setReg w regEAX v
  advance regESI w.bytes

/-- STOS, once (R455). -/
def stosOnce (w : Width) : M Unit := do
  let v ← getReg w regEAX
  let ps ← destPlaces w.bytes
  writeBytes ps v
  advance regEDI w.bytes

/-- INS, once (R456): the destination is checked before the port is read (D8). -/
def insOnce (w : Width) : M Unit := do
  let port ← getReg .w16 regEDX
  ioCheck port w.bytes
  let ps ← destPlaces w.bytes
  let v ← ioRead port w.bytes
  writeBytes ps v
  advance regEDI w.bytes

/-- OUTS, once (R457). -/
def outsOnce (w : Width) : M Unit := do
  let port ← getReg .w16 regEDX
  ioCheck port w.bytes
  let v ← loadSource w.bytes
  ioWrite port w.bytes v
  advance regESI w.bytes

/-- A word or dword string instruction, by OperandSize. -/
def wordString (scan : Bool) (once : Width → M Unit) : M Unit := do
  let v ← getWidth
  repeated scan (once v)

/-- MOVSB (R451). -/
def execMovsb (s : State) : Host.Outcome State Fault Refusal := runInstr false false (repeated false (movsOnce .w8)) s

/-- MOVSW and MOVSD (R451). -/
def execMovsv (s : State) : Host.Outcome State Fault Refusal := runInstr false false (wordString false movsOnce) s

/-- CMPSB (R452). -/
def execCmpsb (s : State) : Host.Outcome State Fault Refusal := runInstr false false (repeated true (cmpsOnce .w8)) s

/-- CMPSW and CMPSD (R452). -/
def execCmpsv (s : State) : Host.Outcome State Fault Refusal := runInstr false false (wordString true cmpsOnce) s

/-- SCASB (R453). -/
def execScasb (s : State) : Host.Outcome State Fault Refusal := runInstr false false (repeated true (scasOnce .w8)) s

/-- SCASW and SCASD (R453). -/
def execScasv (s : State) : Host.Outcome State Fault Refusal := runInstr false false (wordString true scasOnce) s

/-- LODSB (R454). -/
def execLodsb (s : State) : Host.Outcome State Fault Refusal := runInstr false false (repeated false (lodsOnce .w8)) s

/-- LODSW and LODSD (R454). -/
def execLodsv (s : State) : Host.Outcome State Fault Refusal := runInstr false false (wordString false lodsOnce) s

/-- STOSB (R455). -/
def execStosb (s : State) : Host.Outcome State Fault Refusal := runInstr false false (repeated false (stosOnce .w8)) s

/-- STOSW and STOSD (R455). -/
def execStosv (s : State) : Host.Outcome State Fault Refusal := runInstr false false (wordString false stosOnce) s

/-- INSB (R456). -/
def execInsb (s : State) : Host.Outcome State Fault Refusal := runInstr false false (repeated false (insOnce .w8)) s

/-- INSW and INSD (R456). -/
def execInsv (s : State) : Host.Outcome State Fault Refusal := runInstr false false (wordString false insOnce) s

/-- OUTSB (R457). -/
def execOutsb (s : State) : Host.Outcome State Fault Refusal := runInstr false false (repeated false (outsOnce .w8)) s

/-- OUTSW and OUTSD (R457). -/
def execOutsv (s : State) : Host.Outcome State Fault Refusal := runInstr false false (wordString false outsOnce) s

end Sys2Proof.Machine
end

