-- ==== Sys2Proof/Machine/Dispatch.lean ====
section
/-! DEFINITION. Which meaning each instruction has. -/
namespace Sys2Proof.Machine

/-- The meaning of an instruction: one arm per constructor (30_encoding R314). -/
def exec (i : Instr) (s : State) : Host.Outcome State Fault Refusal :=
  match i with
  | .repPrefix => Sys2Proof.Machine.execRepPrefix s
  | .repnePrefix => Sys2Proof.Machine.execRepnePrefix s
  | .lockPrefix => Sys2Proof.Machine.execLockPrefix s
  | .csPrefix => Sys2Proof.Machine.execCsPrefix s
  | .ssPrefix => Sys2Proof.Machine.execSsPrefix s
  | .dsPrefix => Sys2Proof.Machine.execDsPrefix s
  | .esPrefix => Sys2Proof.Machine.execEsPrefix s
  | .fsPrefix => Sys2Proof.Machine.execFsPrefix s
  | .gsPrefix => Sys2Proof.Machine.execGsPrefix s
  | .opsizePrefix => Sys2Proof.Machine.execOpsizePrefix s
  | .addrsizePrefix => Sys2Proof.Machine.execAddrsizePrefix s
  | .add f => Sys2Proof.Machine.execAdd f s
  | .or f => Sys2Proof.Machine.execOr f s
  | .adc f => Sys2Proof.Machine.execAdc f s
  | .sbb f => Sys2Proof.Machine.execSbb f s
  | .and f => Sys2Proof.Machine.execAnd f s
  | .sub f => Sys2Proof.Machine.execSub f s
  | .xor f => Sys2Proof.Machine.execXor f s
  | .cmp f => Sys2Proof.Machine.execCmp f s
  | .aaa => Sys2Proof.Machine.execAaa s
  | .aas => Sys2Proof.Machine.execAas s
  | .aad imm => Sys2Proof.Machine.execAad imm s
  | .aam imm => Sys2Proof.Machine.execAam imm s
  | .daa => Sys2Proof.Machine.execDaa s
  | .das => Sys2Proof.Machine.execDas s
  | .arpl r m => Sys2Proof.Machine.execArpl r m s
  | .bound r m => Sys2Proof.Machine.execBound r m s
  | .push f => Sys2Proof.Machine.execPush f s
  | .pop f => Sys2Proof.Machine.execPop f s
  | .inc f => Sys2Proof.Machine.execInc f s
  | .dec f => Sys2Proof.Machine.execDec f s
  | .pusha => Sys2Proof.Machine.execPusha s
  | .popa => Sys2Proof.Machine.execPopa s
  | .imul f => Sys2Proof.Machine.execImul f s
  | .insb => Sys2Proof.Machine.execInsb s
  | .insv => Sys2Proof.Machine.execInsv s
  | .outsb => Sys2Proof.Machine.execOutsb s
  | .outsv => Sys2Proof.Machine.execOutsv s
  | .jO f => Sys2Proof.Machine.execJO f s
  | .jNo f => Sys2Proof.Machine.execJNo f s
  | .jB f => Sys2Proof.Machine.execJB f s
  | .jAe f => Sys2Proof.Machine.execJAe f s
  | .jE f => Sys2Proof.Machine.execJE f s
  | .jNe f => Sys2Proof.Machine.execJNe f s
  | .jBe f => Sys2Proof.Machine.execJBe f s
  | .jA f => Sys2Proof.Machine.execJA f s
  | .jS f => Sys2Proof.Machine.execJS f s
  | .jNs f => Sys2Proof.Machine.execJNs f s
  | .jP f => Sys2Proof.Machine.execJP f s
  | .jNp f => Sys2Proof.Machine.execJNp f s
  | .jL f => Sys2Proof.Machine.execJL f s
  | .jGe f => Sys2Proof.Machine.execJGe f s
  | .jLe f => Sys2Proof.Machine.execJLe f s
  | .jG f => Sys2Proof.Machine.execJG f s
  | .setO r m => Sys2Proof.Machine.execSetO r m s
  | .setNo r m => Sys2Proof.Machine.execSetNo r m s
  | .setB r m => Sys2Proof.Machine.execSetB r m s
  | .setAe r m => Sys2Proof.Machine.execSetAe r m s
  | .setE r m => Sys2Proof.Machine.execSetE r m s
  | .setNe r m => Sys2Proof.Machine.execSetNe r m s
  | .setBe r m => Sys2Proof.Machine.execSetBe r m s
  | .setA r m => Sys2Proof.Machine.execSetA r m s
  | .setS r m => Sys2Proof.Machine.execSetS r m s
  | .setNs r m => Sys2Proof.Machine.execSetNs r m s
  | .setP r m => Sys2Proof.Machine.execSetP r m s
  | .setNp r m => Sys2Proof.Machine.execSetNp r m s
  | .setL r m => Sys2Proof.Machine.execSetL r m s
  | .setGe r m => Sys2Proof.Machine.execSetGe r m s
  | .setLe r m => Sys2Proof.Machine.execSetLe r m s
  | .setG r m => Sys2Proof.Machine.execSetG r m s
  | .test f => Sys2Proof.Machine.execTest f s
  | .xchg f => Sys2Proof.Machine.execXchg f s
  | .mov f => Sys2Proof.Machine.execMov f s
  | .lea r m => Sys2Proof.Machine.execLea r m s
  | .nop => Sys2Proof.Machine.execNop s
  | .cbw => Sys2Proof.Machine.execCbw s
  | .cwd => Sys2Proof.Machine.execCwd s
  | .call f => Sys2Proof.Machine.execCall f s
  | .wait => Sys2Proof.Machine.execWait s
  | .pushf => Sys2Proof.Machine.execPushf s
  | .popf => Sys2Proof.Machine.execPopf s
  | .sahf => Sys2Proof.Machine.execSahf s
  | .lahf => Sys2Proof.Machine.execLahf s
  | .movsb => Sys2Proof.Machine.execMovsb s
  | .movsv => Sys2Proof.Machine.execMovsv s
  | .cmpsb => Sys2Proof.Machine.execCmpsb s
  | .cmpsv => Sys2Proof.Machine.execCmpsv s
  | .stosb => Sys2Proof.Machine.execStosb s
  | .stosv => Sys2Proof.Machine.execStosv s
  | .lodsb => Sys2Proof.Machine.execLodsb s
  | .lodsv => Sys2Proof.Machine.execLodsv s
  | .scasb => Sys2Proof.Machine.execScasb s
  | .scasv => Sys2Proof.Machine.execScasv s
  | .rol f => Sys2Proof.Machine.execRol f s
  | .ror f => Sys2Proof.Machine.execRor f s
  | .rcl f => Sys2Proof.Machine.execRcl f s
  | .rcr f => Sys2Proof.Machine.execRcr f s
  | .shl f => Sys2Proof.Machine.execShl f s
  | .shr f => Sys2Proof.Machine.execShr f s
  | .sar f => Sys2Proof.Machine.execSar f s
  | .ret f => Sys2Proof.Machine.execRet f s
  | .les r m => Sys2Proof.Machine.execLes r m s
  | .lds r m => Sys2Proof.Machine.execLds r m s
  | .lss r m => Sys2Proof.Machine.execLss r m s
  | .lfs r m => Sys2Proof.Machine.execLfs r m s
  | .lgs r m => Sys2Proof.Machine.execLgs r m s
  | .enter size level => Sys2Proof.Machine.execEnter size level s
  | .leave => Sys2Proof.Machine.execLeave s
  | .retf f => Sys2Proof.Machine.execRetf f s
  | .int3 => Sys2Proof.Machine.execInt3 s
  | .intIb imm => Sys2Proof.Machine.execIntIb imm s
  | .into => Sys2Proof.Machine.execInto s
  | .iret => Sys2Proof.Machine.execIret s
  | .undefined f => Sys2Proof.Machine.execUndefined f s
  | .xlat => Sys2Proof.Machine.execXlat s
  | .loopne rel => Sys2Proof.Machine.execLoopne rel s
  | .loope rel => Sys2Proof.Machine.execLoope rel s
  | .loop rel => Sys2Proof.Machine.execLoop rel s
  | .jcxz rel => Sys2Proof.Machine.execJcxz rel s
  | .in_ f => Sys2Proof.Machine.execIn f s
  | .out f => Sys2Proof.Machine.execOut f s
  | .jmp f => Sys2Proof.Machine.execJmp f s
  | .hlt => Sys2Proof.Machine.execHlt s
  | .cmc => Sys2Proof.Machine.execCmc s
  | .not f => Sys2Proof.Machine.execNot f s
  | .neg f => Sys2Proof.Machine.execNeg f s
  | .mul f => Sys2Proof.Machine.execMul f s
  | .div f => Sys2Proof.Machine.execDiv f s
  | .idiv f => Sys2Proof.Machine.execIdiv f s
  | .clc => Sys2Proof.Machine.execClc s
  | .stc => Sys2Proof.Machine.execStc s
  | .cli => Sys2Proof.Machine.execCli s
  | .sti => Sys2Proof.Machine.execSti s
  | .cld => Sys2Proof.Machine.execCld s
  | .std => Sys2Proof.Machine.execStd s
  | .sldt m => Sys2Proof.Machine.execSldt m s
  | .str m => Sys2Proof.Machine.execStr m s
  | .lldt m => Sys2Proof.Machine.execLldt m s
  | .ltr m => Sys2Proof.Machine.execLtr m s
  | .verr m => Sys2Proof.Machine.execVerr m s
  | .verw m => Sys2Proof.Machine.execVerw m s
  | .sgdt m => Sys2Proof.Machine.execSgdt m s
  | .sidt m => Sys2Proof.Machine.execSidt m s
  | .lgdt m => Sys2Proof.Machine.execLgdt m s
  | .lidt m => Sys2Proof.Machine.execLidt m s
  | .smsw m => Sys2Proof.Machine.execSmsw m s
  | .lmsw m => Sys2Proof.Machine.execLmsw m s
  | .invlpg m => Sys2Proof.Machine.execInvlpg m s
  | .lar r m => Sys2Proof.Machine.execLar r m s
  | .lsl r m => Sys2Proof.Machine.execLsl r m s
  | .clts => Sys2Proof.Machine.execClts s
  | .invd => Sys2Proof.Machine.execInvd s
  | .wbinvd => Sys2Proof.Machine.execWbinvd s
  | .bt f => Sys2Proof.Machine.execBt f s
  | .shld f => Sys2Proof.Machine.execShld f s
  | .bts f => Sys2Proof.Machine.execBts f s
  | .shrd f => Sys2Proof.Machine.execShrd f s
  | .cmpxchg f => Sys2Proof.Machine.execCmpxchg f s
  | .btr f => Sys2Proof.Machine.execBtr f s
  | .movzx f => Sys2Proof.Machine.execMovzx f s
  | .btc f => Sys2Proof.Machine.execBtc f s
  | .bsf r m => Sys2Proof.Machine.execBsf r m s
  | .bsr r m => Sys2Proof.Machine.execBsr r m s
  | .movsx f => Sys2Proof.Machine.execMovsx f s
  | .xadd f => Sys2Proof.Machine.execXadd f s
  | .bswap r => Sys2Proof.Machine.execBswap r s
  | .fld f => Sys2Proof.Machine.execFld f s
  | .fild f => Sys2Proof.Machine.execFild f s
  | .fbld m => Sys2Proof.Machine.execFbld m s
  | .fst f => Sys2Proof.Machine.execFst f s
  | .fist f => Sys2Proof.Machine.execFist f s
  | .fstp f => Sys2Proof.Machine.execFstp f s
  | .fistp f => Sys2Proof.Machine.execFistp f s
  | .fbstp m => Sys2Proof.Machine.execFbstp m s
  | .fxch st => Sys2Proof.Machine.execFxch st s
  | .fld1 => Sys2Proof.Machine.execFld1 s
  | .fldl2t => Sys2Proof.Machine.execFldl2t s
  | .fldl2e => Sys2Proof.Machine.execFldl2e s
  | .fldpi => Sys2Proof.Machine.execFldpi s
  | .fldlg2 => Sys2Proof.Machine.execFldlg2 s
  | .fldln2 => Sys2Proof.Machine.execFldln2 s
  | .fldz => Sys2Proof.Machine.execFldz s
  | .fadd f => Sys2Proof.Machine.execFadd f s
  | .fiadd f => Sys2Proof.Machine.execFiadd f s
  | .faddp st => Sys2Proof.Machine.execFaddp st s
  | .fmul f => Sys2Proof.Machine.execFmul f s
  | .fimul f => Sys2Proof.Machine.execFimul f s
  | .fmulp st => Sys2Proof.Machine.execFmulp st s
  | .fsub f => Sys2Proof.Machine.execFsub f s
  | .fisub f => Sys2Proof.Machine.execFisub f s
  | .fsubp st => Sys2Proof.Machine.execFsubp st s
  | .fsubr f => Sys2Proof.Machine.execFsubr f s
  | .fisubr f => Sys2Proof.Machine.execFisubr f s
  | .fsubrp st => Sys2Proof.Machine.execFsubrp st s
  | .fdiv f => Sys2Proof.Machine.execFdiv f s
  | .fidiv f => Sys2Proof.Machine.execFidiv f s
  | .fdivp st => Sys2Proof.Machine.execFdivp st s
  | .fdivr f => Sys2Proof.Machine.execFdivr f s
  | .fidivr f => Sys2Proof.Machine.execFidivr f s
  | .fdivrp st => Sys2Proof.Machine.execFdivrp st s
  | .fsqrt => Sys2Proof.Machine.execFsqrt s
  | .fscale => Sys2Proof.Machine.execFscale s
  | .fprem => Sys2Proof.Machine.execFprem s
  | .fprem1 => Sys2Proof.Machine.execFprem1 s
  | .frndint => Sys2Proof.Machine.execFrndint s
  | .fxtract => Sys2Proof.Machine.execFxtract s
  | .fabs => Sys2Proof.Machine.execFabs s
  | .fchs => Sys2Proof.Machine.execFchs s
  | .fcom f => Sys2Proof.Machine.execFcom f s
  | .fcomp f => Sys2Proof.Machine.execFcomp f s
  | .fcompp => Sys2Proof.Machine.execFcompp s
  | .ficom f => Sys2Proof.Machine.execFicom f s
  | .ficomp f => Sys2Proof.Machine.execFicomp f s
  | .fucom st => Sys2Proof.Machine.execFucom st s
  | .fucomp st => Sys2Proof.Machine.execFucomp st s
  | .fucompp => Sys2Proof.Machine.execFucompp s
  | .ftst => Sys2Proof.Machine.execFtst s
  | .fxam => Sys2Proof.Machine.execFxam s
  | .fptan => Sys2Proof.Machine.execFptan s
  | .fpatan => Sys2Proof.Machine.execFpatan s
  | .fsin => Sys2Proof.Machine.execFsin s
  | .fcos => Sys2Proof.Machine.execFcos s
  | .fsincos => Sys2Proof.Machine.execFsincos s
  | .f2xm1 => Sys2Proof.Machine.execF2xm1 s
  | .fyl2x => Sys2Proof.Machine.execFyl2x s
  | .fyl2xp1 => Sys2Proof.Machine.execFyl2xp1 s
  | .fninit => Sys2Proof.Machine.execFninit s
  | .fldcw m => Sys2Proof.Machine.execFldcw m s
  | .fnstcw m => Sys2Proof.Machine.execFnstcw m s
  | .fnstsw f => Sys2Proof.Machine.execFnstsw f s
  | .fnclex => Sys2Proof.Machine.execFnclex s
  | .fincstp => Sys2Proof.Machine.execFincstp s
  | .fdecstp => Sys2Proof.Machine.execFdecstp s
  | .ffree st => Sys2Proof.Machine.execFfree st s
  | .fnop => Sys2Proof.Machine.execFnop s
  | .feni => Sys2Proof.Machine.execFeni s
  | .fdisi => Sys2Proof.Machine.execFdisi s
  | .fsetpm => Sys2Proof.Machine.execFsetpm s
  | .fnstenv m => Sys2Proof.Machine.execFnstenv m s
  | .fldenv m => Sys2Proof.Machine.execFldenv m s
  | .fnsave m => Sys2Proof.Machine.execFnsave m s
  | .frstor m => Sys2Proof.Machine.execFrstor m s
  | .undefinedEsc f => Sys2Proof.Machine.execUndefinedEsc f s

end Sys2Proof.Machine
end

