-- ==== Sys2Proof/Machine/Cycle.lean ====
section
/-! DEFINITION. One step: the pins are sampled, an event of the boundary is taken (60_exceptions R862 to R869), or one
instruction is fetched, decoded and run (30_encoding R305). Also RESET (70_reset R920 to R930). -/
namespace Sys2Proof.Machine

/-! ### Fetch and decode (30_encoding R305) -/

/-- What the fetch of a linear address sees: the byte `v` there, or an older one that the prefetch queue may still hold,
by free choice (20_memory R123, D17). -/
def queuedByte (lin : Nat) (v : Byte) : List Host.Cell → M Byte
  | [] => pure v
  | c :: cs =>
    if c.1 = lin then do
      if ← freshBool then pure c.2 else queuedByte lin v cs
    else queuedByte lin v cs

/-- The bytes of the block `d` at physical address `block`, read from what is not RAM, with the linear addresses from `lin`
on, `n` of them. -/
def State.heldBytes (s : State) (d : BitVec 128) (block lin : Nat) : Nat → List Host.Cell
  | 0 => []
  | n + 1 =>
    s.heldBytes d block lin n ++
      (if (s.regionAt (block + n)).1 = .ram then [] else [(lin + n, BitVec.ofNat 8 (blockValue d n 1))])

/-- Whether the prefetch unit holds the aligned 16-byte block of a linear address: bytes of it that are not RAM. -/
def Prefetch.holdsBlock (p : Prefetch) (lin : Nat) : Bool := p.held.any (fun c => c.1 / 16 == lin / 16)

/-- Reads the code byte at physical address `pa`, linear address `lin`, into the prefetch unit (21_bus R184, R189, R253): from
the cache, else by a burst over the aligned 16-byte block, which enters the cache if it may. Of a block that does not, the
unit holds what did not come from RAM, and the burst is not run again while it does; RAM itself is read as it stands. The
block is read whole where the limit of CS lies inside it: R189 reads aligned blocks, R254 never fetches beyond the limit.
DESIGN CHOICE (notes/assumptions/73, UNSAFE). -/
def codeRead (lin : Nat) (pa : Nat) (attr : Attr) : M Byte := fun s =>
  let a := s.a20 pa
  match s.cache.find a with
  | some l => .ok (BitVec.ofNat 8 (blockValue l.data a 1)) { s with cache := s.cache.touch l }
  | none =>
    if s.prefetch.holdsBlock lin && (s.regionAt a).1 == .ram then .ok (memRead s.mem a) s
    else (do
      let d ← burst true attr (a / 16 * 16) (burstOrder a)
      modify (fun t : State =>
        if s.fills attr false a && s.keeps a then { t with cache := t.cache.fill a d }
        else { t with prefetch := { t.prefetch with
          held := t.heldBytes d (a / 16 * 16) (lin / 16 * 16) 16 ++ t.prefetch.held } })
      pure (BitVec.ofNat 8 (blockValue d a 1))) s

/-- Fetches the byte at an offset of CS: limit and page checks only (20_memory R137, R145). A byte that the prefetch unit
holds is taken from there. -/
def fetchByte (off : Nat) : M Byte := do
  let s ← get
  let h := s.segs.cs.hid
  if off > h.limit.toNat then raiseGP 0
  let lin := (h.base.toNat + off) % 2 ^ 32
  let (pa, attr) ← translate lin false (s.cpl == 3)
  match s.prefetch.held.find? (fun c => c.1 == lin) with
  | some c => pure c.2
  | none => do
    let v ← codeRead lin pa attr
    queuedByte lin v s.prefetch.stale

/-- The length check (30_encoding R305, R267): made when the whole instruction is fetched, before it is executed or found
undefined. -/
def checkLength (n : Nat) : M Unit := if n > maxLength then raiseGP 0 else pure ()

/-- Fetches and decodes one item, byte by byte, and counts its bytes. -/
def fetchItem : Nat → List Byte → M Instr
  | 0, _ => raiseGP 0
  | fuel + 1, bs => do
    let s ← get
    match decode s.osz s.asz bs with
    | .ok (i, _) => do
      set { s with dec := { s.dec with len := s.dec.len + bs.length } }
      pure i
    | .error .undefined => do
      checkLength (s.dec.len + bs.length)
      raiseUD
    | .error .truncated => do
      let b ← fetchByte (s.eip.toNat + s.dec.len + bs.length)
      fetchItem fuel (bs ++ [b])

/-- The prefixes: items after which the instruction goes on (30_encoding R264). -/
def isPrefix : Instr → Bool
  | .repPrefix | .repnePrefix | .lockPrefix | .csPrefix | .ssPrefix | .dsPrefix | .esPrefix | .fsPrefix | .gsPrefix
  | .opsizePrefix | .addrsizePrefix => true
  | _ => false

/-! ### The prefetch queue (10_state R93, 20_memory R123, 92_eei_decisions D17) -/

/-- The physical address a fetch at CS:EIP + `k` reaches, by the page tables in memory. -/
def State.fetchAddr (s : State) (k : Nat) : Nat :=
  let lin := (s.segs.cs.hid.base.toNat + s.eip.toNat + k) % 2 ^ 32
  s.a20 (if s.pg then s.peek4 (pteAddr (s.peek4 (s.pdeAddr lin)) lin) / 4096 * 4096 + lin % 4096 else lin)

/-- How far ahead bytes may be prefetched: the 32-byte queue and a 16-byte block (D17). -/
def prefetchReach : Nat := 48

/-- The linear address `k` bytes past CS:EIP. -/
def State.linAhead (s : State) (k : Nat) : Nat := (s.segs.cs.hid.base.toNat + s.eip.toNat + k) % 2 ^ 32

/-- The bytes within reach of `t` that differ from what `s` had there: linear address and old byte. -/
def State.overwritten (s t : State) : Nat → List Host.Cell
  | 0 => []
  | n + 1 =>
    let a := t.fetchAddr n
    if s.peek a = t.peek a then State.overwritten s t n else (t.linAhead n, s.peek a) :: State.overwritten s t n

/-- The cells that still lie within reach of CS:EIP. -/
def State.inReach (s : State) (cs : List Host.Cell) : List Host.Cell :=
  cs.filter (fun c => decide ((c.1 + 2 ^ 32 - s.linAhead 0) % 2 ^ 32 < prefetchReach))

/-- The cells of the 16-byte blocks within reach of CS:EIP, the block of CS:EIP whole: a block is held or dropped as one (21_bus
R189). -/
def State.blocksInReach (s : State) (cs : List Host.Cell) : List Host.Cell :=
  cs.filter (fun c => decide ((c.1 + 2 ^ 32 - s.linAhead 0 / 16 * 16) % 2 ^ 32 < 64))

/-- Whether reading the code block of a linear address ahead would leave a trace: a translation that the TLB lacks, a line
fill, or a block that is not all RAM. -/
def State.aheadMatters (s : State) (lin : Nat) : Bool :=
  let walks := s.pg && (s.tlb.find (lin / 4096)).isNone
  let attr : Attr := match s.tlb.find (lin / 4096) with
    | some e => { pcd := e.pcd, pwt := e.pwt }
    | none => s.cr3Attr
  let pa := s.a20 (if s.pg then
    (match s.tlb.find (lin / 4096) with | some e => e.frame.toNat * 4096 + lin % 4096 | none => 0) else lin)
  walks || ((s.cache.find pa).isNone && (s.fills attr false pa ||
    !([0, 4, 8, 12].all (fun o => (s.regionAt (pa / 16 * 16 + o)).1 == .ram)) &&
      !s.prefetch.holdsBlock lin))

/-- The prefetch unit reads the code block at an offset of CS ahead, by free choice (21_bus R253): not where the offset is
beyond the limit of CS, not from a page that a fetch may not read (R254). What it would fault on it leaves alone. A block that
begins within the limit is read whole, its bytes beyond the limit too: DESIGN CHOICE (notes/assumptions/73, UNSAFE). -/
def readAhead (off : Nat) : M Unit := fun s =>
  let h := s.segs.cs.hid
  let lin := (h.base.toNat + off) % 2 ^ 32
  if off > h.limit.toNat || !s.aheadMatters lin then .ok () s
  else
    let t := { s with freeCtr := s.freeCtr + 1 }
    if !(Config.freeBits s.freeCtr).getLsbD 0 then .ok () t
    else
      match translate lin false (s.cpl == 3) t with
      | .error _ _ => .ok () t
      | .ok (pa, attr) t' =>
        match codeRead lin pa attr t' with
        | .ok _ u => .ok () u
        | .error _ _ => .ok () t

/-- The machine after the prefetch unit had its turn: the block of CS:EIP and the next may be read ahead (21_bus R254; which
blocks and when: DESIGN CHOICE, notes/assumptions/7). -/
def State.prefetched (s : State) : State :=
  let lin := s.linAhead 0
  match (do
    readAhead s.eip.toNat
    readAhead (s.eip.toNat + (16 - lin % 16))) s with
  | .ok _ t => t
  | .error _ t => t

/-- The prefetch queue after an instruction executed in `s` led to `t`: emptied unless `t` goes on in sequence (10_state R93);
else it may hold the old bytes of what the instruction stored within its reach, and what it held before. -/
def State.retire (s t : State) : State :=
  if t.dec.done && !t.dec.taken then
    { t with prefetch := { held := t.blocksInReach t.prefetch.held
                           stale := s.overwritten t prefetchReach ++ t.inReach t.prefetch.stale } }.prefetched
  else { t with prefetch := Prefetch.empty }

/-- The outcome of an instruction executed in `s`, with the prefetch queue brought up to date. -/
def retired (s : State) : Host.Outcome State Fault Refusal → Host.Outcome State Fault Refusal
  | .next t => .next (s.retire t)
  | r => r

/-- More items than an instruction can have: each takes a byte below the limit of CS. -/
def fetchFuel : Nat := 2 ^ 32 + 1

/-- Reads the items of the instruction that begins at `start` and runs it; what a fetch raises is delivered as a fault of
that instruction (60_exceptions R842), before one of its length (R867, 30_encoding R305). -/
def runItems (start : State) : Nat → State → Host.Outcome State Fault Refusal
  | 0, _ => .fault .bound
  | fuel + 1, s =>
    match fetchItem (maxLength + 1) [] s with
    | .ok i s' =>
      if isPrefix i then
        match exec i s' with
        | .next t => runItems start fuel t
        | r => r
      else if s'.dec.len > maxLength then
        deliverExn { vector := 13, code := some 0, cls := .fault } (rollback start s').abandon
      else retired s' (exec i s')
    | .error (.exn e) s' => deliverExn e (rollback start s').abandon
    | .error (.refuse r) _ => .refused r
    | .error _ s' => .next (rollback start s').abandon

/-! ### Debug events (60_exceptions R846) -/

/-- Whether breakpoint `i` is an armed instruction breakpoint on a linear address; a LEN other than 00 leaves the match
open (10_state R50). -/
def instrBreakHit (i lin : Nat) : M Bool := fun s =>
  let d := s.dbg
  if !d.armed i || d.rw i != 0 then .ok false s
  else if d.lenCode i != 0 then freshBool s
  else .ok ((d.addr i).toNat == lin) s

/-- The instruction breakpoints on the instruction at CS:EIP, unless RF suppresses them (10_state R37). -/
def instrBreaks : M (BitVec 4) := do
  let s ← get
  if s.flags.rf then pure 0
  else do
    let lin := (s.segs.cs.hid.base.toNat + s.eip.toNat) % 2 ^ 32
    let b0 ← instrBreakHit 0 lin
    let b1 ← instrBreakHit 1 lin
    let b2 ← instrBreakHit 2 lin
    let b3 ← instrBreakHit 3 lin
    pure (BitVec.ofBool b3 ++ BitVec.ofBool b2 ++ BitVec.ofBool b1 ++ BitVec.ofBool b0)

/-- Sets B0 to B3 and BS of DR6; none is ever cleared (10_state R50). -/
def State.reportDebug (s : State) (hits : BitVec 4) (single : Bool) : State :=
  { s with dbg := { s.dbg with dr6 := s.dbg.dr6 ||| hits.setWidth 32 ||| ((BitVec.ofBool single).setWidth 32 <<< 14) } }

/-- The machine after an instruction that began in `start`: a single-step trap is pending if TF was 1 then and the
instruction completed (60_exceptions R846). A repeated string instruction not yet at its end keeps the interrupt shadow it began in: the
instruction that follows MOV SS, POP SS or STI ends with its last iteration (10_state R94 (c), R868), though events are
otherwise taken between iterations (R865, 42_integer R458). Which of the two holds the spec does not say. DESIGN CHOICE
(notes/assumptions/27, UNSAFE). -/
def afterInstr (start : State) : Host.Outcome State Fault Refusal → Host.Outcome State Fault Refusal
  | .next t => .next { t with
      dec := Dec.start
      latch := { t.latch with
        shadow := if t.latch.repActive && start.latch.shadow == .held then .held else t.latch.shadow
        singleStep := t.latch.singleStep || (start.flags.tf && t.dec.done) } }
  | r => r

/-- One instruction: breakpoint fault, else fetch, decode and run (60_exceptions R867 (4)). -/
def runOne (s : State) : Host.Outcome State Fault Refusal :=
  if s.pe && s.flags.vm then .refused .virtual8086
  else
    match instrBreaks s with
    | .ok hits s' =>
      if hits != 0 then deliverExn { vector := 1, code := none, cls := .fault } (s'.reportDebug hits false).abandon
      else afterInstr s' (runItems s' fetchFuel { s' with dec := Dec.start })
    | .error _ s' => .next s'

/-! ### RESET (70_reset R920 to R930) -/

/-- RESET: the integer unit as after power-up; memory and pins are the platform's; the FPU is kept, or with built-in
self-test (AHOLD) initialised and cleared (R921, R922, R930). A part that fails the self-test tells so in EAX only and runs:
R922 and R883 say that it may halt instead. DESIGN CHOICE (notes/assumptions/31, UNSAFE). FLUSH# selects the tri-state test,
refused (R923, D4). -/
def State.onReset (s : State) : Host.Outcome State Fault Refusal :=
  if s.pins.flush then .refused .triStateTest
  else
    let r := State.reset
    .next { r with
      regs := if s.pins.ahold then { r.regs with eax := Config.bistResult } else r.regs
      fpu := if s.pins.ahold then Fpu.initialised FpuRegs.zero else s.fpu
      mem := s.mem
      pins := s.pins
      inputs := s.inputs
      regions := s.regions
      bus := s.bus
      freeCtr := s.freeCtr
      latch := { r.latch with nmiLevel := s.pins.nmi } }

/-! ### Sampling (10_state R94, R97; 21_bus R236, R237) -/

/-- A byte another bus master writes: RAM takes it, the cache does not see it (20_memory R122). -/
def State.otherWrite (s : State) (c : Host.Cell) : State :=
  if c.1 < 2 ^ 32 ∧ (s.regionAt c.1).1 = .ram then { s with mem := memWrite s.mem c.1 c.2 } else s

/-- The lines that EADS# cycles invalidate; NW = 1 disables them (21_bus R236). -/
def State.externalInvalidate (s : State) : State :=
  if s.nw then s else { s with cache := s.pins.eads.foldl (fun c a => c.invalidate a.toNat) s.cache }

/-- What other agents do to memory and cache at an instruction boundary: writes of other masters, invalidations, FLUSH#. -/
def State.snooped (s : State) : State :=
  let s := (s.pins.busWrites.foldl State.otherWrite s).externalInvalidate
  if s.pins.flush then { s with cache := s.cache.flush } else s

/-- Whether other agents do anything at this boundary. -/
def Pins.snoops (p : Pins) : Bool := p.flush || !p.eads.isEmpty || !p.busWrites.isEmpty

/-- The machine after the doings of other agents: the prefetch queue may still hold the old bytes of what a fetch now finds
changed, whether the write was seen at once or when the invalidation of its cache line uncovered it (20_memory R123, 21_bus
R253; notes/assumptions/7). -/
def State.otherAgents (s : State) : State :=
  if s.pins.snoops then
    let t := s.snooped
    { t with prefetch := { t.prefetch with stale := s.overwritten t prefetchReach ++ t.prefetch.stale } }
  else s

/-- The pins at an instruction boundary: what other agents do, and the rising edge of NMI (60_exceptions R864). An edge that comes
after RESET and before the first instruction is latched here and taken after that instruction: 70_reset R927 says that it is not
recognised then, not whether it is lost or kept. DESIGN CHOICE (notes/assumptions/31, UNSAFE). -/
def State.sample (s : State) : State :=
  let s := s.otherAgents
  { s with
    latch := { s.latch with
      nmiPending := s.latch.nmiPending || (s.pins.nmi && !s.latch.nmiLevel)
      nmiLevel := s.pins.nmi }
    pins := { s.pins with eads := [], busWrites := [] } }

/-! ### Events of the boundary (60_exceptions R867) -/

/-- Whether a debug trap is taken (R867 (1), 10_state R94 (c)). -/
def State.takesDebug (s : State) : Bool :=
  (s.latch.dataBreak != 0 || s.latch.singleStep) && s.latch.shadow != .held && (s.run == .running || s.run == .halted)

/-- Whether NMI is taken (R867 (2), R847, 10_state R94 (c); 70_reset R927): in every run state but that of a delivery without
end. -/
def State.takesNmi (s : State) : Bool :=
  s.latch.nmiPending && !s.latch.nmiInService && s.latch.shadow == .none && s.run != .stuck

/-- Whether INTR is taken (R863, R868): with IF = 1, not in shutdown. -/
def State.takesIntr (s : State) : Bool :=
  s.pins.intr && s.flags.intf && s.latch.shadow == .none && s.run != .shutdown && s.run != .stuck

/-- The machine as an event finds it: running, no shadow, the prefetch queue empty. -/
def State.awake (s : State) : State :=
  { s with run := .running, dec := Dec.start, prefetch := Prefetch.empty, latch := { s.latch with shadow := .none, repActive := false } }

/-- RF in the image of an interrupt: 1 between the iterations of a repeated string instruction (R872). -/
def State.interruptRf (s : State) : Bool := s.flags.rf || s.latch.repActive

/-- The debug trap: DR6 tells its causes; the saved EIP is the next instruction's (R842, R846). -/
def State.debugTrap (s : State) : Host.Outcome State Fault Refusal :=
  let t := (s.reportDebug s.latch.dataBreak s.latch.singleStep).awake
  deliver deliverFuel { kind := .exception, vector := 1, code := none, cs := s.segs.cs.sel, ip := s.eip, rf := s.flags.rf }
    { t with latch := { t.latch with dataBreak := 0, singleStep := false } }

/-- NMI: vector 2 without an acknowledge cycle (R847). In shutdown the saved CS:EIP is free (D10, U21). -/
def State.nmi (s : State) : Host.Outcome State Fault Refusal :=
  let t := s.awake
  let t := { t with latch := { t.latch with nmiPending := false } }
  if s.run = .shutdown then
    let u := Config.freeBits s.freeCtr
    deliver deliverFuel { kind := .nmi, vector := 2, code := none, cs := u.extractLsb' 32 16, ip := u.setWidth 32, rf := s.flags.rf }
      { t with freeCtr := s.freeCtr + 1 }
  else
    deliver deliverFuel { kind := .nmi, vector := 2, code := none, cs := s.segs.cs.sel, ip := s.eip, rf := s.interruptRf } t

/-- The two cycles that acknowledge INTR (21_bus R193, R862): at byte address 4, its data ignored, then at 0, which gives the
vector. -/
def State.acknowledge (s : State) (v : Byte) : State := (s.drive (.intAck 4 none)).drive (.intAck 0 (some v))

/-- INTR: the acknowledge cycles give the vector (R862). -/
def State.intr (s : State) : Host.Outcome State Fault Refusal :=
  let t := s.awake
  deliver deliverFuel
    { kind := .intr, vector := s.pins.intrVector, code := none, cs := s.segs.cs.sel, ip := s.eip, rf := s.interruptRf }
    (t.acknowledge s.pins.intrVector)

/-- One step of the machine, pins sampled: the events in the order of R867, then the instruction; halted, shut down or
frozen, nothing happens (10_state R97). -/
def State.boundary (s : State) : Host.Outcome State Fault Refusal :=
  if s.takesDebug then s.debugTrap
  else if s.takesNmi then s.nmi
  else if s.takesIntr then s.intr
  else if s.run = .running then runOne s
  else .next s

/-- The next values of the pins, if the platform gives any. -/
def State.nextPins (s : State) : State :=
  match s.inputs with
  | [] => s
  | p :: ps => { s with pins := p, inputs := ps }

/-- One step: the pins change, then RESET overrides everything (70_reset R920). -/
def cycle (s : State) : Host.Outcome State Fault Refusal :=
  if s.nextPins.pins.reset then s.nextPins.sample.onReset else s.nextPins.sample.boundary

/-! ### Placing an instruction where the next step fetches it -/

/-- Puts bytes at CS:EIP + `k` on: in memory, with no cached copy and nothing prefetched. -/
def State.placeCode (s : State) : Nat → List Byte → State
  | _, [] => { s with prefetch := Prefetch.empty }
  | k, b :: bs =>
    let a := s.fetchAddr k
    State.placeCode { s with mem := memWrite s.mem a b, cache := s.cache.invalidate a } (k + 1) bs

end Sys2Proof.Machine
end

