-- ==== Sys2Proof/Machine/Step.lean ====
section
/-! DEFINITION. The step of the machine and the placing of an instruction where it fetches. -/
namespace Sys2Proof.Machine

/-- One step (30_encoding R305, 60_exceptions R867). -/
def step (s : State) : Host.Outcome State Fault Refusal := Sys2Proof.Machine.cycle s

/-- The state with an instruction, given as the opcode table numbers its bits, in memory at CS:EIP. -/
def State.withFetchWord (s : State) (nbits w : Nat) : State := s.placeCode 0 (Sys2Proof.tableBytes nbits w)

end Sys2Proof.Machine
end

