-- ==== Sys2Proof/Safety.lean ====
section
/-! DEFINITION. What counts as a legal state and a safe run, and the terms the statements use: when an instruction may
execute, what a read and a write leave unchanged, named updates of the state. -/
namespace Sys2Proof.Machine

/-- What holds of every state the machine reaches: memory in canonical form; the reserved bits of CR0, CR3, DR6 and DR7
as they read (10_state R47, R48, R50, R54); paging only in protected mode, and NW only with CD (R47); CPL 0 in real mode
(R34). -/
structure State.Inv (s : State) : Prop where
  mem : Memory.wf s.mem = true
  cr0Reserved : s.cr0 &&& ~~~cr0Mask = 0
  cr3Reserved : s.cr3 &&& 0x00000FE7 = 0
  dr6Reserved : s.dbg.dr6 &&& 0xFFFF1FF0 = 0xFFFF0FF0
  dr7Reserved : s.dbg.dr7 &&& 0x0000DC00 = 0
  paging : s.pg = true → s.pe = true
  caching : s.nw = true → s.cd = true
  realCpl : s.pe = false → s.cpl = 0

/-- A step that goes on, to a state that meets the invariant. -/
def State.StepsSafely (s : State) : Prop := ∃ t, step s = .next t ∧ t.Inv

/-! ### When an instruction may execute -/

/-- Not in virtual-8086 mode, and LOCK only on a form that takes it (30_encoding R275). -/
def State.Ready (s : State) (lockable : Bool) : Prop :=
  (s.pe && s.flags.vm) = false ∧ (s.dec.lock && !lockable) = false

/-- Privileged instructions may execute: real mode, or CPL 0 (44_integer R556). -/
def State.Privileged (s : State) : Prop := (s.pe && s.cpl != 0) = false

/-- I/O and IF may be used: real mode, or CPL at most IOPL (44_integer R556). -/
def State.IoPrivileged (s : State) : Prop := (s.pe && decide (s.flags.iopl < s.cpl)) = false

/-- An ESC instruction may execute: EM = 0, TS = 0, no LOCK (60_exceptions R855), not in virtual-8086 mode. -/
def State.EscReady (s : State) : Prop :=
  (s.pe && s.flags.vm) = false ∧ s.em = false ∧ s.ts = false ∧ s.dec.lock = false

/-- No FPU error is pending, or it is ignored with NE = 0 and IGNNE# active (60_exceptions R880). -/
def State.NoFpuError (s : State) : Prop := s.fpu.es = false ∨ (s.ne = false ∧ s.pins.ignne = true)

/-! ### Named updates -/

/-- The free number of the next use (notes/assumptions/2). -/
def State.draw (s : State) : BitVec 128 := Config.freeBits s.freeCtr
/-- The state after a free number was used. -/
def State.drawn (s : State) : State := { s with freeCtr := s.freeCtr + 1 }
/-- A register operand replaced. -/
def State.withReg (s : State) (w : Width) (n : RegNum) (v : Nat) : State := { s with regs := s.regs.write w n v }
/-- The flags replaced. -/
def State.withFlags (s : State) (f : Flags) : State := { s with flags := f }
/-- eSP replaced. -/
def State.withSP (s : State) (v : Nat) : State := { s with regs := s.regs.write s.ssz.width regESP v }
/-- EIP replaced by a transfer of control. -/
def State.withEip (s : State) (v : Nat) : State := { s with eip := BitVec.ofNat 32 v }.transferred
/-- A segment register replaced. -/
def State.withSeg (s : State) (n : SegName) (v : SegReg) : State := { s with segs := s.segs.set n v }
/-- The FPU replaced. -/
def State.withFpu (s : State) (f : Fpu) : State := { s with fpu := f }
/-- What writes of several values leave. -/
def State.wroteAll (s : State) : List (List BytePlace) → List Nat → State
  | ps :: pss, v :: vs => State.wroteAll (s.wrote ps v) pss vs
  | _, _ => s

/-! ### Frames -/

/-- A data or code read of memory. -/
def BusEvent.isRead : BusEvent → Bool
  | .memRead _ _ _ _ => true
  | .ioRead _ _ _ | .ioWrite _ _ _ | .memWrite _ _ _ | .intAck _ _ | .shutdown | .cacheFlush | .halt | .writeBackFlush => false

/-- The bus log of `t` is that of `s` with memory reads after it. -/
def State.OnlyReads (s t : State) : Prop := ∃ cs : List BusCycle, t.bus = cs ++ s.bus ∧ ∀ c ∈ cs, c.event.isRead = true

/-- `t` differs from `s` only in what address translation, a read or a debug match may change: cache, TLB, Accessed and
Dirty bits of the page tables, the bus log, the data breakpoints matched, the free-value counter; without paging, not in
memory or TLB, and on the bus there are reads only. -/
def State.Reads (s t : State) : Prop :=
  t = { s with cache := t.cache, tlb := t.tlb, mem := t.mem, bus := t.bus, freeCtr := t.freeCtr
               latch := { s.latch with dataBreak := t.latch.dataBreak } } ∧
    (s.pg = false → t.mem = s.mem ∧ t.tlb = s.tlb ∧ s.OnlyReads t)

/-- Every byte of memory but those at `ps` reads in `t` as in `s`; said without paging, whose tables a translation may
mark. -/
def State.KeepsMemory (s t : State) (ps : List BytePlace) : Prop :=
  s.pg = false → ∀ a, (∀ p ∈ ps, s.a20 p.1 ≠ a) → memRead t.mem a = memRead s.mem a

end Sys2Proof.Machine
end

