-- ==== Sys2Proof/Terms.lean ====
section
/-! DEFINITION. The vocabulary of the statements: views of the operand forms, tables of instructions of one shape, and what
it is for an instruction to complete. Nothing here is part of the machine. -/
namespace Sys2Proof.Machine

/-- The instruction answers the next state `t`, in which every byte of memory but those at `ps` reads as before. -/
def Completes (i : Instr) (s t : State) (ps : List BytePlace) : Prop :=
  exec i s = .next t ∧ s.KeepsMemory t ps

/-- The instruction raises an exception, which is delivered with its first byte as the saved EIP; `u` is the state it was
abandoned in. -/
def Raises (i : Instr) (s u : State) (v : Byte) (code : Option Word) : Prop :=
  exec i s = deliverExn { vector := v, code := code, cls := .fault } (rollback s u).abandon

/-! ### Two-operand forms -/

/-- The destination of a two-operand form. -/
def aluDst : AluForm → Rm
  | .ebGb _ m | .evGv _ m | .eb80 m _ | .ev81 m _ | .eb82 m _ | .ev83 m _ => m
  | .gbEb r _ | .gvEv r _ => .reg r
  | .alIb _ | .eaxIv _ => .reg regEAX

/-- The width of a two-operand form, `v` being that of OperandSize. -/
def aluWidth (v : Width) : AluForm → Width
  | .ebGb _ _ | .gbEb _ _ | .alIb _ | .eb80 _ _ | .eb82 _ _ => .w8
  | .evGv _ _ | .gvEv _ _ | .eaxIv _ | .ev81 _ _ | .ev83 _ _ => v

/-- The source of a two-operand form: a register, an r/m operand or an immediate. -/
def aluSource (v : Width) : AluForm → M Nat
  | .ebGb r _ => getReg .w8 r
  | .evGv r _ => getReg v r
  | .gbEb _ m => readRm .w8 m
  | .gvEv _ m => readRm v m
  | .alIb imm | .eb80 _ imm | .eb82 _ imm => pure imm.toNat
  | .eaxIv imm | .ev81 _ imm => pure (imm.toNat % 2 ^ v.bits)
  | .ev83 _ imm => pure (sextByte v imm)

/-- The two-operand instructions that write their destination. -/
inductive AluOp where
  | add
  | adc
  | sub
  | sbb
  | and
  | or
  | xor
  deriving DecidableEq, Repr

/-- The instruction. -/
def AluOp.instr : AluOp → AluForm → Instr
  | .add => .add
  | .adc => .adc
  | .sub => .sub
  | .sbb => .sbb
  | .and => .and
  | .or => .or
  | .xor => .xor

/-- Whether AF is left free: the logical instructions. -/
def AluOp.logical : AluOp → Bool
  | .add | .adc | .sub | .sbb => false
  | .and | .or | .xor => true

/-- The result, from the width, the operands and CF. -/
def AluOp.result (op : AluOp) (n a b c : Nat) : Nat :=
  match op with
  | .add => addResult n a b 0
  | .adc => addResult n a b c
  | .sub => subResult n a b 0
  | .sbb => subResult n a b c
  | .and => a &&& b
  | .or => a ||| b
  | .xor => a ^^^ b

/-- The flags, `u` being the free AF of a logical instruction. -/
def AluOp.flags (op : AluOp) (n a b c : Nat) (u : Bool) : Flags → Flags :=
  match op with
  | .add => addFlags n a b 0
  | .adc => addFlags n a b c
  | .sub => subFlags n a b 0
  | .sbb => subFlags n a b c
  | .and => logicFlags n (a &&& b) u
  | .or => logicFlags n (a ||| b) u
  | .xor => logicFlags n (a ^^^ b) u

/-- The free-value counter moves when AF is free. -/
def AluOp.drawn (op : AluOp) (s : State) : State := if op.logical then s.drawn else s

/-- The forms of TEST as two-operand forms. -/
def testForm : TestForm → AluForm
  | .ebGb r m => .ebGb r m
  | .evGv r m => .evGv r m
  | .alIb imm => .alIb imm
  | .eaxIv imm => .eaxIv imm
  | .ebIb m imm => .eb80 m imm
  | .evIv m imm => .ev81 m imm

/-! ### One-operand instructions -/

/-- The one-operand instructions that write their operand. -/
inductive UnOp where
  | inc
  | dec
  | neg
  | not
  deriving DecidableEq, Repr

/-- The instruction on a byte operand, or on one of OperandSize. -/
def UnOp.instr (op : UnOp) (byte : Bool) (m : Rm) : Instr :=
  match op, byte with
  | .inc, true => .inc (.eb m)
  | .inc, false => .inc (.ev m)
  | .dec, true => .dec (.eb m)
  | .dec, false => .dec (.ev m)
  | .neg, true => .neg (.eb m)
  | .neg, false => .neg (.ev m)
  | .not, true => .not (.eb m)
  | .not, false => .not (.ev m)

/-- The result. -/
def UnOp.result (op : UnOp) (n a : Nat) : Nat :=
  match op with
  | .inc => addResult n a 1 0
  | .dec => subResult n a 1 0
  | .neg => subResult n 0 a 0
  | .not => a ^^^ (2 ^ n - 1)

/-- The flags: INC and DEC keep CF, NOT keeps all. -/
def UnOp.flags (op : UnOp) (n a : Nat) (f : Flags) : Flags :=
  match op with
  | .inc => { addFlags n a 1 0 f with cf := f.cf }
  | .dec => { subFlags n a 1 0 f with cf := f.cf }
  | .neg => subFlags n 0 a 0 f
  | .not => f

/-- The width of an operand: a byte, or `v`. -/
def pickWidth (byte : Bool) (v : Width) : Width := if byte then .w8 else v

/-- The group 3 form of an r/m operand. -/
def unaryForm (byte : Bool) (m : Rm) : UnaryForm := if byte then .eb m else .ev m

/-! ### Multiplication and division -/

/-- AX, DX:AX or EDX:EAX replaced. -/
def State.withDouble (s : State) (w : Width) (v : Nat) : State :=
  match w with
  | .w8 => s.withReg .w16 regEAX v
  | w => (s.withReg w regEAX (v % 2 ^ w.bits)).withReg w regEDX (v / 2 ^ w.bits % 2 ^ w.bits)

/-- AX, DX:AX or EDX:EAX. -/
def doubleReg (w : Width) (r : Regs) : Nat :=
  match w with
  | .w8 => r.read .w16 regEAX
  | w => r.read w regEAX + r.read w regEDX * 2 ^ w.bits

/-- Quotient and remainder in AL and AH, AX and DX, or EAX and EDX. -/
def State.withQuotient (s : State) (w : Width) (q r : Nat) : State :=
  match w with
  | .w8 => s.withReg .w16 regEAX (r * 2 ^ 8 + q)
  | w => (s.withReg w regEAX q).withReg w regEDX r

/-- CF = OF = `c`, the other status flags free. -/
def productFlags (u : BitVec 128) (c : Bool) (f : Flags) : Flags := { freeStatus u f with cf := c, ovf := c }

/-! ### Decimal adjustment -/

/-- AL and AH replaced. -/
def State.withAX (s : State) (al ah : Nat) : State := s.withReg .w16 regEAX (ah * 2 ^ 8 + al)

/-- AF = CF = `c`, the other status flags free (40_integer R330, R333). -/
def asciiFlags (u : BitVec 128) (c : Bool) (f : Flags) : Flags := { freeStatus u f with af := c, cf := c }

/-! ### Shifts and rotates -/

/-- The operand of a shift form. -/
def shiftRm : ShiftForm → Rm
  | .ebIb m _ | .evIb m _ | .eb1 m | .ev1 m | .ebCl m | .evCl m => m

/-- The width of a shift form. -/
def shiftWidth (v : Width) : ShiftForm → Width
  | .ebIb _ _ | .eb1 _ | .ebCl _ => .w8
  | .evIb _ _ | .ev1 _ | .evCl _ => v

/-- The count of a shift form: immediate, 1 or CL, modulo 32 (42_integer R429). -/
def shiftCount (r : Regs) : ShiftForm → Nat
  | .ebIb _ imm | .evIb _ imm => imm.toNat % 32
  | .eb1 _ | .ev1 _ => 1
  | .ebCl _ | .evCl _ => r.read .w8 regECX % 32

/-- The rows /4 of SHL. -/
def shlForm : ShiftForm → ShlForm
  | .ebIb m imm => .ebIb m imm
  | .evIb m imm => .evIb m imm
  | .eb1 m => .eb1 m
  | .ev1 m => .ev1 m
  | .ebCl m => .ebCl m
  | .evCl m => .evCl m

/-- The shifts and rotates of one operand. -/
inductive ShiftOp where
  | rol
  | ror
  | rcl
  | rcr
  | shl
  | shr
  | sar
  deriving DecidableEq, Repr

/-- The instruction. -/
def ShiftOp.instr (op : ShiftOp) (f : ShiftForm) : Instr :=
  match op with
  | .rol => .rol f
  | .ror => .ror f
  | .rcl => .rcl f
  | .rcr => .rcr f
  | .shl => .shl (shlForm f)
  | .shr => .shr f
  | .sar => .sar f

/-- The result, CF and OF for width `n`, count `c`, operand `a` and CF `cf`; `none` where undefined. -/
def ShiftOp.out (op : ShiftOp) (n c a : Nat) (cf : Bool) : Shifted :=
  match op with
  | .rol => rolOp n c a
  | .ror => rorOp n c a
  | .rcl => rclOp n c a cf
  | .rcr => rcrOp n c a cf
  | .shl => shlOp n c a
  | .shr => shrOp n c a
  | .sar => sarOp n c a

/-- Whether a count changes anything: not 0, for RCL and RCR not 0 modulo N + 1 (42_integer R429, R432, R433). -/
def ShiftOp.live (op : ShiftOp) (n c : Nat) : Bool :=
  match op with
  | .rcl | .rcr => c % (n + 1) != 0
  | .rol | .ror | .shl | .shr | .sar => c != 0

/-- A rotate changes CF and OF only. -/
def ShiftOp.rotates (op : ShiftOp) : Bool :=
  match op with
  | .rol | .ror | .rcl | .rcr => true
  | .shl | .shr | .sar => false

/-- The flags; `fc`, `fo`, `fa` stand for CF, OF and AF where they are undefined. -/
def ShiftOp.flags (op : ShiftOp) (n : Nat) (x : Shifted) (fc fo fa : Bool) (f : Flags) : Flags :=
  if op.rotates then { f with cf := x.cf.getD fc, ovf := x.ovf.getD fo }
  else szp n x.val { f with cf := x.cf.getD fc, ovf := x.ovf.getD fo, af := fa }

/-- The operand, register and count of SHLD and SHRD. -/
def dshiftRm : DshiftForm → Rm
  | .ib _ m _ => m
  | .cl _ m => m
/-- The register that shifts in. -/
def dshiftReg : DshiftForm → RegNum
  | .ib r _ _ => r
  | .cl r _ => r
/-- The count modulo 32. -/
def dshiftCount (r : Regs) : DshiftForm → Nat
  | .ib _ _ imm => imm.toNat % 32
  | .cl _ _ => r.read .w8 regECX % 32

/-- What SHLD (`left`) or SHRD gives for a count of 1 to N: the result, CF, and OF for a count of 1 (42_integer R437,
R438). -/
def dshiftOut (left : Bool) (n c a b : Nat) : Shifted :=
  let x := if left then shldVal n c a b else shrdVal n c a b
  { val := x
    cf := some (if left then a.testBit (n - c) else a.testBit (c - 1))
    ovf := if c = 1 then some (x.testBit (n - 1) != a.testBit (n - 1)) else none }

/-! ### Bit tests -/

/-- The bit tests. -/
inductive BitOp where
  | bt
  | bts
  | btr
  | btc
  deriving DecidableEq, Repr

/-- The instruction. -/
def BitOp.instr (op : BitOp) (f : BitForm) : Instr :=
  match op with
  | .bt => .bt f
  | .bts => .bts f
  | .btr => .btr f
  | .btc => .btc f

/-- The new value of the bit (BT leaves it). -/
def BitOp.newBit (op : BitOp) (b : Bool) : Bool :=
  match op with
  | .bt => b
  | .bts => true
  | .btr => false
  | .btc => !b

/-- A value with one bit replaced. -/
def withBit (x bit : Nat) (b : Bool) : Nat := if b = x.testBit bit then x else x ^^^ 2 ^ bit

/-- The bit offset of a form: an immediate modulo the width, or a signed register. -/
def bitOffset (v : Width) (r : Regs) : BitForm → Int
  | .evIb _ imm => (imm.toNat % v.bits : Nat)
  | .evGv n _ => toSigned v.bits (r.read v n)

/-- CF = `b`, the other status flags free. -/
def bitTestFlags (u : BitVec 128) (b : Bool) (f : Flags) : Flags := { freeStatus u f with cf := b }

/-! ### Conditions -/

/-- SETcc of a condition. -/
def setccInstr (c : Cond) (r : RegNum) (m : Rm) : Instr :=
  match c with
  | .o => .setO r m
  | .no => .setNo r m
  | .b => .setB r m
  | .ae => .setAe r m
  | .e => .setE r m
  | .ne => .setNe r m
  | .be => .setBe r m
  | .a => .setA r m
  | .s => .setS r m
  | .ns => .setNs r m
  | .p => .setP r m
  | .np => .setNp r m
  | .l => .setL r m
  | .ge => .setGe r m
  | .le => .setLe r m
  | .g => .setG r m

/-- Jcc of a condition. -/
def jccInstr (c : Cond) (f : JccForm) : Instr :=
  match c with
  | .o => .jO f
  | .no => .jNo f
  | .b => .jB f
  | .ae => .jAe f
  | .e => .jE f
  | .ne => .jNe f
  | .be => .jBe f
  | .a => .jA f
  | .s => .jS f
  | .ns => .jNs f
  | .p => .jP f
  | .np => .jNp f
  | .l => .jL f
  | .ge => .jGe f
  | .le => .jLe f
  | .g => .jG f

/-! ### Data movement -/

/-- A 16-bit value as an operand of size `z`: with 32 bits, `u` is its free upper half (U9). -/
def withUpper (z : Size) (u : Word) (v : Word) : Nat :=
  match z with
  | .s16 => v.toNat
  | .s32 => (u ++ v : DWord).toNat

/-- A load of SS sets the interrupt shadow (41_integer R362, R367); LSS does not (R374). -/
def State.shadowed (s : State) (n : SegName) : State :=
  if n = .ss then { s with latch := { s.latch with shadow := .held } } else s

/-- The far pointer at a memory operand: its offset is read, then its selector above it (41_integer R374); `t` is the state
after both. -/
def State.ReadsFar (s : State) (m : Mem) (off : Nat) (sel : Word) (t : State) : Prop :=
  ∃ (x : Nat) (u : State), loadMem m 0 s.osz.bytes s.osz.bytes s = .ok off u ∧ loadMem m s.osz.bytes 2 2 u = .ok x t ∧
    sel = BitVec.ofNat 16 x

/-- LES, LDS, LSS, LFS, LGS by segment register; CS has none. -/
def farLoadInstr (n : SegName) (r : RegNum) (m : Mem) : Option Instr :=
  match n with
  | .es => some (.les r m)
  | .cs => none
  | .ss => some (.lss r m)
  | .ds => some (.lds r m)
  | .fs => some (.lfs r m)
  | .gs => some (.lgs r m)

/-- POP of a segment register; CS has none. -/
def popSegForm (n : SegName) : Option PopForm :=
  match n with
  | .es => some .es
  | .cs => none
  | .ss => some .ss
  | .ds => some .ds
  | .fs => some .fs
  | .gs => some .gs

/-- PUSH of a segment register. -/
def pushSegForm (n : SegName) : PushForm :=
  match n with
  | .es => .es
  | .cs => .cs
  | .ss => .ss
  | .ds => .ds
  | .fs => .fs
  | .gs => .gs

/-- What PUSH pushes, for the forms other than segment registers. -/
def pushOperand (v : Width) : PushForm → Option (M Nat)
  | .reg r => some (getReg v r)
  | .iv imm => some (pure (imm.toNat % 2 ^ v.bits))
  | .ib imm => some (pure (sextByte v imm))
  | .ev m => some (readRm v m)
  | .es | .cs | .ss | .ds | .fs | .gs => none

/-- `k` pops of `n` bytes, the first value first. -/
def popMany (n : Nat) : Nat → M (List Nat)
  | 0 => pure []
  | k + 1 => do
    let v ← Sys2Proof.Machine.pop n
    let vs ← popMany n k
    pure (v :: vs)

/-- Each value is read at its source and then written at its destination, in turn, from `s` to `t` (43_integer R504). -/
def CopiesFrames : List (List BytePlace) → List (List BytePlace) → State → State → Prop
  | src :: srcs, dst :: dsts, s, t => ∃ (v : Nat) (u : State), readBytes false src s = .ok v u ∧ CopiesFrames srcs dsts (u.wrote dst v) t
  | _, _, s, t => t = s

/-! ### Far transfers in protected mode (43_integer R488, R500) -/

/-- The selector names a code segment that a far JMP or CALL of `s` may enter at `off`: its descriptor is read at `u`; `cs` is
what CS becomes, `sp` the descriptor still to be marked accessed, `v` the state once its place is known. -/
def State.FarCode (s : State) (sel : Word) (off : DWord) (u : State) (cs : SegReg) (sp : Spot) (v : State) : Prop :=
  ∃ (a : Nat) (d : Desc) (w : State), isNull sel = false ∧ s.descAddr sel = some a ∧ readDesc a u = .ok d w ∧
    d.hidden.isCode = true ∧
    (if d.hidden.conforming then d.dpl ≤ s.cpl else sel.extractLsb' 0 2 ≤ s.cpl ∧ d.dpl = s.cpl) ∧
    d.present = true ∧ off ≤ d.limit ∧ markSpot a d w = .ok sp v ∧
    cs = { sel := (sel &&& 0xFFFC) ||| s.cpl.setWidth 16, hid := { d.hidden with type := d.type ||| 1 } }

/-- A data segment register after a return to privilege level `cpl`: unusable if it holds data or non-conforming code of an
inner level. -/
def SegReg.keptFor (r : SegReg) (cpl : BitVec 2) : SegReg :=
  if r.hid.s = true ∧ (r.hid.type.getLsbD 3 = false ∨ r.hid.type.getLsbD 2 = false) ∧ r.hid.dpl < cpl then
    { sel := 0, hid := { r.hid with valid := false } }
  else r

/-- The return to an outer level, from `s` with the far return address popped and checked (`a`, `d` the descriptor of CS): the
parameters are skipped, ESP and SS popped and SS checked, both descriptors marked, CPL, CS, SS and EIP loaded, the data
segment registers checked, and the parameters skipped on the outer stack too. -/
def State.ReturnsOuter (s : State) (n imm : Nat) (sel : Word) (off : DWord) (a : Nat) (d : Desc) (t : State) : Prop :=
  let rpl := sel.extractLsb' 0 2
  ∃ (esp ss : Nat) (h : Hidden) (ssSpot csSpot : Spot) (s1 s2 s3 s4 s5 : State),
    let ssSel := BitVec.ofNat 16 ss
    popMany n 2 (s.withSP (s.sp + imm)) = .ok [esp, ss] s1 ∧
    checkSS ssSel rpl (raiseGP 0) (raiseGP (ssSel &&& 0xFFFC)) s1 = .ok (h, ssSpot) s2 ∧
    markSpot a d s2 = .ok csSpot s3 ∧ setMark ssSpot 1 s3 = .ok () s4 ∧ setMark csSpot 1 s4 = .ok () s5 ∧
    t = ({ s5 with
      cpl := rpl
      eip := off
      segs :=
        { cs := { sel := sel, hid := { d.hidden with type := d.type ||| 1 } }
          ss := { sel := ssSel, hid := h }
          ds := s.segs.ds.keptFor rpl
          es := s.segs.es.keptFor rpl
          fs := s.segs.fs.keptFor rpl
          gs := s.segs.gs.keptFor rpl } }.transferred).withSP (esp + imm)

/-! ### System instructions -/

/-- The privileged instructions (44_integer R556): what they are, whatever their operands; `c`, `k` and `t` are numbers of
control, debug and test registers. -/
def privileged (m : Rm) (a : Mem) (k c r t : RegNum) (mode : BitVec 2) : List Instr :=
  [.hlt, .clts, .invd, .wbinvd, .lmsw m, .lldt m, .ltr m, .lgdt a, .lidt a, .invlpg a, .mov (.fromCr mode c r), .mov (.toCr mode c r),
    .mov (.fromDr mode k r), .mov (.toDr mode k r), .mov (.fromTr mode t r), .mov (.toTr mode t r)]

/-- The instructions that exist in protected mode only (44_integer R595 (g)). -/
def protectedOnly (r : RegNum) (m : Rm) : List Instr :=
  [.sldt m, .str m, .lldt m, .ltr m, .verr m, .verw m, .lar r m, .lsl r m, .arpl r m]

/-- The instructions and forms that take LOCK (30_encoding R275): those of its list, with a destination in memory. -/
def takesLock : Instr → Bool
  | .add f | .adc f | .sub f | .sbb f | .and f | .or f | .xor f => (aluDst f).isMem
  | .inc (.eb m) | .inc (.ev m) | .dec (.eb m) | .dec (.ev m) => m.isMem
  | .neg (.eb m) | .neg (.ev m) | .not (.eb m) | .not (.ev m) => m.isMem
  | .xchg (.ebGb _ m) | .xchg (.evGv _ m) => m.isMem
  | .xadd (.ebGb _ m) | .xadd (.evGv _ m) | .cmpxchg (.ebGb _ m) | .cmpxchg (.evGv _ m) => m.isMem
  | .bts f | .btr f | .btc f => (BitForm.rm f).isMem
  | _ => false

/-- The value SLDT, STR and SMSW store, by instruction. -/
def systemWord (s : State) (m : Rm) : List (Instr × Word) :=
  [(.sldt m, s.ldtr.sel), (.str m, s.tr.sel), (.smsw m, s.cr0.setWidth 16)]

/-! ### Ports -/

/-- The port number of IN: an immediate or DX. -/
def inPortOf (r : Regs) : InForm → Nat
  | .alIb imm | .eaxIb imm => imm.toNat
  | .alDx | .eaxDx => r.read .w16 regEDX
/-- The width of IN. -/
def inWidth (v : Width) : InForm → Width
  | .alIb _ | .alDx => .w8
  | .eaxIb _ | .eaxDx => v
/-- The port number of OUT. -/
def outPortOf (r : Regs) : OutForm → Nat
  | .ibAl imm | .ibEax imm => imm.toNat
  | .dxAl | .dxEax => r.read .w16 regEDX
/-- The width of OUT. -/
def outWidth (v : Width) : OutForm → Width
  | .ibAl _ | .dxAl => .w8
  | .ibEax _ | .dxEax => v

/-- The state after byte cycles read `bs` from ports `port` on, modulo 2^16 (92_eei_decisions D15), the first byte first: D15 gives
no order, the rising one is the model's choice (notes/assumptions/10). -/
def State.portBytesRead (s : State) (port : Nat) : List Byte → State
  | [] => s
  | b :: bs => ({ s with freeCtr := s.freeCtr + 1 }.drive (.ioRead (BitVec.ofNat 16 port) 1 (b.setWidth 32))).portBytesRead (port + 1) bs

/-- The state after byte cycles write `bs` to ports `port` on, modulo 2^16 (92_eei_decisions D15), the first byte first: the
model's choice, as for reads (notes/assumptions/10). -/
def State.portBytesWritten (s : State) (port : Nat) : List Byte → State
  | [] => s
  | b :: bs => (s.drive (.ioWrite (BitVec.ofNat 16 port) 1 (b.setWidth 32))).portBytesWritten (port + 1) bs

/-- The number bytes stand for, the first the least significant (20_memory R100). -/
def bytesValue : List Byte → Nat
  | [] => 0
  | b :: bs => b.toNat + 256 * bytesValue bs

/-! ### String instructions -/

/-- The string instructions. -/
inductive StringOp where
  | movs
  | cmps
  | scas
  | lods
  | stos
  | ins
  | outs
  deriving DecidableEq, Repr

/-- The instruction, byte or by OperandSize. -/
def StringOp.instr (op : StringOp) (byte : Bool) : Instr :=
  match op, byte with
  | .movs, true => .movsb
  | .movs, false => .movsv
  | .cmps, true => .cmpsb
  | .cmps, false => .cmpsv
  | .scas, true => .scasb
  | .scas, false => .scasv
  | .lods, true => .lodsb
  | .lods, false => .lodsv
  | .stos, true => .stosb
  | .stos, false => .stosv
  | .ins, true => .insb
  | .ins, false => .insv
  | .outs, true => .outsb
  | .outs, false => .outsv

/-- Whether a repeat also ends on ZF. -/
def StringOp.scans (op : StringOp) : Bool :=
  match op with
  | .cmps | .scas => true
  | .movs | .lods | .stos | .ins | .outs => false

/-- eSI or eDI advanced by an element of `n` bytes (42_integer R450). -/
def State.advanced (s : State) (r : RegNum) (n : Nat) : State :=
  let v := s.regs.read s.asz.width r
  let z := 2 ^ s.asz.bits
  s.withReg s.asz.width r (if s.flags.df then (v + z - n) % z else (v + n) % z)

/-- One operation of a string instruction on elements of width `w`: from `s` it leaves `t`, having written at `ps`
(42_integer R451 to R457). -/
def StringOp.Once (op : StringOp) (w : Width) (s t : State) (ps : List BytePlace) : Prop :=
  let n := w.bytes
  let si := s.regs.read s.asz.width regESI
  let di := s.regs.read s.asz.width regEDI
  let src := s.dec.seg.getD .ds
  match op with
  | .movs => ∃ x s1 s2, load src si n n s = .ok x s1 ∧ locate .es di n n true s1 = .ok ps s2 ∧
      t = ((s2.wrote ps x).advanced regESI n).advanced regEDI n
  | .cmps => ∃ a b s1 s2, load src si n n s = .ok a s1 ∧ load .es di n n s1 = .ok b s2 ∧ ps = [] ∧
      t = ((s2.withFlags (subFlags w.bits a b 0 s.flags)).advanced regESI n).advanced regEDI n
  | .scas => ∃ b s1, load .es di n n s = .ok b s1 ∧ ps = [] ∧
      t = (s1.withFlags (subFlags w.bits (s.regs.read w regEAX) b 0 s.flags)).advanced regEDI n
  | .lods => ∃ x s1, load src si n n s = .ok x s1 ∧ ps = [] ∧ t = (s1.withReg w regEAX x).advanced regESI n
  | .stos => ∃ s1, locate .es di n n true s = .ok ps s1 ∧ t = (s1.wrote ps (s.regs.read w regEAX)).advanced regEDI n
  | .ins => ∃ x s1 s2 s3, ioCheck (s.regs.read .w16 regEDX) n s = .ok () s1 ∧ locate .es di n n true s1 = .ok ps s2 ∧
      ioRead (s.regs.read .w16 regEDX) n s2 = .ok x s3 ∧ t = (s3.wrote ps x).advanced regEDI n
  | .outs => ∃ x s1 s2 s3, ioCheck (s.regs.read .w16 regEDX) n s = .ok () s1 ∧ load src si n n s1 = .ok x s2 ∧ ps = [] ∧
      ioWrite (s.regs.read .w16 regEDX) n x s2 = .ok () s3 ∧ t = s3.advanced regESI n

/-! ### The floating-point unit -/

/-- The exception pointers and the opcode a numeric instruction leaves (11_fpu_state R83): the address of its first byte,
and of its memory operand, or free values where it has none (U16). -/
def noted (i : Instr) (m : Option Mem) (u : BitVec 128) (s : State) (f : Fpu) : Fpu :=
  { f with
    ip := s.eip
    cs := s.segs.cs.sel
    op := escOpcode i
    dp := match m with
      | some m => BitVec.ofNat 32 (s.memOff m)
      | none => u.extractLsb' 32 32
    ds := match m with
      | some m => (s.segs.get (s.memSeg m)).sel
      | none => u.extractLsb' 64 16 }

/-- The state after a numeric instruction of `s` that was in `t` when it drew its free number and left the FPU `f`. -/
def numericDone (i : Instr) (m : Option Mem) (s t : State) (f : Fpu) : State :=
  (t.drawn.withFpu (noted i m t.draw s f)).complete false

/-- What a numeric result leaves: flags only when I, D or Z is met unmasked, else flags, C1 and what `write` does with the
value (45_fpu_numerics R629, R665). -/
def settled (g : Fpu) (n : Num) (write : Ext → Fpu → Fpu) : Fpu :=
  if n.exc &&& 7 &&& ~~~g.masks = 0 then write n.val ((g.raise n.exc).setC1 n.up) else (g.raise (n.exc &&& 7)).setC1 false

/-- IE, SF and C1 of a stack fault (45_fpu_numerics R640). -/
def Fpu.faulted (g : Fpu) (overflow : Bool) : Fpu := { g with st := { g.st with ie := true, sf := true, c1 := overflow } }

/-- A stack fault and its response: masked, what `respond` makes of the FPU, else nothing more (45_fpu_numerics R640). -/
def Fpu.stackFaulted (g : Fpu) (overflow : Bool) (respond : Fpu → Fpu) : Fpu :=
  if g.masks.getLsbD 0 then respond (g.faulted overflow) else g.faulted overflow

/-- What operands of which one is a NaN or unsupported give, before anything else is looked at (45_fpu_numerics R620, R670):
the indefinite with I, or the chosen NaN made quiet, with I when one is signalling. -/
def nanResult (a b : Ext) : Num :=
  if (extClass a).unsupported || (extClass b).unsupported then ⟨indefinite, excI, false⟩
  else ⟨chooseNan a b, excIf (decide (extClass a = .snan) || decide (extClass b = .snan)) excI, false⟩

/-- What a load of a real leaves: an SNaN is invalid, a denormal raises D; masked, the value is pushed (46_fpu R680). -/
def loadedReal (g : Fpu) (x : Operand) : Fpu :=
  if extClass x.val = .snan then
    if g.masks.getLsbD 0 then ((g.raise excI).setC1 false).push (quiet x.val) else (g.raise excI).setC1 false
  else if x.den then
    if g.masks.getLsbD 1 then ((g.raise excD).setC1 false).push x.val else (g.raise excD).setC1 false
  else (g.setC1 false).push x.val

/-- The loads from memory: the instruction, the bytes, their alignment (46_fpu R680 to R682; 20_memory R106). -/
def loadRows (m : Mem) : List (Instr × Nat × Nat) :=
  [(.fld (.m32 m), 4, 4), (.fld (.m64 m), 8, 8), (.fld (.m80 m), 10, 8), (.fild (.m16 m), 2, 2), (.fild (.m32 m), 4, 4),
   (.fild (.m64 m), 8, 8), (.fbld m, 10, 8)]

/-- The constants by instruction: to nearest, down, up (46_fpu R700). -/
def constantLoads : List (Instr × Ext × Ext × Ext) :=
  [(.fldz, 0, 0, 0),
   (.fld1, 0x3FFF8000000000000000#80, 0x3FFF8000000000000000#80, 0x3FFF8000000000000000#80),
   (.fldpi, 0x4000C90FDAA22168C235#80, 0x4000C90FDAA22168C234#80, 0x4000C90FDAA22168C235#80),
   (.fldl2t, 0x4000D49A784BCD1B8AFE#80, 0x4000D49A784BCD1B8AFE#80, 0x4000D49A784BCD1B8AFF#80),
   (.fldl2e, 0x3FFFB8AA3B295C17F0BC#80, 0x3FFFB8AA3B295C17F0BB#80, 0x3FFFB8AA3B295C17F0BC#80),
   (.fldlg2, 0x3FFD9A209A84FBCFF799#80, 0x3FFD9A209A84FBCFF798#80, 0x3FFD9A209A84FBCFF799#80),
   (.fldln2, 0x3FFEB17217F7D1CF79AC#80, 0x3FFEB17217F7D1CF79AB#80, 0x3FFEB17217F7D1CF79AC#80)]

/-- A store of ST(0) to memory: the instruction, the bytes, their alignment, what is stored, the indefinite of the format,
whether it pops. -/
structure StoreRow where
  instr : Instr
  bytes : Nat
  align : Nat
  out : Stored
  indef : Nat
  pops : Bool

/-- The stores of `x` = ST(0) to memory; the indefinites are those of 45_fpu_numerics R634. -/
def storeRows (m : Mem) (f : Fpu) (x : Ext) : List StoreRow :=
  [⟨.fst (.m32 m), 4, 4, toReal single f x, 0xFFC00000, false⟩, ⟨.fst (.m64 m), 8, 8, toReal double f x, 0xFFF8000000000000, false⟩,
   ⟨.fstp (.m32 m), 4, 4, toReal single f x, 0xFFC00000, true⟩, ⟨.fstp (.m64 m), 8, 8, toReal double f x, 0xFFF8000000000000, true⟩,
   ⟨.fstp (.m80 m), 10, 8, ⟨x.toNat, 0, false⟩, 0xFFFFC000000000000000, true⟩,
   ⟨.fist (.m16 m), 2, 2, toInteger 16 f x, 0x8000, false⟩, ⟨.fist (.m32 m), 4, 4, toInteger 32 f x, 0x80000000, false⟩,
   ⟨.fistp (.m16 m), 2, 2, toInteger 16 f x, 0x8000, true⟩, ⟨.fistp (.m32 m), 4, 4, toInteger 32 f x, 0x80000000, true⟩,
   ⟨.fistp (.m64 m), 8, 8, toInteger 64 f x, 0x8000000000000000, true⟩,
   ⟨.fbstp m, 10, 8, toPacked f x, 0xFFFFC000000000000000, true⟩]

/-- A pop or not. -/
def popIf (b : Bool) (f : Fpu) : Fpu := if b then f.pop else f

/-- A basic operation and its instructions: real and register forms, integer forms, popping form. -/
structure BasicRow where
  op : BasicOp
  real : FarithForm → Instr
  int : FistForm → Instr
  pop : RegNum → Instr

/-- The basic operations (47_fpu R723 to R728). -/
def basicRows : List BasicRow :=
  [⟨opAdd, .fadd, .fiadd, .faddp⟩, ⟨opSub, .fsub, .fisub, .fsubp⟩, ⟨opSubr, .fsubr, .fisubr, .fsubrp⟩,
   ⟨opMul, .fmul, .fimul, .fmulp⟩, ⟨opDiv, .fdiv, .fidiv, .fdivp⟩, ⟨opDivr, .fdivr, .fidivr, .fdivrp⟩]

/-- `p` is the number of significant bits PC selects; for its reserved code one of the three (11_fpu_state R67, U13). -/
def Fpu.rounds (f : Fpu) (p : Nat) : Prop :=
  (f.pc = 0 → p = 24) ∧ (f.pc = 2 → p = 53) ∧ (f.pc = 3 → p = 64) ∧ (p = 24 ∨ p = 53 ∨ p = 64)

/-- The number a finite value stands for. -/
def Finite.value (x : Finite) : ℚ := (if x.neg then -1 else 1) * x.sig * (2 : ℚ) ^ x.exp

/-- The number an extended value of a finite class stands for. -/
def extValue (x : Ext) : ℚ := (extFinite x).value

/-- A finite number: zero, denormal or normal. -/
def finiteExt (x : Ext) : Bool :=
  match extClass x with
  | .zero | .denormal | .pseudoDenormal | .normal => true
  | .unnormal | .infinity | .qnan | .snan | .pseudo => false

/-- Neither operand is a NaN or unsupported. -/
def ordinary (a b : Ext) : Bool :=
  !(extClass a).isNan && !(extClass b).isNan && !(extClass a).unsupported && !(extClass b).unsupported

/-- D is met by one of two operands, and it is not masked. -/
def Fpu.denormalStops (f : Fpu) (a b : Operand) : Bool := (a.den || b.den) && !f.masks.getLsbD 1

/-- The comparisons of ST(0) with a register: the instruction, the register, whether a QNaN is allowed, the pops. -/
def compareRows (i : RegNum) : List (Instr × RegNum × Bool × Nat) :=
  [(.fcom (.st i), i, false, 0), (.fcomp (.st i), i, false, 1), (.fcompp, 1, false, 2), (.fucom i, i, true, 0),
   (.fucomp i, i, true, 1), (.fucompp, 1, true, 2)]

/-- The comparisons of ST(0) with memory: the instruction, the bytes, the operand, whether it pops. -/
def compareMemRows (m : Mem) (v : Nat) : List (Instr × Nat × Operand × Nat) :=
  [(.fcom (.m32 m), 4, ofReal single v, 0), (.fcom (.m64 m), 8, ofReal double v, 0),
   (.fcomp (.m32 m), 4, ofReal single v, 1), (.fcomp (.m64 m), 8, ofReal double v, 1),
   (.ficom (.m16 m), 2, ofInteger 16 v, 0), (.ficom (.m32 m), 4, ofInteger 32 v, 0),
   (.ficomp (.m16 m), 2, ofInteger 16 v, 1), (.ficomp (.m32 m), 4, ofInteger 32 v, 1)]

/-- `k` pops. -/
def Fpu.pops (f : Fpu) : Nat → Fpu
  | 0 => f
  | k + 1 => f.pop.pops k

/-- What a comparison of `a` = ST(0) with `b` leaves (47_fpu R750, R751, R756). -/
def compared (g : Fpu) (quietOk : Bool) (a b : Operand) (pops : Nat) (u : BitVec 128) : Fpu :=
  let g := g.setC1 false
  let unordered := g.setCodes true true true
  if compareInvalid quietOk a.val b.val then
    if g.masks.getLsbD 0 then (unordered.raise excI).pops pops else unordered.raise excI
  else if !ordinary a.val b.val then unordered.pops pops
  else if g.denormalStops a b then (g.raise excD).freeCodes u
  else
    ((g.raise (excIf (a.den || b.den) excD)).setRelation (relationOf a.val b.val)).pops pops

/-- A first byte of D8H to DFH: an ESC instruction. -/
def isEsc (i : Instr) : Bool := !i.raw.two && decide (0xD8 ≤ i.raw.op.toNat) && decide (i.raw.op.toNat ≤ 0xDF)

/-- The ESC instructions that do not wait for a pending error (49_fpu_control R801, R813; 45_fpu_numerics R675 (a)). -/
def noWait : Instr → Bool
  | .fninit | .fnstcw _ | .fnstsw _ | .fnclex | .feni | .fdisi | .fsetpm | .fnstenv _ | .fnsave _ | .undefinedEsc _ => true
  | _ => false

/-- The exception pointers as an environment image holds them (11_fpu_state R84 to R87): in protected mode offsets and
selectors, in real mode linear addresses and the opcode. -/
def PointersStored (pe : Bool) (z : Size) (f : Fpu) (image : Nat) : Prop :=
  let field (k n : Nat) : Nat := image / 2 ^ (8 * k) % 2 ^ (8 * n)
  let li := (f.cs.toNat * 16 + f.ip.toNat) % 2 ^ 32
  let ld := (f.ds.toNat * 16 + f.dp.toNat) % 2 ^ 32
  match pe, z with
  | true, .s32 => field 12 4 = f.ip.toNat ∧ field 16 2 = f.cs.toNat ∧ field 20 4 = f.dp.toNat ∧ field 24 2 = f.ds.toNat
  | false, .s32 => field 12 2 = li % 2 ^ 16 ∧ field 16 4 = f.op.toNat + li / 2 ^ 16 * 2 ^ 12 ∧
      field 20 2 = ld % 2 ^ 16 ∧ field 24 4 = ld / 2 ^ 16 * 2 ^ 12
  | true, .s16 => field 6 2 = f.ip.toNat % 2 ^ 16 ∧ field 8 2 = f.cs.toNat ∧ field 10 2 = f.dp.toNat % 2 ^ 16 ∧ field 12 2 = f.ds.toNat
  | false, .s16 => field 6 2 = li % 2 ^ 16 ∧ field 8 2 = f.op.toNat + li / 2 ^ 16 % 16 * 2 ^ 12 ∧
      field 10 2 = ld % 2 ^ 16 ∧ field 12 2 = ld / 2 ^ 16 % 16 * 2 ^ 12

/-- The exception pointers that loading the image `v` over `f` gives in `h`. The linear addresses of a real-mode image are kept
as offsets with selector 0, a protected-mode image holds no opcode, and one of 14 bytes only 16 bits of each offset: the
model's choices (notes/assumptions/52; 92_eei_decisions D20). -/
def PointersLoaded (pe : Bool) (z : Size) (v : Nat) (f h : Fpu) : Prop :=
  let field (k n : Nat) : Nat := v / 2 ^ (8 * k) % 2 ^ (8 * n)
  match pe, z with
  | true, .s32 => h.ip.toNat = field 12 4 ∧ h.cs.toNat = field 16 2 ∧ h.dp.toNat = field 20 4 ∧ h.ds.toNat = field 24 2 ∧ h.op = f.op
  | false, .s32 => h.ip.toNat = field 12 2 + field 16 4 / 2 ^ 12 % 2 ^ 16 * 2 ^ 16 ∧ h.cs = 0 ∧ h.op.toNat = field 16 2 % 2 ^ 11 ∧
      h.dp.toNat = field 20 2 + field 24 4 / 2 ^ 12 % 2 ^ 16 * 2 ^ 16 ∧ h.ds = 0
  | true, .s16 => h.ip.toNat = field 6 2 ∧ h.cs.toNat = field 8 2 ∧ h.dp.toNat = field 10 2 ∧ h.ds.toNat = field 12 2 ∧ h.op = f.op
  | false, .s16 => h.ip.toNat = field 6 2 + field 8 2 / 2 ^ 12 * 2 ^ 16 ∧ h.cs = 0 ∧ h.op.toNat = field 8 2 % 2 ^ 11 ∧
      h.dp.toNat = field 10 2 + field 12 2 / 2 ^ 12 * 2 ^ 16 ∧ h.ds = 0

/-! ### Exceptions and interrupts -/

/-- A software interrupt at a state whose EIP is the next instruction's (43_integer R501). -/
def State.softEvent (s : State) (v : Byte) : Event :=
  { kind := .software, vector := v, code := none, cs := s.segs.cs.sel, ip := s.eip, rf := s.flags.rf }

/-- An exception whose saved CS:EIP is that of the state (60_exceptions R842). -/
def State.faultEvent (s : State) (v : Byte) (code : Option Word) : Event :=
  { kind := .exception, vector := v, code := code, cs := s.segs.cs.sel, ip := s.eip, rf := true }

/-- The entry for an event in real mode (60_exceptions R871): FLAGS, CS and IP are pushed, IF and TF cleared, CS:IP loaded
from the interrupt table. From `s` it leads to `t`, having written at `ps`. -/
def Event.EntersReal (ev : Event) (s t : State) (ps : List BytePlace) : Prop :=
  let entry := s.idtr.base.toNat + 4 * ev.vector.toNat
  s.pe = false ∧ 4 * ev.vector.toNat + 3 ≤ s.idtr.limit.toNat ∧
  ∃ (pss : List (List BytePlace)) (off sel : Nat) (s1 s2 s3 : State),
    pushPlaces 2 1 3 0 s = .ok pss s1 ∧ ps = pss.flatten ∧
    linRead entry 2 ((s1.wroteAll pss
      [(ev.image s.flags).toNat % 2 ^ 16, ev.cs.toNat, ev.ip.toNat % 2 ^ 16]).withSP (s.spMinus 6)) = .ok off s2 ∧
    linRead (entry + 2) 2 s2 = .ok sel s3 ∧
    t = ev.effects
      { s3 with
        flags := { s.flags with intf := false, tf := false }
        segs := s.segs.set .cs
          { sel := BitVec.ofNat 16 sel, hid := { s.segs.cs.hid with base := (BitVec.ofNat 16 sel).setWidth 32 <<< 4, valid := true } }
        eip := BitVec.ofNat 32 off }

/-- The gate of an event in protected mode, read locked (21_bus R232), that gate's code segment with its descriptor's address, all present and of the
right kind, and the state after they are read (60_exceptions R872). -/
def Event.HasGate (ev : Event) (s : State) (g d : Desc) (a : Nat) (u : State) : Prop :=
  s.pe = true ∧ 8 * ev.vector.toNat + 7 ≤ s.idtr.limit.toNat ∧
  ∃ s1 : State, readGate (s.idtr.base.toNat + 8 * ev.vector.toNat) s = .ok g s1 ∧
    g.s = false ∧ g.type.toNat ∈ [6, 7, 14, 15] ∧ g.present = true ∧ (ev.kind = .software → s.cpl ≤ g.dpl) ∧
    isNull g.gateSel = false ∧ s.descAddr g.gateSel = some a ∧ readDesc a s1 = .ok d u ∧
    d.hidden.isCode = true ∧ d.dpl ≤ s.cpl ∧ d.present = true

/-- The size of a gate: type bit 3. -/
def Desc.gateSize (g : Desc) : Size := if g.type.getLsbD 3 then .s32 else .s16

/-- The flags after an entry through a gate (60_exceptions R872): an interrupt gate clears IF. -/
def Desc.gateFlags (g : Desc) (f : Flags) : Flags :=
  { f with tf := false, nt := false, vm := false, rf := false, intf := f.intf && g.type.getLsbD 0 }

/-- The error code as an item of the frame: its upper half, with 32 bits, is `u`, but 0 for a page fault (60_exceptions R843,
R858). -/
def Event.codeItem (ev : Event) (z : Size) (u : Word) : List Nat :=
  match ev.code with
  | none => []
  | some c => [if ev.vector = 14 then c.toNat else withUpper z u c]

/-- The frame pushed and CS:EIP loaded, from `s` with privilege level `cpl` and the items `items` (60_exceptions R872); the
descriptors of CS and of a new SS (`ssSpot`) are marked accessed. -/
def Event.EntersFrame (ev : Event) (g d : Desc) (a : Nat) (f : Flags) (ssSpot : Spot) (items : List Nat) (s t : State)
    (pss : List (List BytePlace)) : Prop :=
  let z := g.gateSize
  ∃ (csSpot : Spot) (s1 s2 s3 s4 : State), pushPlaces z.bytes z.bytes items.length 0 s = .ok pss s1 ∧
    g.gateOffset z ≤ d.limit ∧ markSpot a d s1 = .ok csSpot s2 ∧ setMark ssSpot 1 s2 = .ok () s3 ∧
    setMark csSpot 1 s3 = .ok () s4 ∧
    t = ev.effects
      { (s4.wroteAll pss items).withSP (s.spMinus (z.bytes * items.length)) with
        flags := g.gateFlags f
        segs := s.segs.set .cs { sel := (g.gateSel &&& 0xFFFC) ||| s.cpl.setWidth 16, hid := d.marked }
        eip := g.gateOffset z }

/-! ### Fetching -/

/-- The bytes `bs` are fetched at CS offset `off` and on, one by one, from `s` to `t`. -/
def State.Fetches (s : State) (off : Nat) (bs : List Byte) (t : State) : Prop :=
  match bs with
  | [] => t = s
  | b :: bs => ∃ u : State, fetchByte off s = .ok b u ∧ u.Fetches (off + 1) bs t

/-- The bytes of memory at the places of an operand, the first the least significant. -/
def memBytes (s : State) : List BytePlace → Nat
  | [] => 0
  | (pa, _) :: ps => (memRead s.mem (s.a20 pa)).toNat + 256 * memBytes s ps

/-- Memory without cache, devices or breakpoints: nothing cached and caching off, RAM everywhere, no data breakpoint armed. -/
def State.Uncached (s : State) : Prop :=
  s.cd = true ∧ s.cache.lines = [] ∧ s.regions = [] ∧ s.dbg.dr7 &&& 0xFF = 0 ∧ Memory.wf s.mem = true

/-- Plain memory: no paging, nothing cached and caching off, RAM everywhere, no data breakpoint armed. -/
def State.Plain (s : State) : Prop :=
  s.pg = false ∧ s.cd = true ∧ s.cache.lines = [] ∧ s.regions = [] ∧ s.dbg.dr7 &&& 0xFF = 0 ∧ Memory.wf s.mem = true

/-- The page table entry at a physical address. -/
def State.entryAt (s : State) (a : Nat) : Nat := memBytes s (places a s.cr3Attr 4)

/-- The physical address of the page directory entry of a linear address (20_memory R145). -/
def State.directoryEntry (s : State) (lin : Nat) : Nat := s.cr3.toNat / 2 ^ 12 * 2 ^ 12 + lin / 2 ^ 22 * 4

/-- The physical address of the page table entry of a linear address (20_memory R145). -/
def State.pageEntry (s : State) (lin : Nat) : Nat :=
  s.entryAt (s.directoryEntry lin) / 2 ^ 12 * 2 ^ 12 + lin / 2 ^ 12 % 2 ^ 10 * 4

/-- The error code of a page fault: a protection violation, a write, at privilege level 3 (20_memory R147). -/
def faultCode (prot write user : Bool) : Word :=
  (if prot then 1 else 0) + (if write then 2 else 0) + (if user then 4 else 0)

end Sys2Proof.Machine
end

