-- ==== Sys2Proof/Certificates/Slice0/Obligations.lean ====
section
/-! DEFINITION. The statements for the provers, spread over the families of the opcode table and the kinds of state. The
hypotheses speak of the state and the operands alone, through the functions the meanings use to locate, read and check them;
the next state is written out with the named updates of Sys2Proof/Safety.lean. -/
open Sys2Proof Sys2Proof.Machine

/-! ### Prefixes -/

/-- A prefix changes the decode variables only (30_encoding R270, R271, R272, R275, R305). -/
def Obligations.PrefixesSetDecodeVariables : Prop := ∀ s : State,
  exec .repPrefix s = .next { s with dec := { s.dec with rep := some .rep } } ∧
  exec .repnePrefix s = .next { s with dec := { s.dec with rep := some .repne } } ∧
  exec .lockPrefix s = .next { s with dec := { s.dec with lock := true } } ∧
  exec .csPrefix s = .next { s with dec := { s.dec with seg := some .cs } } ∧
  exec .ssPrefix s = .next { s with dec := { s.dec with seg := some .ss } } ∧
  exec .dsPrefix s = .next { s with dec := { s.dec with seg := some .ds } } ∧
  exec .esPrefix s = .next { s with dec := { s.dec with seg := some .es } } ∧
  exec .fsPrefix s = .next { s with dec := { s.dec with seg := some .fs } } ∧
  exec .gsPrefix s = .next { s with dec := { s.dec with seg := some .gs } } ∧
  exec .opsizePrefix s = .next { s with dec := { s.dec with has66 := true } } ∧
  exec .addrsizePrefix s = .next { s with dec := { s.dec with has67 := true } }

/-! ### Arithmetic and logic -/

/-- ADD, ADC, SUB, SBB, AND, OR, XOR with a register destination, every form: the source is read, the register receives
the result, the flags are those of the operation, nothing else changes (40_integer R334, R335, R336; 41_integer R385,
R386, R397, R398). -/
def Obligations.AluToRegister : Prop := ∀ (op : AluOp) (f : AluForm) (r : RegNum) (b : Nat) (s s1 : State),
  s.Ready (AluForm.lockable f) → aluDst f = .reg r → aluSource s.osz.width f s.begin = .ok b s1 →
  let w := aluWidth s.osz.width f
  let a := s.regs.read w r
  let c := carry s.flags.cf
  s.begin.Reads s1 ∧
    Completes (op.instr f) s
      ((((op.drawn s1).withReg w r (op.result w.bits a b c)).withFlags
        (op.flags w.bits a b c (s1.draw.getLsbD 0) s.flags)).complete false) []

/-- The same instructions with a memory destination, every form, LOCK or not: the operand is located for a write, read,
and the result written to it; no register changes. -/
def Obligations.AluToMemory : Prop := ∀ (op : AluOp) (f : AluForm) (m : Mem) (ps : List BytePlace) (a b : Nat) (s s1 s2 : State),
  s.Ready true → aluDst f = .mem m → aluSource s.osz.width f s.begin = .ok b s.begin →
  let w := aluWidth s.osz.width f
  locateMem m w.bytes w.bytes true s.begin = .ok ps s1 → readBytes s.dec.lock ps s1 = .ok a s2 →
  let c := carry s.flags.cf
  s.begin.Reads s2 ∧
    Completes (op.instr f) s
      ((((op.drawn s2).withFlags (op.flags w.bits a b c (s2.draw.getLsbD 0) s.flags)).wrote ps
        (op.result w.bits a b c)).complete false) ps

/-- CMP and TEST, every form: both operands are read, only the flags change (41_integer R387, R400). -/
def Obligations.CompareAndTest : Prop := ∀ (s s1 s2 : State) (a b : Nat), s.Ready false →
  (∀ f : AluForm, let w := aluWidth s.osz.width f
    readRm w (aluDst f) s.begin = .ok a s1 → aluSource s.osz.width f s1 = .ok b s2 →
    s.begin.Reads s2 ∧ Completes (.cmp f) s ((s2.withFlags (subFlags w.bits a b 0 s.flags)).complete false) []) ∧
  (∀ f : TestForm, let g := testForm f
    let w := aluWidth s.osz.width g
    readRm w (aluDst g) s.begin = .ok a s1 → aluSource s.osz.width g s1 = .ok b s2 →
    s.begin.Reads s2 ∧
      Completes (.test f) s
        ((s2.drawn.withFlags (logicFlags w.bits (a &&& b) (s2.draw.getLsbD 0) s.flags)).complete false) [])

/-- INC, DEC, NEG, NOT. Of a register: the register and the operation's flags change; INC and DEC keep CF, NOT keeps all flags;
the one-byte forms of INC and DEC do the same. Of memory, LOCK or not: located for a write, read, written (41_integer R388,
R389, R390, R399). -/
def Obligations.OneOperandArithmetic : Prop :=
  (∀ (op : UnOp) (byte : Bool) (r : RegNum) (s : State), s.Ready false →
    let w := pickWidth byte s.osz.width
    let a := s.regs.read w r
    Completes (op.instr byte (.reg r)) s
      (((s.begin.withReg w r (op.result w.bits a)).withFlags (op.flags w.bits a s.flags)).complete false) [] ∧
    exec (.inc (.reg r)) s = exec (.inc (.ev (.reg r))) s ∧ exec (.dec (.reg r)) s = exec (.dec (.ev (.reg r))) s) ∧
  (∀ (op : UnOp) (byte : Bool) (m : Mem) (ps : List BytePlace) (a : Nat) (s s1 s2 : State),
    s.Ready true →
    let w := pickWidth byte s.osz.width
    locateMem m w.bytes w.bytes true s.begin = .ok ps s1 → readBytes s.dec.lock ps s1 = .ok a s2 →
    s.begin.Reads s2 ∧
      Completes (op.instr byte (.mem m)) s
        (((s2.withFlags (op.flags w.bits a s.flags)).wrote ps (op.result w.bits a)).complete false) ps)

/-- MUL and IMUL: the product goes to the double-width register, or its low half to the destination; CF = OF tells whether the
upper half is significant, the other status flags are free. DIV and IDIV, when the divisor is not 0 and the quotient fits:
quotient and remainder are delivered, the six status flags are free (41_integer R391 to R394). -/
def Obligations.MultiplyDivide : Prop :=
  (∀ (m : Rm) (b : Nat) (s s1 : State), s.Ready false →
    (∀ byte : Bool, let w := pickWidth byte s.osz.width
      readRm w m s.begin = .ok b s1 →
      let a := s.regs.read w regEAX
      let p := toSigned w.bits a * toSigned w.bits b
      s.begin.Reads s1 ∧
      Completes (.mul (unaryForm byte m)) s
        (((s1.withDouble w (a * b)).drawn.withFlags
          (productFlags s1.draw (a * b / 2 ^ w.bits != 0) s.flags)).complete false) [] ∧
      Completes (.imul (if byte then .eb m else .ev m)) s
        (((s1.withDouble w (ofSigned (2 * w.bits) p)).drawn.withFlags
          (productFlags s1.draw (p != toSigned w.bits (ofSigned w.bits p)) s.flags)).complete false) []) ∧
    (∀ r : RegNum, let w := s.osz.width
      readRm w m s.begin = .ok b s1 →
      let narrow (x y : Nat) : State :=
        let p := toSigned w.bits x * toSigned w.bits y
        ((s1.withReg w r (ofSigned w.bits p)).drawn.withFlags
          (productFlags s1.draw (p != toSigned w.bits (ofSigned w.bits p)) s.flags)).complete false
      Completes (.imul (.gvEv r m)) s (narrow (s.regs.read w r) b) [] ∧
      (∀ imm, Completes (.imul (.gvEvIb r m imm)) s (narrow b (sextByte w imm)) []) ∧
      (∀ imm, Completes (.imul (.gvEvIv r m imm)) s (narrow b (imm.toNat % 2 ^ w.bits)) []))) ∧
  (∀ (byte : Bool) (m : Rm) (b : Nat) (s s1 : State), s.Ready false →
    let w := pickWidth byte s.osz.width
    readRm w m s.begin = .ok b s1 → b ≠ 0 →
    let a := doubleReg w s.regs
    let q := (toSigned (2 * w.bits) a).tdiv (toSigned w.bits b)
    (a / b < 2 ^ w.bits →
      s.begin.Reads s1 ∧
      Completes (.div (unaryForm byte m)) s
        (((s1.withQuotient w (a / b) (a % b)).drawn.withFlags (freeStatus s1.draw s.flags)).complete false) []) ∧
    (-(2 ^ (w.bits - 1)) ≤ q ∧ q ≤ 2 ^ (w.bits - 1) - 1 →
      Completes (.idiv (unaryForm byte m)) s
        (((s1.withQuotient w (ofSigned w.bits q)
            (ofSigned w.bits ((toSigned (2 * w.bits) a).tmod (toSigned w.bits b)))).drawn.withFlags
          (freeStatus s1.draw s.flags)).complete false) []))

/-- DIV and IDIV raise #DE, vector 0, when the divisor is 0 or the quotient does not fit, and AAM with base 0 does; BOUND
changes nothing for an index within the bounds and raises vector 5 for one outside; in real mode it raises interrupt 13,
through SS too, for a part of its operand that lies beyond offset FFFFH and the limit: that R338 is followed in this against
R135 and R859 is the model's choice (notes/assumptions/85) (41_integer R393, R394; 40_integer R332, R338; 60_exceptions R845,
R849). -/
def Obligations.DivideErrorAndBound : Prop :=
  (∀ (byte : Bool) (m : Rm) (b : Nat) (s s1 : State), s.Ready false →
    let w := pickWidth byte s.osz.width
    readRm w m s.begin = .ok b s1 →
    let a := doubleReg w s.regs
    let q := (toSigned (2 * w.bits) a).tdiv (toSigned w.bits b)
    (b = 0 ∨ 2 ^ w.bits ≤ a / b → Raises (.div (unaryForm byte m)) s s1 0 none) ∧
    (b = 0 ∨ q < -(2 ^ (w.bits - 1)) ∨ 2 ^ (w.bits - 1) - 1 < q → Raises (.idiv (unaryForm byte m)) s s1 0 none) ∧
    Raises (.aam 0) s s.begin 0 none) ∧
  (∀ (r : RegNum) (m : Mem) (lo hi : Nat) (s s1 s2 : State), s.Ready false →
    let w := s.osz.width
    loadMem m 0 w.bytes w.bytes s.begin = .ok lo s1 → loadMem m w.bytes w.bytes w.bytes s1 = .ok hi s2 →
    let x := toSigned w.bits (s.regs.read w r)
    let inside := toSigned w.bits lo ≤ x ∧ x ≤ toSigned w.bits hi
    s.begin.Reads s2 ∧
    (inside → Completes (.bound r m) s (s2.complete false) []) ∧
    (¬ inside → Raises (.bound r m) s s2 5 none)) ∧
  (∀ (r : RegNum) (m : Mem) (lo : Nat) (s s1 : State), s.Ready false → s.pe = false →
    let n := s.osz.width.bytes
    let beyond (k : Nat) : Prop := 2 ^ 16 < s.memOff m + k + n ∧
      (s.segs.get (s.memSeg m)).hid.inLimit (s.memOff m + k) n = false
    (beyond 0 → Raises (.bound r m) s s.begin 13 (some 0)) ∧
    (loadMem m 0 n n s.begin = .ok lo s1 → beyond n → Raises (.bound r m) s s1 13 (some 0)))

/-- XADD, CMPXCHG and XCHG: between registers, byte or not, and with the accumulator; with memory, LOCK or not: located for a write
and read, by XCHG always locked; then written. CMPXCHG writes the old value back when the comparison fails (41_integer
R365, R381, R382). -/
def Obligations.Exchanges : Prop :=
  (∀ (byte : Bool) (r n : RegNum) (s : State), s.Ready false →
    let w := pickWidth byte s.osz.width
    let a := s.regs.read w n
    let b := s.regs.read w r
    let acc := s.regs.read w regEAX
    Completes (.xadd (if byte then .ebGb r (.reg n) else .evGv r (.reg n))) s
      ((((s.begin.withReg w r a).withReg w n (addResult w.bits a b 0)).withFlags (addFlags w.bits a b 0 s.flags)).complete false) [] ∧
    Completes (.cmpxchg (if byte then .ebGb r (.reg n) else .evGv r (.reg n))) s
      (((if acc = a then s.begin.withReg w n b else (s.begin.withReg w regEAX a).withReg w n a).withFlags
        (subFlags w.bits acc a 0 s.flags)).complete false) [] ∧
    Completes (.xchg (if byte then .ebGb r (.reg n) else .evGv r (.reg n))) s
      (((s.begin.withReg w n b).withReg w r a).complete false) [] ∧
    exec (.xchg (.eaxReg r)) s = exec (.xchg (.evGv regEAX (.reg r))) s) ∧
  (∀ (byte : Bool) (r : RegNum) (m : Mem) (ps : List BytePlace) (a : Nat) (s s1 s2 : State),
    s.Ready true →
    let w := pickWidth byte s.osz.width
    locateMem m w.bytes w.bytes true s.begin = .ok ps s1 →
    let b := s.regs.read w r
    let acc := s.regs.read w regEAX
    (readBytes s.dec.lock ps s1 = .ok a s2 →
      s.begin.Reads s2 ∧
      Completes (.xadd (if byte then .ebGb r (.mem m) else .evGv r (.mem m))) s
        ((((s2.withReg w r a).withFlags (addFlags w.bits a b 0 s.flags)).wrote ps (addResult w.bits a b 0)).complete false) ps ∧
      Completes (.cmpxchg (if byte then .ebGb r (.mem m) else .evGv r (.mem m))) s
        ((if acc = a then (s2.withFlags (subFlags w.bits acc a 0 s.flags)).wrote ps b
          else ((s2.withFlags (subFlags w.bits acc a 0 s.flags)).withReg w regEAX a).wrote ps a).complete false) ps) ∧
    (readBytes true ps s1 = .ok a s2 →
      s.begin.Reads s2 ∧
      Completes (.xchg (if byte then .ebGb r (.mem m) else .evGv r (.mem m))) s
        (((s2.wrote ps b).withReg w r a).complete false) ps))

/-- AAA, AAS, AAD, AAM, DAA, DAS: AX or AL and the flags each rule defines; the flags it leaves undefined are free; nothing
else changes (40_integer R330, R331, R333; 41_integer R395, R396; AAM with any base but 0). -/
def Obligations.DecimalAdjustment : Prop := ∀ (imm : Byte) (s : State), s.Ready false →
  let ax := s.regs.read .w16 regEAX
  let al := ax % 2 ^ 8
  let ah := ax / 2 ^ 8
  let low : Bool := decide (al % 16 > 9) || s.flags.af
  let high : Bool := decide (al > 0x99) || s.flags.cf
  let finish (t : State) (f : Flags) : State := (t.drawn.withFlags f).complete false
  let decimal (r : Nat) (cf : Bool) : State :=
    finish (s.begin.withReg .w8 regEAX r) (szp 8 r { s.flags with af := low, cf := cf, ovf := s.draw.getLsbD 0 })
  Completes .aaa s
    (if low then finish (s.begin.withAX ((al + 6) % 16) ((ah + 1) % 2 ^ 8)) (asciiFlags s.draw true s.flags)
     else finish (s.begin.withAX (al % 16) ah) (asciiFlags s.draw false s.flags)) [] ∧
  Completes .aas s
    (if low then finish (s.begin.withAX ((al + 250) % 16) ((ah + 255) % 2 ^ 8)) (asciiFlags s.draw true s.flags)
     else finish (s.begin.withAX (al % 16) ah) (asciiFlags s.draw false s.flags)) [] ∧
  (let r := (ah * imm.toNat + al) % 2 ^ 8
   Completes (.aad imm) s (finish (s.begin.withAX r 0) (szp 8 r (freeStatus s.draw s.flags))) []) ∧
  (imm ≠ 0 → Completes (.aam imm) s
    (finish (s.begin.withAX (al % imm.toNat) (al / imm.toNat)) (szp 8 (al % imm.toNat) (freeStatus s.draw s.flags))) []) ∧
  Completes .daa s
    (let a1 := if low then (al + 6) % 2 ^ 8 else al
     decimal (if high then (a1 + 0x60) % 2 ^ 8 else a1) high) [] ∧
  Completes .das s
    (let a1 := if low then (al + 250) % 2 ^ 8 else al
     decimal (if high then (a1 + 160) % 2 ^ 8 else a1) (high || (low && (s.flags.cf || decide (al < 6))))) []

/-- OF, CF, SF, ZF and PF of a sum and of a difference of N-bit numbers say what they should: CF unsigned overflow or borrow,
OF signed overflow, SF and ZF sign and zero of the result, PF the parity of its low byte (10_state R38). -/
def Obligations.ArithmeticFlagsMean : Prop := ∀ (n a b c : Nat) (f : Flags), 8 ≤ n → a < 2 ^ n → b < 2 ^ n → c ≤ 1 →
  let signed (i : Int) : Prop := -(2 ^ (n - 1)) ≤ i ∧ i < 2 ^ (n - 1)
  let sum := addFlags n a b c f
  let dif := subFlags n a b c f
  (sum.cf = true ↔ 2 ^ n ≤ a + b + c) ∧ (sum.ovf = true ↔ ¬ signed (toSigned n a + toSigned n b + c)) ∧
  (sum.zf = true ↔ (2 ^ n : Nat) ∣ a + b + c) ∧ (sum.sf = true ↔ 2 ^ (n - 1) ≤ addResult n a b c) ∧
  (dif.cf = true ↔ a < b + c) ∧ (dif.ovf = true ↔ ¬ signed (toSigned n a - toSigned n b - c)) ∧
  (dif.zf = true ↔ ((2 ^ n : Nat) : Int) ∣ (a : Int) - b - c) ∧ (dif.sf = true ↔ 2 ^ (n - 1) ≤ subResult n a b c) ∧
  (sum.pf = true ↔ ((List.range 8).countP (fun i => (addResult n a b c).testBit i)) % 2 = 0) ∧
  (dif.pf = true ↔ ((List.range 8).countP (fun i => (subResult n a b c).testBit i)) % 2 = 0) ∧
  sum.df = f.df ∧ dif.df = f.df ∧ sum.intf = f.intf ∧ dif.intf = f.intf

/-! ### Shifts, rotates and bits -/

/-- ROL, ROR, RCL, RCR, SHL, SHR, SAR, every form and count: the result and the flags the rule defines, any value in those it
leaves undefined; a count that is 0, and for RCL and RCR one that is a multiple of N + 1, changes nothing; that of
memory it only reads is the model's choice (notes/assumptions/15), as is CF of SHL by N, the last bit shifted out
(notes/assumptions/74). The /6 rows of SHL do what the /4 rows do (42_integer R429 to
R436). -/
def Obligations.ShiftsAndRotates : Prop :=
  (∀ (op : ShiftOp) (f : ShiftForm) (r : RegNum) (s : State),
    s.Ready false → shiftRm f = .reg r →
    let w := shiftWidth s.osz.width f
    let c := shiftCount s.regs f
    let x := op.out w.bits c (s.regs.read w r) s.flags.cf
    (op.live w.bits c = true → ∃ (fc fo fa : Bool) (k : Nat),
      Completes (op.instr f) s
        (({ s.begin.withReg w r x.val with freeCtr := k }.withFlags (op.flags w.bits x fc fo fa s.flags)).complete false) []) ∧
    (op.live w.bits c = false → Completes (op.instr f) s (s.begin.complete false) []) ∧
    ∀ g : ShlForm, exec (.shl g) s = exec (.shl (shlForm (ShlForm.common g))) s) ∧
  (∀ (op : ShiftOp) (f : ShiftForm) (m : Mem) (s : State),
    s.Ready false → shiftRm f = .mem m →
    let w := shiftWidth s.osz.width f
    let c := shiftCount s.regs f
    (∀ (ps : List BytePlace) (a : Nat) (s1 s2 : State), op.live w.bits c = true →
      locateMem m w.bytes w.bytes true s.begin = .ok ps s1 → readBytes false ps s1 = .ok a s2 →
      let x := op.out w.bits c a s.flags.cf
      s.begin.Reads s2 ∧ ∃ (fc fo fa : Bool) (k : Nat),
        Completes (op.instr f) s
          ((({ s2 with freeCtr := k }.withFlags (op.flags w.bits x fc fo fa s.flags)).wrote ps x.val).complete false) ps) ∧
    (∀ (a : Nat) (s1 : State), op.live w.bits c = false → loadMem m 0 w.bytes w.bytes s.begin = .ok a s1 →
      s.begin.Reads s1 ∧ Completes (op.instr f) s (s1.complete false) []))

/-- The shifts and rotates bit by bit (42_integer R430 to R436): where each bit of the result comes from, rotates of N bits
and, with CF as one more bit, of N + 1; CF is the last bit shifted out, the sign for SAR by more than N, and left open for
SHL and SHR by more than N; for SHL by N it is that of the formula, the model's choice (notes/assumptions/74). OF is what
the rule gives for a count of 1, else left open. -/
def Obligations.ShiftResultsMean : Prop := ∀ (n c a : Nat) (cf : Bool), n = 8 ∨ n = 16 ∨ n = 32 → 0 < c → c < 32 → a < 2 ^ n →
  let wide (i : Nat) : Bool := if i = n then cf else a.testBit i
  (∀ i < n, (shlOp n c a).val.testBit i = (decide (c ≤ i) && a.testBit (i - c)) ∧
    (shrOp n c a).val.testBit i = a.testBit (i + c) ∧ (sarOp n c a).val.testBit i = a.testBit (min (i + c) (n - 1)) ∧
    (rolOp n c a).val.testBit i = a.testBit ((i + n - c % n) % n) ∧ (rorOp n c a).val.testBit i = a.testBit ((i + c) % n) ∧
    (rclOp n c a cf).val.testBit i = wide ((i + (n + 1) - c % (n + 1)) % (n + 1)) ∧
    (rcrOp n c a cf).val.testBit i = wide ((i + c) % (n + 1))) ∧
  (rclOp n c a cf).cf = some (wide (n - c % (n + 1))) ∧ (rcrOp n c a cf).cf = some (wide ((n + c) % (n + 1))) ∧
  (rolOp n c a).cf = some (a.testBit ((n - c % n) % n)) ∧ (rorOp n c a).cf = some (a.testBit ((n - 1 + c) % n)) ∧
  (c ≤ n → (shlOp n c a).cf = some (a.testBit (n - c)) ∧ (shrOp n c a).cf = some (a.testBit (c - 1)) ∧
    (sarOp n c a).cf = some (a.testBit (c - 1))) ∧
  (n < c → (sarOp n c a).cf = some (a.testBit (n - 1)) ∧ (shlOp n c a).cf = none ∧ (shrOp n c a).cf = none) ∧
  (c = 1 →
    (rolOp n c a).ovf = some (a.testBit (n - 2) != a.testBit (n - 1)) ∧ (rorOp n c a).ovf = some (a.testBit 0 != a.testBit (n - 1)) ∧
    (rclOp n c a cf).ovf = some (a.testBit (n - 2) != a.testBit (n - 1)) ∧ (rcrOp n c a cf).ovf = some (a.testBit (n - 1) != cf) ∧
    (shlOp n c a).ovf = some (a.testBit (n - 2) != a.testBit (n - 1)) ∧ (shrOp n c a).ovf = some (a.testBit (n - 1)) ∧
    (sarOp n c a).ovf = some false) ∧
  (∀ x ∈ [shlOp n c a, shrOp n c a, sarOp n c a, rolOp n c a, rorOp n c a, rclOp n c a cf, rcrOp n c a cf],
    x.val < 2 ^ n ∧ (c ≠ 1 → x.ovf = none))

/-- SHLD and SHRD, register and memory destinations, both count forms: for a count of 1 to N the defined result and flags;
for a count of 0 nothing, where reading a memory operand is the model's choice (notes/assumptions/15); for a count above N
(16-bit operands) any result and flags. Bit by bit: which bit of which operand each bit of the result is; CF is the last bit
shifted out, OF for a count of 1 whether the sign changed (42_integer R437, R438). -/
def Obligations.DoubleShift : Prop :=
  (∀ (left : Bool) (f : DshiftForm) (s : State), s.Ready false →
    let i : Instr := if left then .shld f else .shrd f
    let w := s.osz.width
    let c := dshiftCount s.regs f
    let b := s.regs.read w (dshiftReg f)
    (∀ r : RegNum, dshiftRm f = .reg r →
      let x := dshiftOut left w.bits c (s.regs.read w r) b
      (c = 0 → Completes i s (s.begin.complete false) []) ∧
      (c ≠ 0 → c ≤ w.bits → ∃ (fo fa : Bool) (k : Nat),
        Completes i s (({ s.begin.withReg w r x.val with freeCtr := k }.withFlags
          (szp w.bits x.val { s.flags with cf := x.cf.getD false, ovf := x.ovf.getD fo, af := fa })).complete false) []) ∧
      (w.bits < c → ∃ (v k : Nat) (u : BitVec 128),
        Completes i s (({ s.begin.withReg w r v with freeCtr := k }.withFlags (freeStatus u s.flags)).complete false) [])) ∧
    (∀ m : Mem, dshiftRm f = .mem m →
      (∀ (a : Nat) (s1 : State), c = 0 → loadMem m 0 w.bytes w.bytes s.begin = .ok a s1 →
        s.begin.Reads s1 ∧ Completes i s (s1.complete false) []) ∧
      (∀ (ps : List BytePlace) (a : Nat) (s1 s2 : State), c ≠ 0 →
        locateMem m w.bytes w.bytes true s.begin = .ok ps s1 → readBytes false ps s1 = .ok a s2 →
        let x := dshiftOut left w.bits c a b
        s.begin.Reads s2 ∧
        (c ≤ w.bits → ∃ (fo fa : Bool) (k : Nat),
          Completes i s ((({ s2 with freeCtr := k }.withFlags
            (szp w.bits x.val { s.flags with cf := x.cf.getD false, ovf := x.ovf.getD fo, af := fa })).wrote ps x.val).complete false) ps) ∧
        (w.bits < c → ∃ (v k : Nat) (u : BitVec 128),
          Completes i s ((({ s2 with freeCtr := k }.withFlags (freeStatus u s.flags)).wrote ps v).complete false) ps)))) ∧
  (∀ (n c a b : Nat), n = 16 ∨ n = 32 → 0 < c → c ≤ n → a < 2 ^ n → b < 2 ^ n →
    (∀ left : Bool, (dshiftOut left n c a b).val < 2 ^ n ∧ (c ≠ 1 → (dshiftOut left n c a b).ovf = none)) ∧
    (∀ i < n, (dshiftOut true n c a b).val.testBit i = (if i < c then b.testBit (n - c + i) else a.testBit (i - c)) ∧
      (dshiftOut false n c a b).val.testBit i = (if i + c < n then a.testBit (i + c) else b.testBit (i + c - n))) ∧
    (dshiftOut true n c a b).cf = some (a.testBit (n - c)) ∧ (dshiftOut false n c a b).cf = some (a.testBit (c - 1)) ∧
    (c = 1 → (dshiftOut true n c a b).ovf = some (a.testBit (n - 2) != a.testBit (n - 1)) ∧
      (dshiftOut false n c a b).ovf = some (b.testBit 0 != a.testBit (n - 1))))

/-- BT, BTS, BTR, BTC: on a register the bit offset is taken modulo the width; on memory the unit that holds the bit lies at the
effective address plus the signed offset divided by the width; BT reads it, the others locate it for a write, read and
write it, LOCK or not; CF receives the bit, the other status flags are free. That this address
is taken modulo 2^AddressSize is the model's choice (notes/assumptions/69; R343 and R296 write no modulus). BSF and BSR: ZF says whether the source is 0;
if it is not, the register receives the number of the lowest or highest bit that is 1, else any value (40_integer R339,
R340, R343; 42_integer R439 to R442; 30_encoding R296). -/
def Obligations.BitTestsAndScans : Prop :=
  (∀ (op : BitOp) (f : BitForm) (r : RegNum) (s : State),
    s.Ready false → BitForm.rm f = .reg r →
    let w := s.osz.width
    let x := s.regs.read w r
    let bit := (bitOffset w s.regs f % w.bits).toNat
    Completes (op.instr f) s
      (((if op = .bt then s.begin else s.begin.withReg w r (withBit x bit (op.newBit (x.testBit bit)))).drawn.withFlags
        (bitTestFlags s.draw (x.testBit bit) s.flags)).complete false) []) ∧
  (∀ (op : BitOp) (f : BitForm) (m : Mem) (s : State), BitForm.rm f = .mem m →
    let w := s.osz.width
    let off := bitOffset w s.regs f
    let bit := (off % w.bits).toNat
    let addr := s.bitOff m (off / w.bits * w.bytes)
    (∀ (x : Nat) (s1 : State), s.Ready false → op = .bt →
      load (s.memSeg m) addr w.bytes w.bytes s.begin = .ok x s1 →
      s.begin.Reads s1 ∧
      Completes (op.instr f) s ((s1.drawn.withFlags (bitTestFlags s1.draw (x.testBit bit) s.flags)).complete false) []) ∧
    (∀ (ps : List BytePlace) (x : Nat) (s1 s2 : State), s.Ready true → op ≠ .bt →
      locate (s.memSeg m) addr w.bytes w.bytes true s.begin = .ok ps s1 → readBytes s.dec.lock ps s1 = .ok x s2 →
      let t := s2.wrote ps (withBit x bit (op.newBit (x.testBit bit)))
      s.begin.Reads s2 ∧
      Completes (op.instr f) s ((t.drawn.withFlags (bitTestFlags t.draw (x.testBit bit) s.flags)).complete false) ps)) ∧
  (∀ (r : RegNum) (m : Rm) (x : Nat) (s s1 : State), s.Ready false →
    let w := s.osz.width
    readRm w m s.begin = .ok x s1 → x < 2 ^ w.bits →
    let done (v : Nat) : State :=
      (((s1.withReg w r v).drawn.withFlags { freeStatus s1.draw s.flags with zf := x == 0 }).complete false)
    s.begin.Reads s1 ∧
    (x = 0 → ∃ v : Nat, Completes (.bsf r m) s (done v) [] ∧ Completes (.bsr r m) s (done v) []) ∧
    (x ≠ 0 → (∃ i, i < w.bits ∧ x.testBit i = true ∧ (∀ j, j < i → x.testBit j = false) ∧ Completes (.bsf r m) s (done i) []) ∧
      ∃ i, i < w.bits ∧ x.testBit i = true ∧ (∀ j, i < j → x.testBit j = false) ∧ Completes (.bsr r m) s (done i) []))

/-! ### Data movement -/

/-- MOV to a general register: from r/m, register, immediate or moffs; to memory: from register, immediate or accumulator, the
operand located for a write and written, no register changed; every form (41_integer R361). -/
def Obligations.MoveData : Prop :=
  (∀ (r n : RegNum) (m : Rm) (x : Nat) (off : DWord) (s s1 : State), s.Ready false →
    let v := s.osz.width
    (readRm .w8 m s.begin = .ok x s1 →
      s.begin.Reads s1 ∧ Completes (.mov (.gbEb r m)) s ((s1.withReg .w8 r x).complete false) []) ∧
    (readRm v m s.begin = .ok x s1 →
      s.begin.Reads s1 ∧ Completes (.mov (.gvEv r m)) s ((s1.withReg v r x).complete false) []) ∧
    Completes (.mov (.ebGb r (.reg n))) s ((s.begin.withReg .w8 n (s.regs.read .w8 r)).complete false) [] ∧
    Completes (.mov (.evGv r (.reg n))) s ((s.begin.withReg v n (s.regs.read v r)).complete false) [] ∧
    (∀ imm : Byte, Completes (.mov (.r8Ib r imm)) s ((s.begin.withReg .w8 r imm.toNat).complete false) [] ∧
      Completes (.mov (.ebIb (.reg r) imm)) s ((s.begin.withReg .w8 r imm.toNat).complete false) []) ∧
    (∀ imm : DWord, Completes (.mov (.regIv r imm)) s ((s.begin.withReg v r imm.toNat).complete false) [] ∧
      Completes (.mov (.evIv (.reg r) imm)) s ((s.begin.withReg v r (imm.toNat % 2 ^ v.bits)).complete false) []) ∧
    (load s.dataSeg off.toNat 1 1 s.begin = .ok x s1 →
      s.begin.Reads s1 ∧ Completes (.mov (.alOb off)) s ((s1.withReg .w8 regEAX x).complete false) []) ∧
    (load s.dataSeg off.toNat v.bytes v.bytes s.begin = .ok x s1 →
      s.begin.Reads s1 ∧ Completes (.mov (.eaxOv off)) s ((s1.withReg v regEAX x).complete false) [])) ∧
  (∀ (byte : Bool) (r : RegNum) (m : Mem) (off imm : DWord) (ps : List BytePlace) (s s1 : State),
    s.Ready false →
    let w := pickWidth byte s.osz.width
    (locateMem m w.bytes w.bytes true s.begin = .ok ps s1 →
      s.begin.Reads s1 ∧
      Completes (.mov (if byte then .ebGb r (.mem m) else .evGv r (.mem m))) s
        ((s1.wrote ps (s.regs.read w r)).complete false) ps ∧
      Completes (.mov (if byte then .ebIb (.mem m) (imm.setWidth 8) else .evIv (.mem m) imm)) s
        ((s1.wrote ps (imm.toNat % 2 ^ w.bits)).complete false) ps) ∧
    (locate s.dataSeg off.toNat w.bytes w.bytes true s.begin = .ok ps s1 →
      s.begin.Reads s1 ∧
      Completes (.mov (if byte then .obAl off else .ovEax off)) s
        ((s1.wrote ps (s.regs.read w regEAX)).complete false) ps))

/-- MOVZX and MOVSX, LEA, XLAT, BSWAP, every form: the destination register only. With a 16-bit operand size the result of
BSWAP is free (41_integer R363, R364, R370, R371; 40_integer R342; U4). The effective address that LEA and every memory
operand use: base, scaled index (none for index number 4) and sign-extended displacement, modulo the address size, and its
segment: the override, else SS for a base of BP, EBP or ESP, else DS (30_encoding R282 to R286, R271). -/
def Obligations.ExtendAndAddress : Prop :=
  (∀ (r : RegNum) (m : Rm) (a : Mem) (x : Nat) (s s1 : State), s.Ready false →
    let v := s.osz.width
    (readRm .w8 m s.begin = .ok x s1 → s.begin.Reads s1 ∧
      Completes (.movzx (.gvEb r m)) s ((s1.withReg v r x).complete false) [] ∧
      Completes (.movsx (.gvEb r m)) s ((s1.withReg v r (ofSigned v.bits (toSigned 8 x))).complete false) []) ∧
    (readRm .w16 m s.begin = .ok x s1 → s.begin.Reads s1 ∧
      Completes (.movzx (.gvEw r m)) s ((s1.withReg v r x).complete false) [] ∧
      Completes (.movsx (.gvEw r m)) s ((s1.withReg v r (ofSigned v.bits (toSigned 16 x))).complete false) []) ∧
    Completes (.lea r a) s ((s.begin.withReg v r (effAddr s.regs a)).complete false) [] ∧
    (load s.dataSeg ((s.regs.read s.asz.width regEBX + s.regs.read .w8 regEAX) % 2 ^ s.asz.bits) 1 1 s.begin = .ok x s1 →
      s.begin.Reads s1 ∧ Completes .xlat s ((s1.withReg .w8 regEAX x).complete false) []) ∧
    (s.osz = .s32 →
      let y := s.regs.get r
      Completes (.bswap r) s
        ((s.begin.withReg .w32 r (y.extractLsb' 0 8 ++ y.extractLsb' 8 8 ++ y.extractLsb' 16 8 ++ y.extractLsb' 24 8 : DWord).toNat).complete false) []) ∧
    (s.osz = .s16 → ∃ u : Nat, Completes (.bswap r) s ((s.begin.drawn.withReg .w16 r u).complete false) [])) ∧
  (∀ s : State,
    let r (k : RegNum) : Int := (s.regs.get k).toNat
    let b (k : RegNum) : Int := r k % 2 ^ 16
    let scaled (ss : BitVec 2) (k : RegNum) : Int := if k = 4 then 0 else r k * 2 ^ ss.toNat
    let disp : Disp → Int := fun | .none => 0 | .d8 v => v.toInt | .d16 v => v.toNat | .d32 v => v.toNat
    let base16 (rm : RegNum) : Int := match rm.toNat with
      | 0 => b regEBX + b regESI | 1 => b regEBX + b regEDI | 2 => b regEBP + b regESI | 3 => b regEBP + b regEDI
      | 4 => b regESI | 5 => b regEDI | 6 => b regEBP | _ => b regEBX
    let off (m : Mem) : Int := effAddr s.regs m
    let seg (m : Mem) (dflt : SegName) : Prop := s.memSeg m = match s.dec.seg with | some g => g | none => dflt
    (∀ (rm : RegNum) (d : Disp), off (.a16 rm d) = (base16 rm + disp d) % 2 ^ 16 ∧
      seg (.a16 rm d) (if rm.toNat ∈ [2, 3, 6] then .ss else .ds)) ∧
    (∀ (rm : RegNum) (d : Disp), off (.a32 rm d) = (r rm + disp d) % 2 ^ 32 ∧ seg (.a32 rm d) (if rm = regEBP then .ss else .ds)) ∧
    (∀ (ss : BitVec 2) (k n : RegNum) (d : Disp), off (.sib ss k n d) = (r n + scaled ss k + disp d) % 2 ^ 32 ∧
      seg (.sib ss k n d) (if n = regESP ∨ n = regEBP then .ss else .ds)) ∧
    (∀ (ss : BitVec 2) (k : RegNum) (v : DWord), off (.sibAbs ss k v) = (scaled ss k + v.toNat) % 2 ^ 32 ∧ seg (.sibAbs ss k v) .ds) ∧
    (∀ v : Word, off (.abs16 v) = v.toNat ∧ seg (.abs16 v) .ds) ∧ (∀ v : DWord, off (.abs32 v) = v.toNat ∧ seg (.abs32 v) .ds))

/-- CBW and CWDE: AX receives AL, or EAX receives AX, sign-extended. CWD and CDQ: DX or EDX receives copies of the sign of AX or
EAX. CLC, STC, CMC, CLD, STD change one flag; SAHF loads SF, ZF, AF, PF, CF from AH; LAHF puts the low byte of EFLAGS in
AH; NOP changes nothing. Nothing else changes (41_integer R372, R373, R375, R376, R401 to R405, R408). -/
def Obligations.SignExtensionsAndFlagInstructions : Prop :=
  (∀ s : State, s.Ready false →
    (s.osz = .s16 → Completes .cbw s ((s.begin.withReg .w16 regEAX ((s.regs.eax.setWidth 8).signExtend 16).toNat).complete false) []) ∧
    (s.osz = .s32 → Completes .cbw s ((s.begin.withReg .w32 regEAX ((s.regs.eax.setWidth 16).signExtend 32).toNat).complete false) [])) ∧
  (∀ s : State, s.Ready false →
    (s.osz = .s16 → Completes .cwd s ((s.begin.withReg .w16 regEDX (if s.regs.eax.getLsbD 15 then 0xFFFF else 0)).complete false) []) ∧
    (s.osz = .s32 → Completes .cwd s ((s.begin.withReg .w32 regEDX (if s.regs.eax.getLsbD 31 then 0xFFFFFFFF else 0)).complete false) [])) ∧
  (∀ s : State, s.Ready false →
    let f := s.flags
    let ah := s.regs.read .w8 4
    let done (g : Flags) : State := (s.begin.withFlags g).complete false
    Completes .clc s (done { f with cf := false }) [] ∧
    Completes .stc s (done { f with cf := true }) [] ∧
    Completes .cmc s (done { f with cf := !f.cf }) [] ∧
    Completes .cld s (done { f with df := false }) [] ∧
    Completes .std s (done { f with df := true }) [] ∧
    Completes .sahf s (done { f with sf := ah.testBit 7, zf := ah.testBit 6, af := ah.testBit 4, pf := ah.testBit 2, cf := ah.testBit 0 }) [] ∧
    Completes .lahf s ((s.begin.withReg .w8 4
      (carry f.sf * 128 + carry f.zf * 64 + carry f.af * 16 + carry f.pf * 4 + 2 + carry f.cf)).complete false) [] ∧
    Completes .nop s (s.begin.complete false) [])

/-- SETcc, all sixteen, register and memory: the byte is 1 or 0 by the condition on the flags, no flag changes. The
conditions, here and in the conditional jumps, are those of the table of R410: eight on the flags, and the negation of each
(41_integer R409, R410). -/
def Obligations.SetByCondition : Prop :=
  (∀ (c : Cond) (k : RegNum) (s : State), s.Ready false →
    let x := if c.holds s.flags then 1 else 0
    (∀ r : RegNum, Completes (setccInstr c k (.reg r)) s ((s.begin.withReg .w8 r x).complete false) []) ∧
    (∀ (m : Mem) (ps : List BytePlace) (s1 : State), locateMem m 1 1 true s.begin = .ok ps s1 →
      s.begin.Reads s1 ∧ Completes (setccInstr c k (.mem m)) s ((s1.wrote ps x).complete false) ps)) ∧
  (∀ f : Flags,
    (Cond.o.holds f = true ↔ f.ovf = true) ∧ (Cond.b.holds f = true ↔ f.cf = true) ∧ (Cond.e.holds f = true ↔ f.zf = true) ∧
    (Cond.be.holds f = true ↔ f.cf = true ∨ f.zf = true) ∧ (Cond.s.holds f = true ↔ f.sf = true) ∧
    (Cond.p.holds f = true ↔ f.pf = true) ∧ (Cond.l.holds f = true ↔ f.sf ≠ f.ovf) ∧
    (Cond.le.holds f = true ↔ f.zf = true ∨ f.sf ≠ f.ovf) ∧
    ∀ p ∈ [(Cond.o, Cond.no), (.b, .ae), (.e, .ne), (.be, .a), (.s, .ns), (.p, .np), (.l, .ge), (.le, .g)],
      (p.2.holds f = true ↔ p.1.holds f = false))

/-- A segment register load. In real mode: the selector, and the base selector * 16; limit and rights stay (20_memory R135,
10_state R30). In protected mode (20_memory R140): a null selector makes DS, ES, FS, GS unusable and raises #GP(0) for SS; a
selector beyond its table raises #GP(selector); a descriptor that passes the checks is loaded, with its Accessed bit set;
one that is not present raises #NP, for SS #SS; one whose type or privilege check fails raises #GP(selector). -/
def Obligations.SegmentLoad : Prop :=
  (∀ (n : SegName) (sel : Word) (s : State), s.pe = false →
    loadSeg n sel s = .ok () (s.withSeg n { sel := sel, hid := { (s.segs.get n).hid with base := sel.setWidth 32 <<< 4, valid := true } })) ∧
  (∀ (n : SegName) (sel : Word) (s : State), s.pe = true →
    (isNull sel = true →
      (n ≠ .ss → loadSeg n sel s = .ok () (s.withSeg n { sel := sel, hid := { (s.segs.get n).hid with valid := false } })) ∧
      (n = .ss → loadSeg n sel s = .error (.exn { vector := 13, code := some 0, cls := .fault }) s)) ∧
    (isNull sel = false →
      (s.descAddr sel = none →
        loadSeg n sel s = .error (.exn { vector := 13, code := some (sel &&& 0xFFFC), cls := .fault }) s) ∧
      (∀ (a : Nat) (d : Desc) (h : Hidden) (s1 s2 : State), s.descAddr sel = some a → readDesc a s = .ok d s1 →
        (n ≠ .ss → d.hidden.readable = true →
          (d.hidden.conforming = true ∨ (s.cpl ≤ d.dpl ∧ sel.extractLsb' 0 2 ≤ d.dpl)) →
          (d.present = true → accessed a d s1 = .ok h s2 → loadSeg n sel s = .ok () (s2.withSeg n { sel := sel, hid := h })) ∧
          (d.present = false → loadSeg n sel s = .error (.exn { vector := 11, code := some (sel &&& 0xFFFC), cls := .fault }) s1)) ∧
        (n = .ss → sel.extractLsb' 0 2 = s.cpl → d.dpl = s.cpl → d.hidden.writable = true →
          (d.present = true → accessed a d s1 = .ok h s2 → loadSeg n sel s = .ok () (s2.withSeg n { sel := sel, hid := h })) ∧
          (d.present = false → loadSeg n sel s = .error (.exn { vector := 12, code := some (sel &&& 0xFFFC), cls := .fault }) s1)) ∧
        (n ≠ .ss → d.hidden.readable = false ∨ (d.hidden.conforming = false ∧ (d.dpl < s.cpl ∨ d.dpl < sel.extractLsb' 0 2)) →
          loadSeg n sel s = .error (.exn { vector := 13, code := some (sel &&& 0xFFFC), cls := .fault }) s1) ∧
        (n = .ss → sel.extractLsb' 0 2 ≠ s.cpl ∨ d.dpl ≠ s.cpl ∨ d.hidden.writable = false →
          loadSeg n sel s = .error (.exn { vector := 13, code := some (sel &&& 0xFFFC), cls := .fault }) s1))))

/-- MOV to and from a segment register: the selector is stored, 16 bits in memory, its upper half free in a 32-bit register; a
load goes through the segment load and for SS sets the shadow; numbers 6 and 7, and a load of CS, raise #UD. LES, LDS, LSS,
LFS, LGS: the offset is read, then the selector, which is loaded, and the offset put in the register; a fault of the offset's
read comes before the selector is read (41_integer R362, R374). -/
def Obligations.MoveSegments : Prop :=
  (∀ (r k : RegNum) (m : Rm) (s : State), s.Ready false →
    (∀ n, segOfNum r = some n →
      let sel := (s.segs.get n).sel
      (∃ (u : Word) (c : Nat), Completes (.mov (.ewSw r (.reg k))) s
        (({ s.begin with freeCtr := c }.withReg s.osz.width k (withUpper s.osz u sel)).complete false) []) ∧
      (∀ (a : Mem) (ps : List BytePlace) (s1 : State), locateMem a 2 2 true s.begin = .ok ps s1 →
        s.begin.Reads s1 ∧ Completes (.mov (.ewSw r (.mem a))) s ((s1.wrote ps sel.toNat).complete false) ps) ∧
      (∀ (x : Nat) (s1 s2 : State), n ≠ .cs → readRm .w16 m s.begin = .ok x s1 → loadSeg n (BitVec.ofNat 16 x) s1 = .ok () s2 →
        exec (.mov (.swEw r m)) s = .next ((s2.shadowed n).complete false))) ∧
    (segOfNum r = none → Raises (.mov (.ewSw r m)) s s.begin 6 none) ∧
    (segOfNum r = none ∨ r = 1 → Raises (.mov (.swEw r m)) s s.begin 6 none)) ∧
  (∀ (n : SegName) (i : Instr) (r : RegNum) (m : Mem) (off : Nat) (sel : Word) (s s1 s2 : State),
    s.Ready false → farLoadInstr n r m = some i →
    (s.begin.ReadsFar m off sel s1 → loadSeg n sel s1 = .ok () s2 →
      s.begin.Reads s1 ∧ exec i s = .next ((s2.withReg s.osz.width r off).complete false)) ∧
    (∀ e : Exn, loadMem m 0 s.osz.bytes s.osz.bytes s.begin = .error (.exn e) s1 →
      exec i s = deliverExn e (rollback s s1).abandon))

/-! ### The stack -/

/-- PUSH of a register, immediate or r/m operand: the value as it was before the stack pointer moves is written below eSP, and
eSP drops by its size; in real mode with eSP = 1 the processor shuts down instead. PUSH of a segment register: the selector,
with a free upper half when 32 bits are pushed; with eSP = 1 in real mode it shuts down too (41_integer R366; 30_encoding
R294; U9). -/
def Obligations.PushForms : Prop :=
  (∀ (f : PushForm) (rd : M Nat) (x : Nat) (ps : List BytePlace) (s s1 s2 : State),
    s.Ready false → pushOperand s.osz.width f = some rd → rd s.begin = .ok x s1 →
    let n := s.osz.bytes
    s.begin.Reads s1 ∧
    (s.pe = true ∨ s.sp ≠ 1 → locate .ss (s.spMinus n) n n true s1 = .ok ps s2 →
      s1.Reads s2 ∧ Completes (.push f) s (((s2.wrote ps x).withSP (s.spMinus n)).complete false) ps) ∧
    (s.pe = false → s.sp = 1 → exec (.push f) s = .next (rollback s s1).abandon.shutdown)) ∧
  (∀ (g : SegName) (s : State), s.Ready false → s.pe = true ∨ s.sp ≠ 1 →
    let n := s.osz.bytes
    ∃ (u : Word) (c : Nat), ∀ (ps : List BytePlace) (s2 : State),
      locate .ss (s.spMinus n) n n true { s.begin with freeCtr := c } = .ok ps s2 →
      s.begin.Reads s2 ∧
      Completes (.push (pushSegForm g)) s
        (((s2.wrote ps (withUpper s.osz u (s.segs.get g).sel)).withSP (s.spMinus n)).complete false) ps) ∧
  (∀ (g : SegName) (s : State), s.Ready false → s.pe = false → s.sp = 1 →
    ∃ c : Nat, exec (.push (pushSegForm g)) s = .next { s with freeCtr := c }.abandon.shutdown)

/-- POP into a register, memory or a segment register: the value at SS:eSP is read, eSP rises by its size, and only then is
the destination written, so that POP eSP receives the value and a memory address uses the raised eSP (41_integer R367). -/
def Obligations.PopOperand : Prop := ∀ (x : Nat) (s s1 : State), s.Ready false →
  let n := s.osz.bytes
  let w := s.osz.width
  load .ss s.sp n n s.begin = .ok x s1 →
  let p := s1.withSP (s.sp + n)
  s.begin.Reads s1 ∧
  (∀ r : RegNum, Completes (.pop (.reg r)) s ((p.withReg w r x).complete false) [] ∧
    Completes (.pop (.ev (.reg r))) s ((p.withReg w r x).complete false) []) ∧
  (∀ (m : Mem) (ps : List BytePlace) (s2 : State), locateMem m w.bytes w.bytes true p = .ok ps s2 →
    p.Reads s2 ∧ Completes (.pop (.ev (.mem m))) s ((s2.wrote ps x).complete false) ps) ∧
  (∀ (g : SegName) (f : PopForm) (s2 : State), popSegForm g = some f → loadSeg g (BitVec.ofNat 16 x) p = .ok () s2 →
    exec (.pop f) s = .next ((s2.shadowed g).complete false))

/-- PUSHA and POPA: the eight registers in order, the stack pointer as it was before, all of ESP with a 32-bit operand size even
on a 16-bit stack, which is the model's choice (notes/assumptions/67); in real mode eSP of 1, 3 or 5 shuts the processor
down and an odd one of 7 to 15 raises interrupt 13 (R368; notes/assumptions/23). POPA skips the saved stack pointer without
reading it, and in real mode raises interrupt 13 when its items pass FFFFH (41_integer R368, R369). -/
def Obligations.PushPopAll : Prop := ∀ s : State, s.Ready false →
  let n := s.osz.bytes
  let w := s.osz.width
  let g (k : RegNum) : Nat := s.regs.read w k
  (∀ (pss : List (List BytePlace)) (s1 : State), s.pe = true ∨ ¬ (s.sp < 16 ∧ s.sp % 2 = 1) →
    pushPlaces n n 8 0 s.begin = .ok pss s1 →
    Completes .pusha s
      (((s1.wroteAll pss [g regEAX, g regECX, g regEDX, g regEBX, g regESP, g regEBP, g regESI, g regEDI]).withSP
        (s.spMinus (n * 8))).complete false) pss.flatten) ∧
  (s.pe = false → s.sp ∈ [1, 3, 5] → exec .pusha s = .next s.abandon.shutdown) ∧
  (s.pe = false → s.sp ∈ [7, 9, 11, 13, 15] → Raises .pusha s s.begin 13 (some 0)) ∧
  (∀ (di si bp bx dx cx ax lin : Nat) (s1 s2 s3 : State), s.pe = true ∨ s.sp + 8 * n ≤ 2 ^ 16 →
    popMany n 3 s.begin = .ok [di, si, bp] s1 → segCheck .ss s1.sp n false s1 = .ok lin s2 →
    popMany n 4 (s1.withSP (s1.sp + n)) = .ok [bx, dx, cx, ax] s3 →
    exec .popa s = .next ((((((((s3.withReg w regEDI di).withReg w regESI si).withReg w regEBP bp).withReg w regEBX bx).withReg
      w regEDX dx).withReg w regECX cx).withReg w regEAX ax).complete false) ∧
    s.begin.Reads { s3 with regs := s.regs } ∧ s3.sp = (s.sp + 8 * n) % 2 ^ s.ssz.bits ∧ ∀ r, r ≠ regESP → s3.regs.get r = s.regs.get r) ∧
  (s.pe = false → 2 ^ 16 < s.sp + 8 * n → Raises .popa s s.begin 13 (some 0))

/-- PUSHF and POPF: VM and RF are pushed as 0; POPF loads the flags that CPL and IOPL allow, IF when CPL is at most IOPL,
IOPL at CPL 0, AC with 32 bits, and never VM or RF (41_integer R377, R378). -/
def Obligations.PushPopFlags : Prop := ∀ s : State, s.Ready false →
  let n := s.osz.bytes
  let cpl := if s.pe then s.cpl else 0
  (∀ (ps : List BytePlace) (s1 : State), locate .ss (s.spMinus n) n n true s.begin = .ok ps s1 →
    s.begin.Reads s1 ∧
    Completes .pushf s
      (((s1.wrote ps ({ s.flags with vm := false, rf := false }.toBits.toNat % 2 ^ s.osz.bits)).withSP (s.spMinus n)).complete false) ps) ∧
  (∀ (x : Nat) (s1 : State), load .ss s.sp n n s.begin = .ok x s1 →
    let v := BitVec.ofNat 32 x
    let f := s.flags
    s.begin.Reads s1 ∧
    Completes .popf s
      (((s1.withSP (s.sp + n)).withFlags
        { cf := v.getLsbD 0, pf := v.getLsbD 2, af := v.getLsbD 4, zf := v.getLsbD 6, sf := v.getLsbD 7, tf := v.getLsbD 8
          intf := if cpl ≤ f.iopl then v.getLsbD 9 else f.intf
          df := v.getLsbD 10, ovf := v.getLsbD 11
          iopl := if cpl = 0 then v.extractLsb' 12 2 else f.iopl
          nt := v.getLsbD 14, rf := f.rf, vm := f.vm
          ac := if s.osz = .s32 then v.getLsbD 18 else f.ac }).complete true) [])

/-- ENTER with level 0 and LEAVE: the frame pointer is pushed, set to the new top of stack, and room is made; LEAVE undoes it.
ENTER with a level from 1 to 31: the old frame pointer is written at the first place, each outer frame pointer is read and
written at the next, the new frame pointer at the last; eBP is the address of the first place, eSP lies `size` bytes below the
last; nothing else changes (43_integer R504, R505). -/
def Obligations.EnterAndLeave : Prop :=
  (∀ s : State, s.Ready false →
    let n := s.osz.bytes
    let w := s.osz.width
    let frame := s.spMinus n
    (∀ (size : Word) (level : Byte) (ps : List BytePlace) (lin : Nat) (s1 s2 : State), level.toNat % 32 = 0 →
      locate .ss frame n n true s.begin = .ok ps s1 →
      let top := (frame + 2 ^ s.ssz.bits - size.toNat % 2 ^ s.ssz.bits) % 2 ^ s.ssz.bits
      segCheck .ss top 1 true s1 = .ok lin s2 →
      s.begin.Reads s1 ∧
      Completes (.enter size level) s
        ((((s1.wrote ps (s.regs.read w regEBP)).withReg w regEBP frame).withSP top).complete false) ps) ∧
    (∀ (x : Nat) (s1 : State),
      let top := s.regs.read s.ssz.width regEBP
      load .ss top n n (s.begin.withSP top) = .ok x s1 →
      Completes .leave s (((s1.withSP (top + n)).withReg w regEBP x).complete false) [])) ∧
  (∀ (size : Word) (level : Byte) (first last : List BytePlace) (mid src : List (List BytePlace)) (lin : Nat)
      (s s1 s2 s3 : State),
    s.Ready false → 0 < level.toNat % 32 →
    let n := s.osz.bytes
    let w := s.osz.width
    let k := level.toNat % 32
    let top := (s.spMinus (n * (k + 1)) + 2 ^ s.ssz.bits - size.toNat % 2 ^ s.ssz.bits) % 2 ^ s.ssz.bits
    pushPlaces n n (k + 1) 0 s.begin = .ok (first :: (mid ++ [last])) s1 → framePlaces n (8 * n) (k - 1) (s.regs.read w regEBP) s1 = .ok src s2 →
    segCheck .ss top 1 true s2 = .ok lin s3 →
    ∃ t : State, CopiesFrames src mid (s2.wrote first (s.regs.read w regEBP)) t ∧
      Completes (.enter size level) s
        ((((t.wrote last (s.spMinus n % 2 ^ (8 * n))).withReg w regEBP (s.spMinus n)).withSP top).complete false)
        (first :: (mid ++ [last])).flatten)

/-! ### Control transfer -/

/-- Jcc, all sixteen, both forms: EIP becomes the target, cut to OperandSize, when the condition holds and the target lies in
the CS limit; #GP(0) beyond it; nothing happens when the condition fails (what each condition says of the flags:
SetByCondition). LOOP, LOOPE, LOOPNE, JCXZ: the count register is that of AddressSize; the LOOPs decrement it and jump while
it is not 0 and ZF allows; JCXZ jumps when it is 0; with a target beyond the CS limit #GP(0), and the count stays (43_integer
R489, R492 to R494). -/
def Obligations.ConditionalAndCountedJumps : Prop :=
  (∀ (c : Cond) (f : JccForm) (s : State), s.Ready false →
    let dest := (match f with | .short rel => rel8Target s.begin rel | .near rel => relTarget s.begin rel) % 2 ^ s.osz.bits
    (c.holds s.flags = false → Completes (jccInstr c f) s (s.begin.complete false) []) ∧
    (c.holds s.flags = true → dest ≤ s.segs.cs.hid.limit.toNat →
      Completes (jccInstr c f) s ((s.begin.withEip dest).complete false) []) ∧
    (c.holds s.flags = true → s.segs.cs.hid.limit.toNat < dest → Raises (jccInstr c f) s s.begin 13 (some 0))) ∧
  (∀ (rel : Byte) (s : State), s.Ready false →
    let w := s.asz.width
    let n := s.regs.read w regECX
    let count := (n + 2 ^ w.bits - 1) % 2 ^ w.bits
    let dest := rel8Target s.begin rel % 2 ^ s.osz.bits
    dest ≤ s.segs.cs.hid.limit.toNat →
    let done (t : State) (jump : Bool) : State := (if jump then t.withEip dest else t).complete false
    Completes (.loop rel) s (done (s.begin.withReg w regECX count) (count != 0)) [] ∧
    Completes (.loope rel) s (done (s.begin.withReg w regECX count) (count != 0 && s.flags.zf)) [] ∧
    Completes (.loopne rel) s (done (s.begin.withReg w regECX count) (count != 0 && !s.flags.zf)) [] ∧
    Completes (.jcxz rel) s (done s.begin (n == 0)) []) ∧
  (∀ (rel : Byte) (s : State), s.Ready false →
    let w := s.asz.width
    let n := s.regs.read w regECX
    let count := (n + 2 ^ w.bits - 1) % 2 ^ w.bits
    s.segs.cs.hid.limit.toNat < rel8Target s.begin rel % 2 ^ s.osz.bits →
    let does (i : Instr) (t : State) (jump : Prop) : Prop :=
      (jump → Raises i s s.begin 13 (some 0)) ∧ (¬ jump → Completes i s (t.complete false) [])
    let counted := s.begin.withReg w regECX count
    does (.loop rel) counted (count ≠ 0) ∧ does (.loope rel) counted (count ≠ 0 ∧ s.flags.zf = true) ∧
    does (.loopne rel) counted (count ≠ 0 ∧ s.flags.zf = false) ∧ does (.jcxz rel) s.begin (n = 0))

/-- JMP and CALL, near forms: the target, relative or read from r/m, is cut to OperandSize and checked; CALL pushes the address of
the next instruction. RET, both forms: the popped offset becomes EIP if it lies in the CS limit, and the parameters are
discarded. A target beyond the CS limit raises #GP(0), and nothing is pushed (43_integer R489, R490, R497, R499). -/
def Obligations.NearTransfers : Prop :=
  (∀ (m : Rm) (rel : DWord) (rel8 : Byte) (x : Nat) (s s1 : State), s.Ready false →
    let z := s.osz
    let lim := s.segs.cs.hid.limit.toNat
    let dest := relTarget s.begin rel % 2 ^ z.bits
    let back := s.begin.eip.toNat % 2 ^ z.bits
    (dest ≤ lim → Completes (.jmp (.rel rel)) s ((s.begin.withEip dest).complete false) []) ∧
    (rel8Target s.begin rel8 % 2 ^ z.bits ≤ lim →
      Completes (.jmp (.rel8 rel8)) s ((s.begin.withEip (rel8Target s.begin rel8 % 2 ^ z.bits)).complete false) []) ∧
    (readRm z.width m s.begin = .ok x s1 → x % 2 ^ z.bits ≤ lim →
      s.begin.Reads s1 ∧ Completes (.jmp (.ev m)) s ((s1.withEip (x % 2 ^ z.bits)).complete false) []) ∧
    (∀ (ps : List BytePlace) (s2 : State), dest ≤ lim → locate .ss (s.spMinus z.bytes) z.bytes z.bytes true s.begin = .ok ps s2 →
      s.begin.Reads s2 ∧
      Completes (.call (.rel rel)) s ((((s2.wrote ps back).withSP (s.spMinus z.bytes)).withEip dest).complete false) ps) ∧
    (∀ (ps : List BytePlace) (s2 : State), readRm z.width m s.begin = .ok x s1 → x % 2 ^ z.bits ≤ lim →
      locate .ss (s.spMinus z.bytes) z.bytes z.bytes true s1 = .ok ps s2 →
      s.begin.Reads s2 ∧
      Completes (.call (.ev m)) s
        ((((s2.wrote ps back).withSP (s.spMinus z.bytes)).withEip (x % 2 ^ z.bits)).complete false) ps)) ∧
  (∀ (f : RetForm) (x : Nat) (s s1 : State), s.Ready false →
    let z := s.osz
    load .ss s.sp z.bytes z.bytes s.begin = .ok x s1 → x % 2 ^ z.bits ≤ s.segs.cs.hid.limit.toNat →
    s.begin.Reads s1 ∧
    let t := (s1.withSP (s.sp + z.bytes)).withEip (x % 2 ^ z.bits)
    Completes (.ret f) s ((t.withSP (t.sp + RetForm.params f)).complete false) []) ∧
  (∀ (m : Rm) (rel : DWord) (rel8 : Byte) (f : RetForm) (x : Nat) (s s1 : State), s.Ready false →
    let z := s.osz
    let lim := s.segs.cs.hid.limit.toNat
    (lim < relTarget s.begin rel % 2 ^ z.bits →
      Raises (.jmp (.rel rel)) s s.begin 13 (some 0) ∧ Raises (.call (.rel rel)) s s.begin 13 (some 0)) ∧
    (lim < rel8Target s.begin rel8 % 2 ^ z.bits → Raises (.jmp (.rel8 rel8)) s s.begin 13 (some 0)) ∧
    (readRm z.width m s.begin = .ok x s1 → lim < x % 2 ^ z.bits →
      Raises (.jmp (.ev m)) s s1 13 (some 0) ∧ Raises (.call (.ev m)) s s1 13 (some 0)) ∧
    (load .ss s.sp z.bytes z.bytes s.begin = .ok x s1 → lim < x % 2 ^ z.bits → Raises (.ret f) s s1 13 (some 0)))

/-- Far JMP, CALL and RETF, direct and through memory. In real mode CS receives the selector with base selector * 16, EIP the
offset; CALL pushes CS and the return offset, RETF pops them. In protected mode, to a present code segment, conforming (DPL at
most CPL) or not (RPL at most CPL, DPL = CPL), whose limit holds the offset: CS receives the selector with RPL = CPL and the
descriptor, marked accessed; CALL pushes first. A call gate, task gate or TSS is refused, another system descriptor raises
#GP(selector). RETF to the same privilege level loads CS and EIP; to an outer one SS and ESP too, from the stack, and drops
the data segments of inner levels. A null selector and an offset beyond the limit raise #GP(0), a selector beyond its table or
a descriptor that fails the checks #GP(selector), one not present #NP(selector) (43_integer R488, R491, R498, R500;
92_eei_decisions D2). The model's choices: a pointer in memory is read as by R374, offset first (notes/assumptions/81); the
descriptor that CS receives is that of its first read (notes/assumptions/78). -/
def Obligations.FarTransfers : Prop :=
  (∀ (sel : Word) (off : DWord) (m : Mem) (s s1 : State), s.Ready false → s.pe = false →
    let z := s.osz
    let go (t : State) (sel : Word) (off : Nat) : State :=
      (t.withSeg .cs { sel := sel, hid := { s.segs.cs.hid with base := sel.setWidth 32 <<< 4, valid := true } }).withEip off
    (off ≤ s.segs.cs.hid.limit →
      Completes (.jmp (.far off sel)) s ((go s.begin sel off.toNat).complete false) [] ∧
      ∃ (u : Word) (c : Nat), ∀ (pss : List (List BytePlace)) (s2 : State),
        pushPlaces z.bytes z.bytes 2 0 { s.begin with freeCtr := c } = .ok pss s2 →
        Completes (.call (.far off sel)) s
          ((go ((s2.wroteAll pss [withUpper z u s.segs.cs.sel, s.begin.eip.toNat % 2 ^ z.bits]).withSP (s.spMinus (z.bytes * 2)))
            sel off.toNat).complete false) pss.flatten) ∧
    (∀ (o : Nat) (q : Word), s.begin.ReadsFar m o q s1 → o ≤ s.segs.cs.hid.limit.toNat →
      s.begin.Reads s1 ∧ Completes (.jmp (.mp m)) s ((go s1 q o).complete false) [] ∧
      ∃ (u : Word) (c : Nat), ∀ (pss : List (List BytePlace)) (s2 : State),
        pushPlaces z.bytes z.bytes 2 0 { s1 with freeCtr := c } = .ok pss s2 →
        Completes (.call (.mp m)) s
          ((go ((s2.wroteAll pss [withUpper z u s.segs.cs.sel, s.begin.eip.toNat % 2 ^ z.bits]).withSP (s.spMinus (z.bytes * 2)))
            q o).complete false) pss.flatten) ∧
    (∀ (o : Nat) (q : Word), s.begin.ReadsFar m o q s1 → s.segs.cs.hid.limit.toNat < o →
      Raises (.jmp (.mp m)) s s1 13 (some 0) ∧ Raises (.call (.mp m)) s s1 13 (some 0)) ∧
    (∀ (f : RetForm) (o q : Nat), popMany z.bytes 2 s.begin = .ok [o, q] s1 →
      let t := go s1 (BitVec.ofNat 16 q) (o % 2 ^ 32)
      exec (.retf f) s = .next ((t.withSP (t.sp + RetForm.params f)).complete false)) ∧
    (s.segs.cs.hid.limit < off → Raises (.jmp (.far off sel)) s s.begin 13 (some 0) ∧ Raises (.call (.far off sel)) s s.begin 13 (some 0))) ∧
  ((∀ (sel : Word) (off : DWord) (m : Mem) (s s1 : State) (cs : SegReg) (sp : Spot) (v : State),
      s.Ready false → s.pe = true →
      let z := s.osz
      let marks := (sp.getD []).drop 4
      let go (t : State) (off : Nat) : State := ((t.withSeg .cs cs).withEip off).complete false
      let jumps (i : Instr) (off : DWord) : Prop := ∀ t : State, setMark sp 1 v = .ok () t → Completes i s (go t off.toNat) marks
      let calls (i : Instr) (off : DWord) : Prop := ∃ (u : Word) (c : Nat), ∀ (pss : List (List BytePlace)) (s2 t : State),
        pushPlaces z.bytes z.bytes 2 0 { v with freeCtr := c } = .ok pss s2 →
        setMark sp 1 ((s2.wroteAll pss [withUpper z u s.segs.cs.sel, s.begin.eip.toNat % 2 ^ z.bits]).withSP
          (s.spMinus (z.bytes * 2))) = .ok () t →
        Completes i s (go t off.toNat) (pss.flatten ++ marks)
      (s.begin.FarCode sel off s.begin cs sp v → jumps (.jmp (.far off sel)) off ∧ calls (.call (.far off sel)) off) ∧
      (∀ (o : Nat) (q : Word), s.begin.ReadsFar m o q s1 → s.begin.FarCode q (BitVec.ofNat 32 o) s1 cs sp v →
        jumps (.jmp (.mp m)) (BitVec.ofNat 32 o) ∧ calls (.call (.mp m)) (BitVec.ofNat 32 o))) ∧
    (∀ (sel : Word) (off : DWord) (a : Nat) (d : Desc) (s s1 : State), s.Ready false → s.pe = true →
      isNull sel = false → s.descAddr sel = some a → readDesc a s.begin = .ok d s1 → d.s = false →
      (d.type.toNat = 4 ∨ d.type.toNat = 12 →
        exec (.jmp (.far off sel)) s = .refused .callGate ∧ exec (.call (.far off sel)) s = .refused .callGate) ∧
      (d.type.toNat ∈ [1, 5, 9] →
        exec (.jmp (.far off sel)) s = .refused .taskSwitch ∧ exec (.call (.far off sel)) s = .refused .taskSwitch) ∧
      (d.type.toNat ∉ [1, 4, 5, 9, 12] →
        Raises (.jmp (.far off sel)) s s1 13 (some (sel &&& 0xFFFC)) ∧ Raises (.call (.far off sel)) s s1 13 (some (sel &&& 0xFFFC)))) ∧
    (∀ (f : RetForm) (o q a : Nat) (d : Desc) (s s1 s2 : State), s.Ready false → s.pe = true →
      let n := s.osz.bytes
      let sel := BitVec.ofNat 16 q
      popMany n 2 s.begin = .ok [o, q] s1 → returnTarget sel (BitVec.ofNat 32 o) s1 = .ok (a, d) s2 →
      (sel.extractLsb' 0 2 = s.cpl → ∀ (h : Hidden) (s3 : State), accessed a d s2 = .ok h s3 →
        let t := (s3.withSeg .cs { sel := sel, hid := h }).withEip (o % 2 ^ 32)
        exec (.retf f) s = .next ((t.withSP (t.sp + RetForm.params f)).complete false)) ∧
      (sel.extractLsb' 0 2 ≠ s.cpl → ∀ t : State, s2.ReturnsOuter n (RetForm.params f) sel (BitVec.ofNat 32 o) a d t →
        exec (.retf f) s = .next (t.complete false)))) ∧
  (∀ (sel : Word) (off : DWord) (s : State), s.pe = true →
    let code := some (sel &&& 0xFFFC)
    let rpl := sel.extractLsb' 0 2
    (s.Ready false →
      let both (s1 : State) (v : Byte) (c : Option Word) : Prop :=
        Raises (.jmp (.far off sel)) s s1 v c ∧ Raises (.call (.far off sel)) s s1 v c
      (isNull sel = true → both s.begin 13 (some 0)) ∧
      (isNull sel = false → s.descAddr sel = none → both s.begin 13 code) ∧
      (∀ (a : Nat) (d : Desc) (s1 : State), isNull sel = false → s.descAddr sel = some a → readDesc a s.begin = .ok d s1 → d.s = true →
        let allowed : Prop := if d.hidden.conforming then d.dpl ≤ s.cpl else rpl ≤ s.cpl ∧ d.dpl = s.cpl
        (d.hidden.isCode = false ∨ ¬ allowed → both s1 13 code) ∧
        (d.hidden.isCode = true → allowed → d.present = false → both s1 11 code) ∧
        (d.hidden.isCode = true → allowed → d.present = true → d.limit < off → both s1 13 (some 0)))) ∧
    (let stops (s1 : State) (v : Byte) (c : Option Word) : Prop :=
       returnTarget sel off s = .error (.exn { vector := v, code := c, cls := .fault }) s1
     (isNull sel = true → stops s 13 (some 0)) ∧
     (isNull sel = false → s.descAddr sel = none → stops s 13 code) ∧
     (∀ (a : Nat) (d : Desc) (s1 : State), isNull sel = false → s.descAddr sel = some a → readDesc a s = .ok d s1 →
       let allowed : Prop := d.hidden.isCode = true ∧ s.cpl ≤ rpl ∧ (if d.hidden.conforming then d.dpl ≤ rpl else d.dpl = rpl)
       (¬ allowed → stops s1 13 code) ∧
       (allowed → d.present = false → stops s1 11 code) ∧
       (allowed → d.present = true → d.limit < off → stops s1 13 (some 0)) ∧
       (allowed → d.present = true → off ≤ d.limit → returnTarget sel off s = .ok (a, d) s1))) ∧
    (∀ (f : RetForm) (o q : Nat) (v : Byte) (c : Option Word) (s1 s2 : State), s.Ready false → popMany s.osz.bytes 2 s.begin = .ok [o, q] s1 →
      returnTarget (BitVec.ofNat 16 q) (BitVec.ofNat 32 o) s1 = .error (.exn { vector := v, code := c, cls := .fault }) s2 →
      Raises (.retf f) s s2 v c))

/-! ### System instructions -/

/-- At a privilege level other than 0 in protected mode every privileged instruction raises #GP(0) and has no effect; in real mode
the instructions that exist in protected mode only raise #UD (44_integer R556, R595 (g)). LOCK before an instruction or a
form that does not take it raises #UD (30_encoding R275; 44_integer R595 (f); ESC instructions with LOCK: FpuFaults). For MOV of a debug register with
DR7.GD = 1 the order, #GP(0) before the general-detect #DB, is the model's choice (notes/assumptions/21). -/
def Obligations.PrivilegeAndModeFaults : Prop :=
  (∀ (m : Rm) (a : Mem) (k c r t : RegNum) (mode : BitVec 2) (s : State) (i : Instr),
    s.Ready false → s.pe = true → s.cpl ≠ 0 → (c = 0 ∨ c = 2 ∨ c = 3) → 3 ≤ t.toNat → i ∈ privileged m a k c r t mode →
    Raises i s s.begin 13 (some 0)) ∧
  (∀ (r : RegNum) (m : Rm) (s : State) (i : Instr),
    s.Ready false → s.pe = false → i ∈ protectedOnly r m → Raises i s s.begin 6 none) ∧
  (∀ (i : Instr) (s : State), (s.pe && s.flags.vm) = false → s.dec.lock = true →
    takesLock i = false → isPrefix i = false → isEsc i = false → Raises i s s.begin 6 none)

/-- LGDT, LIDT, SGDT, SIDT: limit and base are loaded, the base cut to 24 bits for a 16-bit operand size; they are stored as
two bytes of limit and then four of base, of which the last is free for a 16-bit operand size. SLDT, STR (protected mode) and
SMSW: the selector or the low word of CR0, 16 bits in memory, its upper half free in a 32-bit register. LLDT and LTR: a null
selector makes LDTR unusable and is refused by LTR; a selector into the LDT, beyond the GDT or of a wrong type raises
#GP(selector), one not present #NP; else the register receives selector and descriptor, and LTR marks the TSS busy (44_integer
R540 to R545, R547; U9, U10). -/
def Obligations.SystemTables : Prop :=
  (∀ (m : Mem) (s : State), s.Ready false →
    (∀ (lim base : Nat) (s1 s2 : State), s.Privileged → loadMem m 0 2 2 s.begin = .ok lim s1 → loadMem m 2 4 4 s1 = .ok base s2 →
      let t : TableReg := { base := BitVec.ofNat 32 (if s.osz = .s16 then base % 2 ^ 24 else base), limit := BitVec.ofNat 16 lim }
      s.begin.Reads s2 ∧
      Completes (.lgdt m) s ({ s2 with gdtr := t }.complete false) [] ∧
      Completes (.lidt m) s ({ s2 with idtr := t }.complete false) []) ∧
    (∀ (g : Bool), s.am = false ∨ s.flags.ac = false ∨ s.cpl ≠ 3 →
      let r := if g then s.gdtr else s.idtr
      ∃ (u : Byte) (c : Nat), ∀ (ps : List BytePlace) (s2 : State),
        locateMem m 6 1 true { s.begin with freeCtr := c } = .ok ps s2 →
        s.begin.Reads s2 ∧
        Completes (if g then .sgdt m else .sidt m) s
          (((s2.wrote (ps.take 2) r.limit.toNat).wrote (ps.drop 2)
            (if s.osz = .s16 then r.base.toNat % 2 ^ 24 + u.toNat * 2 ^ 24 else r.base.toNat)).complete false) ps)) ∧
  (∀ (s : State), s.Ready false → ∀ (m : Rm) (i : Instr) (v : Word),
    (i, v) ∈ systemWord s m → s.pe = true ∨ i = .smsw m →
    (∀ r : RegNum, m = .reg r → ∃ (u : Word) (c : Nat),
      Completes i s (({ s.begin with freeCtr := c }.withReg s.osz.width r (withUpper s.osz u v)).complete false) []) ∧
    (∀ (a : Mem) (ps : List BytePlace) (s1 : State), m = .mem a → locateMem a 2 2 true s.begin = .ok ps s1 →
      s.begin.Reads s1 ∧ Completes i s ((s1.wrote ps v.toNat).complete false) ps)) ∧
  (∀ (m : Rm) (x : Nat) (s s1 : State), s.Ready false → s.pe = true → s.cpl = 0 →
    readRm .w16 m s.begin = .ok x s1 →
    let sel := BitVec.ofNat 16 x
    let code := some (sel &&& 0xFFFC)
    s.begin.Reads s1 ∧
    (isNull sel = true →
      Completes (.lldt m) s ({ s1 with ldtr := { sel := sel, hid := { s.ldtr.hid with valid := false } } }.complete false) [] ∧
      Raises (.ltr m) s s1 13 (some 0)) ∧
    (isNull sel = false →
      (selTI sel = true ∨ s.descAddr sel = none → Raises (.lldt m) s s1 13 code ∧ Raises (.ltr m) s s1 13 code) ∧
      (∀ (a : Nat) (d : Desc) (s2 : State), selTI sel = false → s.descAddr sel = some a → readDesc a s1 = .ok d s2 →
        (d.s = false → d.type = 2 → d.present = true →
          Completes (.lldt m) s ({ s2 with ldtr := { sel := sel, hid := d.hidden } }.complete false) []) ∧
        (d.s = true ∨ d.type ≠ 2 → Raises (.lldt m) s s2 13 code) ∧
        (d.s = false → d.type = 2 → d.present = false → Raises (.lldt m) s s2 11 code) ∧
        (d.s = false → d.type = 1 ∨ d.type = 9 →
          (d.present = false → Raises (.ltr m) s s2 11 code) ∧
          (∀ (sp : Spot) (s3 s4 : State), d.present = true → descSpot a s2 = .ok sp s3 → setMark sp 2 s3 = .ok () s4 →
            exec (.ltr m) s = .next ({ s4 with tr := { sel := sel, hid := { d.hidden with type := d.type ||| 2 } } }.complete false))) ∧
        (d.s = true ∨ ¬ (d.type = 1 ∨ d.type = 9) → Raises (.ltr m) s s2 13 code))))

/-- LAR, LSL, VERR, VERW of a selector that names a descriptor in its table: ZF is 1 exactly when type and privilege (CPL and
RPL at most DPL, or for LAR, LSL and VERR a conforming code segment) allow the inspection, and then LAR gives the masked access-rights dword and LSL the scaled limit; with a null selector or one beyond
its table ZF is 0; no other flag changes. ARPL: when the RPL of the operand is below that of the source, it is raised to it
and ZF set; else ZF is cleared (44_integer R552 to R554; 40_integer R337). The model's choices: LAR and LSL read a memory
operand at the operand size (notes/assumptions/22); ARPL reads one again, checked for a write, when it raises it
(notes/assumptions/72). -/
def Obligations.InspectSelectors : Prop :=
  (∀ (r : RegNum) (m : Rm) (s : State), s.Ready false → s.pe = true →
    let w := s.osz.width
    (∀ (x : Nat) (s1 : State), (isNull (BitVec.ofNat 16 x) = true ∨ s.descAddr (BitVec.ofNat 16 x) = none) →
      let none (t : State) : State := (t.withFlags { s.flags with zf := false }).complete false
      (readRm w m s.begin = .ok x s1 → Completes (.lar r m) s (none s1) [] ∧ Completes (.lsl r m) s (none s1) []) ∧
      (readRm .w16 m s.begin = .ok x s1 → Completes (.verr m) s (none s1) [] ∧ Completes (.verw m) s (none s1) [])) ∧
    (∀ (x a : Nat) (d : Desc) (s1 s2 : State), isNull (BitVec.ofNat 16 x) = false → s.descAddr (BitVec.ofNat 16 x) = some a →
      readDesc a s1 = .ok d s2 →
      let rpl := (BitVec.ofNat 16 x).extractLsb' 0 2
      let reach : Prop := s.cpl ≤ d.dpl ∧ rpl ≤ d.dpl
      let flagged (t : State) (z : Bool) : State := (t.withFlags { s.flags with zf := z }).complete false
      (readRm w m s.begin = .ok x s1 →
        ((d.hidden.conforming = true ∨ reach) ∧ (d.s = true ∨ d.type.toNat ∈ [1, 2, 3, 4, 5, 9, 11, 12]) →
          Completes (.lar r m) s (flagged (s2.withReg w r
            ((d.hi &&& (if s.osz = .s32 then 0x00F0FF00 else 0x0000FF00)).toNat)) true) []) ∧
        ((d.hidden.conforming = true ∨ reach) ∧ (d.s = true ∨ d.type.toNat ∈ [1, 2, 3, 9, 11]) →
          Completes (.lsl r m) s (flagged (s2.withReg w r d.limit.toNat) true) []) ∧
        (¬ (d.hidden.conforming = true ∨ reach) →
          Completes (.lar r m) s (flagged s2 false) [] ∧ Completes (.lsl r m) s (flagged s2 false) []) ∧
        (d.s = false → (d.type.toNat ∉ [1, 2, 3, 4, 5, 9, 11, 12] → Completes (.lar r m) s (flagged s2 false) []) ∧
          (d.type.toNat ∉ [1, 2, 3, 9, 11] → Completes (.lsl r m) s (flagged s2 false) []))) ∧
      (readRm .w16 m s.begin = .ok x s1 →
        (d.hidden.readable = true → d.hidden.conforming = true ∨ reach → Completes (.verr m) s (flagged s2 true) []) ∧
        (d.hidden.readable = false ∨ ¬ (d.hidden.conforming = true ∨ reach) → Completes (.verr m) s (flagged s2 false) []) ∧
        (d.hidden.writable = true → reach → Completes (.verw m) s (flagged s2 true) []) ∧
        (d.hidden.writable = false ∨ ¬ reach → Completes (.verw m) s (flagged s2 false) [])))) ∧
  (∀ (r : RegNum) (s : State), s.Ready false → s.pe = true →
    let rpl := s.regs.read .w16 r % 4
    (∀ k : RegNum, let x := s.regs.read .w16 k
      (x % 4 < rpl → Completes (.arpl r (.reg k)) s
        (((s.begin.withReg .w16 k (x / 4 * 4 + rpl)).withFlags { s.flags with zf := true }).complete false) []) ∧
      (rpl ≤ x % 4 → Completes (.arpl r (.reg k)) s ((s.begin.withFlags { s.flags with zf := false }).complete false) [])) ∧
    (∀ (m : Mem) (x : Nat) (s1 : State), loadMem m 0 2 2 s.begin = .ok x s1 →
      (x % 4 < rpl → ∀ (ps : List BytePlace) (y : Nat) (s2 s3 : State), locateMem m 2 2 true s1 = .ok ps s2 →
        readBytes false ps s2 = .ok y s3 →
        Completes (.arpl r (.mem m)) s
          (((s3.wrote ps (y / 4 * 4 + rpl)).withFlags { s.flags with zf := true }).complete false) ps) ∧
      (rpl ≤ x % 4 → Completes (.arpl r (.mem m)) s ((s1.withFlags { s.flags with zf := false }).complete false) [])))

/-- MOV to and from CR0, CR2, CR3, DR0 to DR7 and TR3 to TR7, at privilege level 0: the register receives the value, reserved bits
stay as they read, the six status flags are free; CR0 refuses PG without PE and NW without CD with #GP(0); other numbers
raise #UD. A debug or test register reads back what was written, but for the fixed bits of DR6 and DR7; DR4 and DR5 are DR6
and DR7. With DR7.GD = 1 an access to a debug register at privilege level 0 sets DR6.BD and raises #DB instead (44_integer
R549 to R551; 10_state R47 to R51); that the privilege check comes first is the model's choice (notes/assumptions/21). -/
def Obligations.SpecialRegisterMoves : Prop :=
  (∀ (mode : BitVec 2) (c r : RegNum) (s : State), s.Ready false → s.Privileged →
    let v := s.regs.get r
    let free (t : State) : State := (t.drawn.withFlags (freeStatus t.draw s.flags)).complete false
    Completes (.mov (.fromCr mode 0 r)) s (free (s.begin.withReg .w32 r s.cr0.toNat)) [] ∧
    Completes (.mov (.fromCr mode 2 r)) s (free (s.begin.withReg .w32 r s.cr2.toNat)) [] ∧
    Completes (.mov (.fromCr mode 3 r)) s (free (s.begin.withReg .w32 r s.cr3.toNat)) [] ∧
    Completes (.mov (.toCr mode 2 r)) s (free { s.begin with cr2 := v }) [] ∧
    Completes (.mov (.toCr mode 3 r)) s (free { s.begin with cr3 := v &&& 0xFFFFF018, tlb := s.tlb.flush }) [] ∧
    ((v.getLsbD 31 = true ∧ v.getLsbD 0 = false) ∨ (v.getLsbD 29 = true ∧ v.getLsbD 30 = false) →
      Raises (.mov (.toCr mode 0 r)) s s.begin 13 (some 0)) ∧
    ((v.getLsbD 31 = true → v.getLsbD 0 = true) → (v.getLsbD 29 = true → v.getLsbD 30 = true) →
      ∃ tlb : Tlb, (s.cr0 &&& 0x80010001 = v &&& 0x80010001 → tlb = s.tlb) ∧
        (s.cr0 &&& 0x80010001 ≠ v &&& 0x80010001 → tlb = s.tlb.flush) ∧
        Completes (.mov (.toCr mode 0 r)) s
          (free { s.begin with cr0 := (s.cr0 &&& ~~~(0xE005003F : DWord)) ||| (v &&& 0xE005003F), tlb := tlb }) []) ∧
    (s.dbg.dr7.getLsbD 13 = false →
      Completes (.mov (.fromDr mode c r)) s (free (s.begin.withReg .w32 r (s.dbg.get c).toNat)) [] ∧
      Completes (.mov (.toDr mode c r)) s (free { s.begin with dbg := s.dbg.set c v }) []) ∧
    (3 ≤ c.toNat →
      Completes (.mov (.fromTr mode c r)) s (free (s.begin.withReg .w32 r (s.test.get c).toNat)) [] ∧
      Completes (.mov (.toTr mode c r)) s (free { s.begin with test := s.test.set c v }) []) ∧
    (c.toNat < 3 → Raises (.mov (.fromTr mode c r)) s s.begin 6 none ∧ Raises (.mov (.toTr mode c r)) s s.begin 6 none) ∧
    (c ≠ 0 → c ≠ 2 → c ≠ 3 → Raises (.mov (.fromCr mode c r)) s s.begin 6 none ∧ Raises (.mov (.toCr mode c r)) s s.begin 6 none)) ∧
  (∀ (d : DebugRegs) (t : TestRegs) (n k : RegNum) (v : DWord),
    (n.toNat < 4 → (d.set n v).get n = v ∧ (k ≠ n → (d.set n v).get k = d.get k)) ∧
    ((d.set 4 v).get 6 = (v &&& 0x0000E00F) ||| 0xFFFF0FF0) ∧ ((d.set 6 v).get 4 = (v &&& 0x0000E00F) ||| 0xFFFF0FF0) ∧
    ((d.set 5 v).get 7 = v &&& 0xFFFF23FF) ∧ ((d.set 7 v).get 5 = v &&& 0xFFFF23FF) ∧
    (3 ≤ n.toNat → (t.set n v).get n = v ∧ (3 ≤ k.toNat → k ≠ n → (t.set n v).get k = t.get k))) ∧
  (∀ (mode : BitVec 2) (c r : RegNum) (s : State), s.Ready false → s.Privileged →
    s.dbg.dr7.getLsbD 13 = true →
    let u : State := { s.begin with dbg := { s.dbg with dr6 := s.dbg.dr6 ||| 0x2000 } }
    Raises (.mov (.fromDr mode c r)) s u 1 none ∧ Raises (.mov (.toDr mode c r)) s u 1 none)

/-- CLI and STI with CPL at most IOPL, or in real mode: IF is cleared or set, and STI sets the interrupt shadow when IF was 0; else
both raise #GP(0). LMSW loads TS, EM, MP and can only set PE; CLTS clears TS; INVD and WBINVD empty the cache with a special
cycle; INVLPG drops the page's TLB entry; HLT stops after a halt cycle (41_integer R406, R407; 60_exceptions R868;
44_integer R546, R548, R590 to R592; 43_integer R506). -/
def Obligations.InterruptFlagAndMachineControl : Prop :=
  (∀ s : State, s.Ready false →
    (s.IoPrivileged →
      Completes .cli s ((s.begin.withFlags { s.flags with intf := false }).complete false) [] ∧
      Completes .sti s (({ s.begin.withFlags { s.flags with intf := true } with
        latch := { s.latch with shadow := if s.flags.intf then .none else .held, repActive := false } }).complete false) []) ∧
    (s.pe = true → s.flags.iopl < s.cpl → Raises .cli s s.begin 13 (some 0) ∧ Raises .sti s s.begin 13 (some 0))) ∧
  (∀ (a : Mem) (s : State), s.Ready false → s.Privileged →
    (∀ (m : Rm) (x : Nat) (s1 : State), readRm .w16 m s.begin = .ok x s1 →
      let v := BitVec.ofNat 32 x
      let new := (s.cr0 &&& ~~~(0xE : DWord)) ||| (v &&& 0xF)
      s.begin.Reads s1 ∧
      Completes (.lmsw m) s
        ({ s1 with cr0 := new, tlb := if s.pe = false ∧ v.getLsbD 0 = true then s1.tlb.flush else s1.tlb }.complete false) []) ∧
    Completes .clts s ({ s.begin with cr0 := s.cr0 &&& ~~~(8 : DWord) }.complete false) [] ∧
    Completes .invd s (({ s.begin with cache := s.cache.flush }.drive .cacheFlush).complete false) [] ∧
    Completes .wbinvd s (({ s.begin with cache := s.cache.flush }.drive .writeBackFlush).complete false) [] ∧
    Completes (.invlpg a) s
      ({ s.begin with tlb := s.tlb.dropPage (((s.segs.get (s.memSeg a)).hid.base.toNat + s.memOff a) % 2 ^ 32 / 4096) }.complete false) [] ∧
    Completes .hlt s (({ s.begin with run := .halted }.drive .halt).complete false) [])

/-! ### Input, output and strings -/

/-- IN and OUT, every form, where the I/O check passes: one bus cycle for an operand that does not cross a dword boundary; for
one that does two, the higher dword first; byte cycles, ports modulo 2^16, for one that would pass FFFFH; IN gives the
accumulator what the ports answer, OUT sends it. The check: in real mode, or with CPL at most IOPL, it passes and changes
nothing; else without a 32-bit TSS, with a null TR or a TSS too short for the map pointer, or for an operand that would pass
FFFFH, it raises #GP(0), as it does beyond the permission map and where a bit of the map is 1 (41_integer R379, R380;
20_memory R125; 21_bus R192; 44_integer R556; 30_encoding R297; 92_eei_decisions D15). That the byte cycles come in rising
order is the model's choice: D15 gives no order (notes/assumptions/10). -/
def Obligations.InputOutput : Prop :=
  (∀ s : State, s.Ready false →
    (∀ (f : InForm) (s1 : State), let w := inWidth s.osz.width f
      let port := inPortOf s.regs f
      ioCheck port w.bytes s.begin = .ok () s1 → port % 4 + w.bytes ≤ 4 →
      s.begin.Reads s1 ∧ ∃ x : Nat, x < 2 ^ w.bits ∧
        Completes (.in_ f) s ((({ s1 with freeCtr := s1.freeCtr + 1 }.drive
          (.ioRead (BitVec.ofNat 16 port) w.bytes (BitVec.ofNat 32 x))).withReg w regEAX x).complete false) []) ∧
    (∀ (f : OutForm) (s1 : State), let w := outWidth s.osz.width f
      let port := outPortOf s.regs f
      ioCheck port w.bytes s.begin = .ok () s1 → port % 4 + w.bytes ≤ 4 →
      s.begin.Reads s1 ∧ Completes (.out f) s ((s1.drive (.ioWrite (BitVec.ofNat 16 port) w.bytes (BitVec.ofNat 32 (s.regs.read w regEAX)))).complete false) [])) ∧
  (∀ s : State, s.Ready false →
    (∀ (f : InForm) (s1 : State), let w := inWidth s.osz.width f
      let port := inPortOf s.regs f
      let k := 4 - port % 4
      ioCheck port w.bytes s.begin = .ok () s1 →
      (port + w.bytes ≤ 2 ^ 16 → k < w.bytes → ∃ lo hi : Nat, lo < 2 ^ (8 * k) ∧ hi < 2 ^ (8 * (w.bytes - k)) ∧
        Completes (.in_ f) s (((({ s1 with freeCtr := s1.freeCtr + 2 }.drive
          (.ioRead (BitVec.ofNat 16 (port + k)) (w.bytes - k) (BitVec.ofNat 32 hi))).drive
          (.ioRead (BitVec.ofNat 16 port) k (BitVec.ofNat 32 lo))).withReg w regEAX (lo + hi * 2 ^ (8 * k))).complete false) []) ∧
      (2 ^ 16 < port + w.bytes → ∃ bs : List Byte, bs.length = w.bytes ∧
        Completes (.in_ f) s (((s1.portBytesRead port bs).withReg w regEAX (bytesValue bs)).complete false) [])) ∧
    (∀ (f : OutForm) (s1 : State), let w := outWidth s.osz.width f
      let port := outPortOf s.regs f
      let x := s.regs.read w regEAX
      let k := 4 - port % 4
      ioCheck port w.bytes s.begin = .ok () s1 →
      (port + w.bytes ≤ 2 ^ 16 → k < w.bytes →
        Completes (.out f) s (((s1.drive (.ioWrite (BitVec.ofNat 16 (port + k)) (w.bytes - k) (BitVec.ofNat 32 (x / 2 ^ (8 * k))))).drive
          (.ioWrite (BitVec.ofNat 16 port) k (BitVec.ofNat 32 (x % 2 ^ (8 * k))))).complete false) []) ∧
      (2 ^ 16 < port + w.bytes → ∀ bs : List Byte, bs.length = w.bytes → bytesValue bs = x →
        Completes (.out f) s ((s1.portBytesWritten port bs).complete false) []))) ∧
  (∀ (port n : Nat) (s : State),
    (s.IoPrivileged → ioCheck port n s = .ok () s) ∧
    (s.pe = true → s.flags.iopl < s.cpl →
      (s.tr.hid.type ≠ 9 ∧ s.tr.hid.type ≠ 11) ∨ isNull s.tr.sel = true ∨ 2 ^ 16 < port + n ∨ s.tr.hid.limit.toNat < 0x67 →
      ioCheck port n s = .error (.exn { vector := 13, code := some 0, cls := .fault }) s) ∧
    (∀ (ptr bits : Nat) (s1 s2 : State), s.pe = true → s.flags.iopl < s.cpl → isNull s.tr.sel = false →
      (s.tr.hid.type = 9 ∨ s.tr.hid.type = 11) → port + n ≤ 2 ^ 16 → 0x67 ≤ s.tr.hid.limit.toNat →
      linRead (s.tr.hid.base.toNat + 0x66) 2 s = .ok ptr s1 →
      (s.tr.hid.limit.toNat < port / 8 + ptr + 1 →
        ioCheck port n s = .error (.exn { vector := 13, code := some 0, cls := .fault }) s1) ∧
      (port / 8 + ptr + 1 ≤ s.tr.hid.limit.toNat → linRead (s.tr.hid.base.toNat + (port / 8 + ptr)) 2 s1 = .ok bits s2 →
        ((∀ k, k < n → bits.testBit (port % 8 + k) = false) → ioCheck port n s = .ok () s2) ∧
        ((∃ k, k < n ∧ bits.testBit (port % 8 + k) = true) →
          ioCheck port n s = .error (.exn { vector := 13, code := some 0, cls := .fault }) s2))))

/-- A string instruction without a repeat prefix performs its operation once. Repeated: with eCX = 0 nothing happens; else one
iteration, eCX one less, and the instruction stays current (its EIP kept, RF kept) until eCX is 0 or, for CMPS and SCAS, ZF
ends it (42_integer R450 to R458). -/
def Obligations.StringInstructions : Prop :=
  (∀ (op : StringOp) (byte : Bool) (s t : State) (ps : List BytePlace), s.Ready false →
    s.dec.rep = none → op.Once (pickWidth byte s.osz.width) s.begin t ps →
    Completes (op.instr byte) s (t.complete false) ps) ∧
  (∀ (op : StringOp) (byte : Bool) (k : Rep) (s t : State) (ps : List BytePlace), s.Ready false →
    s.dec.rep = some k →
    let n := s.regs.read s.asz.width regECX
    (n = 0 → Completes (op.instr byte) s (s.begin.complete false) []) ∧
    (n ≠ 0 → op.Once (pickWidth byte s.osz.width) s.begin t ps →
      let t' := t.withReg s.asz.width regECX (n - 1)
      let ends : Bool := op.scans && (match k with | .rep => !t.flags.zf | .repne => t.flags.zf)
      (n = 1 ∨ ends = true → Completes (op.instr byte) s (t'.complete false) ps) ∧
      (n ≠ 1 → ends = false →
        Completes (op.instr byte) s ({ t' with eip := s.eip, latch := { t'.latch with repActive := true } }.complete false) ps)))

/-! ### The floating-point unit -/

/-- Loads from memory, when ST(7) is empty: reals of the short formats are converted, an SNaN and a denormal met as R680 says;
extended reals, integers and packed decimals raise nothing. The seven constants and FLD of a register: pushed when ST(7) is
empty. When ST(7) is not empty, every load is a stack overflow, and FLD of an empty register a stack underflow: IE, SF and C1
tell which, and the masked response pushes the indefinite (46_fpu R680 to R682, R700; 45_fpu R640). -/
def Obligations.FpuLoads : Prop :=
  (∀ (m : Mem) (v : Nat) (s s1 : State), s.EscReady → s.NoFpuError → s.fpu.isEmpty 7 = true →
    let g := s.fpu.freeCodes s1.draw
    let pushed (x : Ext) : Fpu := (g.setC1 false).push x
    let gives (i : Instr) (f : Fpu) : Prop := Completes i s (numericDone i (some m) s s1 f) []
    (loadMem m 0 2 2 s.begin = .ok v s1 → s.begin.Reads s1 ∧ gives (.fild (.m16 m)) (pushed (ofInt (toSigned 16 v)))) ∧
    (loadMem m 0 4 4 s.begin = .ok v s1 → s.begin.Reads s1 ∧ gives (.fild (.m32 m)) (pushed (ofInt (toSigned 32 v))) ∧
      gives (.fld (.m32 m)) (loadedReal g (ofReal single v))) ∧
    (loadMem m 0 8 8 s.begin = .ok v s1 → s.begin.Reads s1 ∧ gives (.fild (.m64 m)) (pushed (ofInt (toSigned 64 v))) ∧
      gives (.fld (.m64 m)) (loadedReal g (ofReal double v))) ∧
    (loadMem m 0 10 8 s.begin = .ok v s1 → s.begin.Reads s1 ∧ gives (.fld (.m80 m)) (pushed (BitVec.ofNat 80 v)) ∧
      (∀ k : Nat, bcdValue 18 v = some k → gives (.fbld m) (pushed (extEncode (v.testBit 79) k 0))) ∧
      (bcdValue 18 v = none → ∃ x : Ext, gives (.fbld m) (pushed x)))) ∧
  (∀ (m : Mem) (i : Instr) (n al v : Nat) (s s1 : State), s.EscReady → s.NoFpuError → s.fpu.isEmpty 7 = false →
    (i, n, al) ∈ loadRows m → loadMem m 0 n al s.begin = .ok v s1 →
    s.begin.Reads s1 ∧
    Completes i s (numericDone i (some m) s s1 ((s.fpu.freeCodes s1.draw).stackFaulted true (fun h => h.push indefinite))) []) ∧
  (∀ s : State, s.EscReady → s.NoFpuError →
    let g := s.fpu.freeCodes s.draw
    let gives (i : Instr) (f : Fpu) : Prop := Completes i s (numericDone i none s s.begin f) []
    let response (f : Fpu) : Fpu := if g.masks.getLsbD 0 then f.push indefinite else f
    (∀ (i : Instr) (near down up : Ext), (i, near, down, up) ∈ constantLoads →
      (s.fpu.isEmpty 7 = true →
        gives i ((g.setC1 false).push (match s.fpu.rc.toNat with | 0 => near | 2 => up | _ => down))) ∧
      (s.fpu.isEmpty 7 = false → gives i (response (g.faulted true)))) ∧
    (∀ k : RegNum,
      (s.fpu.isEmpty k = false → s.fpu.isEmpty 7 = true → gives (.fld (.st k)) ((g.setC1 false).push (s.fpu.reg k))) ∧
      (s.fpu.isEmpty k = false → s.fpu.isEmpty 7 = false → gives (.fld (.st k)) (response (g.faulted true))) ∧
      (s.fpu.isEmpty k = true → gives (.fld (.st k)) (response (g.faulted false)))))

/-- Stores of ST(0): to memory in every format and to a register, popping or not. What is stored is
the conversion by RC and the masks, with D met for a denormal (45_fpu_numerics R645; notes/assumptions/39); an unmasked I, D,
Z, O or U stores nothing and does not pop; that the operand is then still located
as for a write, setting Dirty bits and matching breakpoints, is the model's choice (notes/assumptions/75). An empty ST(0) is a
stack underflow: masked, the indefinite of the format is stored, and a popping store pops (46_fpu R685 to R690; 45_fpu_numerics
R630, R634, R640, R650, R665). -/
def Obligations.FpuStores : Prop :=
  (∀ s : State, s.EscReady → s.NoFpuError → s.fpu.isEmpty 0 = false →
    let x := s.fpu.reg 0
    let g := s.fpu.freeCodes s.draw
    (∀ (m : Mem) (row : StoreRow) (ps : List BytePlace) (s1 : State), row ∈ storeRows m s.fpu x →
      locateMem m row.bytes row.align true s.begin.drawn = .ok ps s1 →
      let c := row.out
      let done (t : State) (f : Fpu) : State := (t.withFpu (noted row.instr (some m) s.draw s f)).complete false
      s.begin.Reads s1 ∧
      (c.exc &&& 31 &&& ~~~s.fpu.masks = 0 →
        Completes row.instr s (done (s1.wrote ps c.bits) (popIf row.pops ((g.raise c.exc).setC1 c.up))) ps) ∧
      (c.exc &&& 31 &&& ~~~s.fpu.masks ≠ 0 →
        ∃ (e : Exns) (up : Bool), e &&& ~~~c.exc = 0 ∧ e &&& ~~~s.fpu.masks ≠ 0 ∧
          Completes row.instr s (done s1 ((g.raise e).setC1 up)) [])) ∧
    (∀ k : RegNum,
      let moved := (g.put k x).setC1 false
      Completes (.fst (.st k)) s (numericDone (.fst (.st k)) none s s.begin moved) [] ∧
      Completes (.fstp (.st k)) s (numericDone (.fstp (.st k)) none s s.begin moved.pop) [])) ∧
  (∀ s : State, s.EscReady → s.NoFpuError → s.fpu.isEmpty 0 = true →
    let masked := s.fpu.masks.getLsbD 0
    let g := (s.fpu.freeCodes s.draw).faulted false
    (∀ (m : Mem) (row : StoreRow) (ps : List BytePlace) (s1 : State), row ∈ storeRows m s.fpu (s.fpu.reg 0) →
      locateMem m row.bytes row.align true s.begin.drawn = .ok ps s1 →
      let done (t : State) (f : Fpu) : State := (t.withFpu (noted row.instr (some m) s.draw s f)).complete false
      s.begin.Reads s1 ∧
      (masked = true → Completes row.instr s (done (s1.wrote ps row.indef) (popIf row.pops g)) ps) ∧
      (masked = false → Completes row.instr s (done s1 g) [])) ∧
    (∀ (k : RegNum) (pops : Bool), let i : Instr := if pops then .fstp (.st k) else .fst (.st k)
      Completes i s (numericDone i none s s.begin (if masked then popIf pops (g.put k indefinite) else g)) []))

/-- FXCH, FABS, FCHS, FXAM and the stack management: FINCSTP and FDECSTP turn the stack without moving data, FFREE empties
a register, FNOP notes its address only. An empty register is a stack fault of FXCH, FABS and FCHS: masked, FXCH makes the empty
registers indefinite and then exchanges, FABS and FCHS give the indefinite (46_fpu R693; 47_fpu R745, R746, R760; 49_fpu R808 to
R811; 45_fpu_numerics R630, R640). The model's choices: FXAM reports a pseudo-denormal as Denormal (notes/assumptions/70); FFREE
and FNOP keep the condition codes, FINCSTP and FDECSTP free them (notes/assumptions/50); FINCSTP, FDECSTP and FFREE keep the
pointers (notes/assumptions/51). -/
def Obligations.FpuStackOperations : Prop := ∀ (k : RegNum) (s : State), s.EscReady → s.NoFpuError →
  let f := s.fpu
  let x := f.reg 0
  let g := f.freeCodes s.draw
  let gives (i : Instr) (f : Fpu) : Prop := Completes i s (numericDone i none s s.begin f) []
  let alone (i : Instr) (t : State) (f : Fpu) : Prop := Completes i s ((t.withFpu f).complete false) []
  (f.isEmpty 0 = false → f.isEmpty k = false → gives (.fxch k) (((g.put 0 (f.reg k)).put k x).setC1 false)) ∧
  (f.isEmpty 0 = false →
    gives .fabs ((g.put 0 (x &&& 0x7FFFFFFFFFFFFFFFFFFF#80)).setC1 false) ∧
    gives .fchs ((g.put 0 (x ^^^ 0x80000000000000000000#80)).setC1 false)) ∧
  (f.isEmpty 0 = true ∨ f.isEmpty k = true →
    let v (i : RegNum) : Ext := if f.isEmpty i then indefinite else f.reg i
    gives (.fxch k) (g.stackFaulted false (fun h => (h.put 0 (v k)).put k (v 0)))) ∧
  (f.isEmpty 0 = true → ∀ i ∈ [Instr.fabs, .fchs], gives i (g.stackFaulted false (fun h => h.put 0 indefinite))) ∧
  gives .fxam ((f.setC1 (x.getLsbD 79)).setCodes
    (f.isEmpty 0 || decide (extClass x = .zero) || (extClass x).isDenormal)
    (!f.isEmpty 0 && (decide (extClass x = .normal) || decide (extClass x = .infinity) || (extClass x).isDenormal))
    (f.isEmpty 0 || (extClass x).isNan || decide (extClass x = .infinity))) ∧
  alone .fincstp s.begin.drawn ((g.turn 1).setC1 false) ∧
  alone .fdecstp s.begin.drawn ((g.turn 7).setC1 false) ∧
  alone (.ffree k) s.begin (f.free k) ∧
  alone .fnop s.begin { f with ip := s.eip, cs := s.segs.cs.sel, op := escOpcode .fnop }

/-- The six basic operations in every form: with memory, of registers, popping. The operation's result, rounded to the
precision PC selects, is settled into the destination; an empty operand is a stack fault in every form. What each operation
gives for destination a and source b: a + b, a - b, b - a, a * b, a / b, b / a (of finite numbers: FpuExactOperations and
FpuRoundingAndRange), with D for a denormal; the NaN chosen, or the invalid operation, for NaNs and unsupported operands;
infinities, and the invalid operations of infinities and zeros; Z and an infinity for a division of a finite nonzero number by
zero (47_fpu R720 to R728; 45_fpu_numerics R612, R613, R620, R630, R640, R645, R648, R670). -/
def Obligations.FpuBasicArithmetic : Prop :=
  (∀ (row : BasicRow) (s : State), row ∈ basicRows → s.EscReady → s.NoFpuError →
    let g (u : BitVec 128) : Fpu := s.fpu.freeCodes u
    let top := regOperand (s.fpu.reg 0)
    let absent (f : Fpu) (k : RegNum) : Fpu := if f.masks.getLsbD 0 then (f.faulted false).put k indefinite else f.faulted false
    (∀ (i : Instr) (m : Mem) (n v : Nat) (b : Operand) (s1 : State),
      (i, n, b) ∈ [(row.real (.m32 m), 4, ofReal single v), (row.real (.m64 m), 8, ofReal double v),
        (row.int (.m16 m), 2, ofInteger 16 v), (row.int (.m32 m), 4, ofInteger 32 v)] →
      loadMem m 0 n n s.begin = .ok v s1 →
      s.begin.Reads s1 ∧
      (s.fpu.isEmpty 0 = false → ∃ p : Nat, s.fpu.rounds p ∧
        Completes i s (numericDone i (some m) s s1
          (settled (g s1.draw) (row.op s.fpu p top b) (fun v f => f.put 0 v))) []) ∧
      (s.fpu.isEmpty 0 = true → Completes i s (numericDone i (some m) s s1 (absent (g s1.draw) 0)) [])) ∧
    (∀ (k : RegNum) (i : Instr) (a b : RegNum) (pops : Bool),
      (i, a, b, pops) ∈ [(row.real (.stSti k), 0, k, false), (row.real (.stiSt k), k, 0, false), (row.pop k, k, 0, true)] →
      (s.fpu.isEmpty a = false → s.fpu.isEmpty b = false → ∃ p : Nat, s.fpu.rounds p ∧
        Completes i s (numericDone i none s s.begin
          (settled (g s.draw) (row.op s.fpu p (regOperand (s.fpu.reg a)) (regOperand (s.fpu.reg b)))
            (fun v f => popIf pops (f.put a v)))) []) ∧
      (s.fpu.isEmpty a = true ∨ s.fpu.isEmpty b = true →
        Completes i s (numericDone i none s s.begin
          (if s.fpu.masks.getLsbD 0 then popIf pops (absent (g s.draw) a) else absent (g s.draw) a)) []))) ∧
  (∀ (f : Fpu) (p : Nat) (x y : Operand),
    let a := x.val
    let b := y.val
    let sign := extNeg a ^^ extNeg b
    let met (n : Machine.Num) : Machine.Num := n.withDenormal (x.den || y.den)
    let invalid : Machine.Num := ⟨indefinite, excI, false⟩
    opSubr f p x y = opSub f p y x ∧ opDivr f p x y = opDiv f p y x ∧
    (ordinary a b = false → ∀ op ∈ [opAdd, opSub, opMul, opDiv], op f p x y = nanResult a b) ∧
    (finiteExt a = true → finiteExt b = true →
      opAdd f p x y = met (addCompute f p false a b) ∧ opSub f p x y = met (addCompute f p true a b) ∧
      opMul f p x y = met (mulCompute f p a b) ∧
      (extClass b ≠ .zero → opDiv f p x y = met (divCompute f p a b)) ∧
      (extClass b = .zero → opDiv f p x y = if extClass a = .zero then invalid else ⟨extInf sign, excZ, false⟩)) ∧
    (ordinary a b = true → extClass a = .infinity ∨ extClass b = .infinity →
      (∀ sub : Bool, (if sub then opSub else opAdd) f p x y =
        if extClass a = .infinity ∧ extClass b = .infinity ∧ extNeg a ≠ (extNeg b ^^ sub) then invalid
        else met ⟨if extClass a = .infinity then a else extInf (extNeg b ^^ sub), 0, false⟩) ∧
      opMul f p x y = (if extClass a = .zero ∨ extClass b = .zero then invalid else met ⟨extInf sign, 0, false⟩) ∧
      opDiv f p x y = if extClass a = .infinity ∧ extClass b = .infinity then invalid
        else met ⟨if extClass a = .infinity then extInf sign else extZero sign, 0, false⟩))

/-- FSQRT, FRNDINT, FSCALE, FXTRACT, FPREM, FPREM1. FRNDINT gives the integer RC selects; FSCALE the value times 2 to the
power ST(1) cut to an integer, rounded; FXTRACT the exponent and the significand; a remainder by a modulus whose exponent is
less than 64 below is complete: exact, with the low bits of the quotient in C0, C3, C1, the quotient of FPREM1 the nearest,
even when two are; else it is a smaller number congruent to the dividend, with C2 set. On empty registers, NaNs, infinities
and zeros: stack faults, the NaN, the invalid operations and the exact results of the tables (47_fpu R735, R736, R741 to R744;
45_fpu_numerics R612, R613, R620, R630, R640, R648). The model's choices: that C0, C3 and C1 are 0 for an incomplete
remainder, and which codes are free beside NaNs and invalid operands (notes/assumptions/43); that FXTRACT puts the same value
in both registers after a stack fault and for a NaN, and finds underflow before overflow (notes/assumptions/42). -/
def Obligations.FpuOtherArithmetic : Prop :=
  (∀ s : State, s.EscReady → s.NoFpuError → s.fpu.isEmpty 0 = false →
    let g := s.fpu.freeCodes s.draw
    let a := s.fpu.reg 0
    let b := s.fpu.reg 1
    let x := regOperand a
    let gives (i : Instr) (f : Fpu) : Prop := Completes i s (numericDone i none s s.begin f) []
    (∃ p : Nat, s.fpu.rounds p ∧
      gives .fsqrt (settled g (numeric1 sqrtSpecial (sqrtCompute s.fpu p) x) (fun v f => f.put 0 v))) ∧
    gives .frndint (settled g (numeric1 (fun _ => none) (rndintCompute s.fpu) x) (fun v f => f.put 0 v)) ∧
    (s.fpu.isEmpty 1 = false →
      gives .fscale (settled g (numeric2 scaleSpecial (scaleCompute s.fpu) x (regOperand b)) (fun v f => f.put 0 v))) ∧
    (s.fpu.isEmpty 7 = true → finiteExt a = true → isZero a = false → (x.den && !s.fpu.masks.getLsbD 1) = false →
      ∃ (e : Int) (m : Ext), extValue m * (2 : ℚ) ^ e = extValue a ∧ 1 ≤ |extValue m| ∧ |extValue m| < 2 ∧
        gives .fxtract ((((g.raise (excIf x.den excD)).setC1 false).put 0 (ofInt e)).push m)) ∧
    (∀ nearest : Bool, s.fpu.isEmpty 1 = false → finiteExt a = true → finiteExt b = true → isZero a = false → isZero b = false →
      s.fpu.denormalStops x (regOperand b) = false → s.fpu.masks.getLsbD 4 = true →
      let d := leading (extFinite a).sig (extFinite a).exp - leading (extFinite b).sig (extFinite b).exp
      let i : Instr := if nearest then .fprem1 else .fprem
      let h := g.raise (excIf (x.den || (regOperand b).den) excD)
      (d < 64 → ∃ (q : Nat) (r : Ext), extValue r = (if extNeg a then -1 else 1) * (|extValue a| - q * |extValue b|) ∧
        (if nearest then 2 * |extValue r| ≤ |extValue b| ∧ (2 * |extValue r| = |extValue b| → q % 2 = 0) else |extValue r| < |extValue b| ∧ (q : ℚ) * |extValue b| ≤ |extValue a|) ∧
        gives i (((h.put 0 r).setCodes (q.testBit 1) false (q.testBit 2)).setC1 (q.testBit 0))) ∧
      (64 ≤ d → ∃ (q : Nat) (r : Ext), extValue r = (if extNeg a then -1 else 1) * (|extValue a| - q * |extValue b|) ∧
        |extValue r| < |extValue a| ∧
        gives i (((h.put 0 r).setCodes false true false).setC1 false)))) ∧
  (∀ s : State, s.EscReady → s.NoFpuError →
    let f := s.fpu
    let g := f.freeCodes s.draw
    let a := f.reg 0
    let b := f.reg 1
    let gives (i : Instr) (f : Fpu) : Prop := Completes i s (numericDone i none s s.begin f) []
    let onTop (v : Ext) (h : Fpu) : Fpu := h.put 0 v
    let twice (v : Ext) (h : Fpu) : Fpu := (h.put 0 v).push v
    let met (n : Machine.Num) (x : Ext) : Machine.Num := n.withDenormal (extClass x).isDenormal
    (f.isEmpty 0 = true → ∀ i ∈ [Instr.fsqrt, .frndint], gives i (g.stackFaulted false (onTop indefinite))) ∧
    (f.isEmpty 0 = true ∨ f.isEmpty 1 = true → ∀ i ∈ [Instr.fscale, .fprem, .fprem1],
      gives i (g.stackFaulted false (onTop indefinite))) ∧
    (f.isEmpty 0 = true → gives .fxtract (g.stackFaulted false (twice indefinite))) ∧
    (f.isEmpty 0 = false → f.isEmpty 7 = false → gives .fxtract (g.stackFaulted true (twice indefinite))) ∧
    (f.isEmpty 0 = false →
      (ordinary a a = false → ∀ i ∈ [Instr.fsqrt, .frndint], gives i (settled g (nanResult a a) onTop)) ∧
      (ordinary a a = true → extNeg a = true → extClass a ≠ .zero → gives .fsqrt (settled g ⟨indefinite, excI, false⟩ onTop)) ∧
      (extClass a = .infinity → gives .frndint (settled g ⟨a, 0, false⟩ onTop) ∧
        (extNeg a = false → gives .fsqrt (settled g ⟨a, 0, false⟩ onTop)))) ∧
    (f.isEmpty 0 = false → f.isEmpty 7 = true →
      (ordinary a a = false → gives .fxtract (settled g (nanResult a a) twice)) ∧
      (extClass a = .zero → gives .fxtract (settled g ⟨extInf true, excZ, false⟩ (fun v h => (h.put 0 v).push a))) ∧
      (extClass a = .infinity → gives .fxtract (settled g ⟨extInf false, 0, false⟩ (fun v h => (h.put 0 v).push a)))) ∧
    (f.isEmpty 0 = false → f.isEmpty 1 = false →
      (ordinary a b = false → ∀ i ∈ [Instr.fscale, .fprem, .fprem1], gives i (settled g (nanResult a b) onTop)) ∧
      (ordinary a b = true →
        ((extClass a = .zero ∧ b = extInf false) ∨ (extClass a = .infinity ∧ b = extInf true) →
          gives .fscale (settled g ⟨indefinite, excI, false⟩ onTop)) ∧
        ((extClass a = .zero ∧ b ≠ extInf false) ∨ (extClass a = .infinity ∧ b ≠ extInf true) →
          gives .fscale (settled g (met ⟨a, 0, false⟩ b) onTop)) ∧
        (finiteExt a = true → extClass a ≠ .zero →
          (b = extInf false → gives .fscale (settled g (met ⟨extInf (extNeg a), 0, false⟩ a) onTop)) ∧
          (b = extInf true → gives .fscale (settled g (met ⟨extZero (extNeg a), 0, false⟩ a) onTop))) ∧
        (∀ i ∈ [Instr.fprem, .fprem1],
          (extClass a = .infinity ∨ extClass b = .zero →
            gives i (settled g ⟨indefinite, excI, false⟩ (fun v h => (h.put 0 v).setC2 true))) ∧
          (finiteExt a = true → extClass b ≠ .zero → extClass a = .zero ∨ extClass b = .infinity →
            gives i (settled g (met (met ⟨a, 0, false⟩ a) b) (fun v h => ((h.put 0 v).setCodes false false false).setC1 false))))))) ∧
  (∀ (f : Fpu) (a : Ext), finiteExt a = true →
    (let r := roundAt f.rc (extFinite a) 0
     let n := rndintCompute f a
     finiteExt n.val = true ∧ extValue n.val = (if extNeg a then -1 else 1) * (r.q : ℚ) ∧ extNeg n.val = extNeg a ∧
       n.up = r.up ∧ n.exc = if r.inexact then excP else 0) ∧
    (∀ b : Ext, extValue a ≠ 0 → finiteExt b = true → ∃ (k : Int) (z : Finite),
      |(k : ℚ)| ≤ |extValue b| ∧ |extValue b| < |(k : ℚ)| + 1 ∧ 0 ≤ (k : ℚ) * extValue b ∧
      z.value = extValue a * (2 : ℚ) ^ k ∧ z.neg = extNeg a ∧ scaleCompute f a b = roundReg f 64 z))

/-- Comparisons in every form and FTST: the codes tell the relation of ST(0) to the operand, which for finite numbers is that
of their values, an infinity lying beyond every number of its sign; NaNs and unsupported operands are unordered and, but for a
QNaN in FUCOM, invalid; an empty operand is a stack fault and unordered (47_fpu R750 to R759). That an unmasked denormal
leaves the codes free is the model's choice (notes/assumptions/30). -/
def Obligations.FpuComparisons : Prop := ∀ s : State, s.EscReady → s.NoFpuError →
  let x := regOperand (s.fpu.reg 0)
  let absent : Fpu := (s.fpu.setCodes true true true).faulted false
  (∀ (k : RegNum) (i : Instr) (j : RegNum) (quietOk : Bool) (n : Nat), (i, j, quietOk, n) ∈ compareRows k →
    let gives (f : Fpu) : Prop := Completes i s (numericDone i none s s.begin f) []
    (s.fpu.isEmpty 0 = false → s.fpu.isEmpty j = false →
      gives (compared s.fpu quietOk x (regOperand (s.fpu.reg j)) n s.draw)) ∧
    (s.fpu.isEmpty 0 = true ∨ s.fpu.isEmpty j = true →
      gives (if s.fpu.masks.getLsbD 0 then absent.pops n else absent))) ∧
  (∀ (m : Mem) (v : Nat) (i : Instr) (w : Nat) (b : Operand) (n : Nat) (s1 : State), (i, w, b, n) ∈ compareMemRows m v →
    loadMem m 0 w w s.begin = .ok v s1 →
    s.begin.Reads s1 ∧
    (s.fpu.isEmpty 0 = false → Completes i s (numericDone i (some m) s s1 (compared s.fpu false x b n s1.draw)) []) ∧
    (s.fpu.isEmpty 0 = true →
      Completes i s (numericDone i (some m) s s1 (if s.fpu.masks.getLsbD 0 then absent.pops n else absent)) [])) ∧
  (s.fpu.isEmpty 0 = false →
    Completes .ftst s (numericDone .ftst none s s.begin (compared s.fpu false x (regOperand 0) 0 s.draw)) []) ∧
  (s.fpu.isEmpty 0 = true → Completes .ftst s (numericDone .ftst none s s.begin absent) []) ∧
  (∀ a b : Ext, finiteExt a = true → finiteExt b = true →
    (relationOf a b = .greater ↔ extValue b < extValue a) ∧ (relationOf a b = .less ↔ extValue a < extValue b) ∧
    (relationOf a b = .equal ↔ extValue a = extValue b)) ∧
  (∀ a b : Ext, ordinary a b = true → extClass a = .infinity ∨ extClass b = .infinity →
    relationOf a b = if a = b then .equal else if a = extInf false ∨ b = extInf true then .greater else .less) ∧
  (∀ (quietOk : Bool) (a b : Ext), compareInvalid quietOk a b = true ↔ (∃ c ∈ [extClass a, extClass b],
    c.unsupported = true ∨ c = .snan ∨ (quietOk = false ∧ c = .qnan))) ∧
  (∀ f : Fpu, f.setRelation .greater = f.setCodes false false false ∧ f.setRelation .less = f.setCodes false false true ∧
    f.setRelation .equal = f.setCodes true false false ∧ f.setRelation .unordered = f.setCodes true true true)

/-- The transcendental instructions. FSIN, FCOS, FPTAN, FSINCOS: a finite argument of 2^63 or more in magnitude sets C2 and is
left; a smaller one clears C2 and is replaced, FPTAN pushing 1.0 and FSINCOS the cosine. FPATAN, FYL2X, FYL2XP1 replace ST(1)
and pop, F2XM1 replaces ST(0); with C1 set only beside P. The result is exact where a rule makes it so (zeros, ones,
infinities, powers of two, multiples of a quarter of pi), a stack fault, NaN or invalid operation where they say so, and else
a value with P met and within 2^-62 of the reference value of the function (48_fpu R770 to R784; 45_fpu_numerics R605, R612,
R613, R620, R630, R640, R648). The model's choices: that reference, the truncated series of FpuApprox (notes/assumptions/33);
the same value in both registers of FPTAN and FSINCOS after a stack fault and for a NaN (notes/assumptions/42); C1 and C2
beside unmasked exceptions (notes/assumptions/44); which results are exact or fixed, those of powers of two and the quarters
of the 66-bit pi among them (notes/assumptions/45); C1 of FSINCOS, the cosine's (notes/assumptions/47); FYL2X of an infinite Y
and X = 0 (notes/assumptions/68); the sign of the zeros of FYL2X and, for Y = ±0 and a nonzero X, FYL2XP1
(notes/assumptions/76); C1 = 1 for a stack overflow of FPTAN, by R640, where R775 has C1 <- 0 on a stack fault
(notes/assumptions/82). -/
def Obligations.FpuTranscendentals : Prop :=
  (∀ s : State, s.EscReady → s.NoFpuError → s.fpu.isEmpty 0 = false →
    finiteExt (s.fpu.reg 0) = true →
    let f := s.fpu
    let a := f.reg 0
    let den := (extClass a).isDenormal
    let gives (i : Instr) (f : Fpu) : Prop := Completes i s (numericDone i none s s.begin f) []
    let gives2 (i : Instr) (f : Fpu) : Prop :=
      Completes i s ((s.begin.drawn.drawn.withFpu (noted i none s.draw s f)).complete false) []
    (den && !f.masks.getLsbD 1) = false →
    (∀ i ∈ [Instr.fsin, .fcos, .fptan, .fsincos], i ∈ [Instr.fsin, .fcos] ∨ f.isEmpty 7 = true →
      (tooLarge a = true → ∃ c3 c1 c0 : Bool, gives i ((f.setCodes c3 true c0).setC1 c1)) ∧
      (tooLarge a = false → ∃ (c3 c1 c0 : Bool) (e : Exns) (v w : Ext), e &&& 7 = excIf den excD ∧
        let h := ((f.setCodes c3 false c0).raise e).setC1 c1
        (i ∈ [Instr.fsin, .fcos] → gives i (h.put 0 v)) ∧
        (i = .fptan → gives i ((h.put 0 v).push 0x3FFF8000000000000000#80)) ∧
        (i = .fsincos → gives i ((h.put 0 v).push w)))) ∧
    (∃ (c3 c2 c1 c0 : Bool) (e : Exns) (v : Ext), (e.getLsbD 5 = false → c1 = false) ∧
      gives2 .f2xm1 ((((f.setCodes c3 c2 c0).raise e).setC1 c1).put 0 v)) ∧
    (∀ i ∈ [Instr.fpatan, .fyl2x, .fyl2xp1], f.isEmpty 1 = false → finiteExt (f.reg 1) = true → f.masks &&& 7 = 7 →
      ∃ (c3 c2 c1 c0 : Bool) (e : Exns) (v : Ext),
        let h := ((((f.setCodes c3 c2 c0).raise e).setC1 c1).put 1 v).pop
        (e.getLsbD 5 = false → c1 = false) ∧ if i = .fyl2xp1 then gives2 i h else gives i h)) ∧
  (∀ s : State, s.EscReady → s.NoFpuError →
    let f := s.fpu
    let g := f.freeCodes s.draw
    let h := g.setC2 false
    let a := f.reg 0
    let b := f.reg 1
    let gives (i : Instr) (f : Fpu) : Prop := Completes i s (numericDone i none s s.begin f) []
    let gives2 (i : Instr) (f : Fpu) : Prop :=
      Completes i s ((s.begin.drawn.drawn.withFpu (noted i none s.draw s f)).complete false) []
    let onTop (v : Ext) (h : Fpu) : Fpu := h.put 0 v
    let twice (v : Ext) (h : Fpu) : Fpu := (h.put 0 v).push v
    let popped (v : Ext) (h : Fpu) : Fpu := (h.put 1 v).pop
    let den := (extClass a).isDenormal
    let den2 := den || (extClass b).isDenormal
    let sign := extNeg b ^^ extNeg a
    let quarters (k : Nat) : Machine.Num := roundReg f 64 ⟨extNeg b, k * 0xC90FDAA22168C234C, -68⟩
    (f.isEmpty 0 = true →
      (∀ i ∈ [Instr.fsin, .fcos], gives i (g.stackFaulted false (onTop indefinite))) ∧
      (∀ i ∈ [Instr.fptan, .fsincos], gives i (g.stackFaulted false (twice indefinite))) ∧
      gives2 .f2xm1 (g.stackFaulted false (onTop indefinite))) ∧
    (f.isEmpty 0 = false → f.isEmpty 7 = false →
      ∀ i ∈ [Instr.fptan, .fsincos], gives i (g.stackFaulted true (twice indefinite))) ∧
    (f.isEmpty 0 = true ∨ f.isEmpty 1 = true →
      (∀ i ∈ [Instr.fpatan, .fyl2x], gives i (g.stackFaulted false (popped indefinite))) ∧
      gives2 .fyl2xp1 (g.stackFaulted false (popped indefinite))) ∧
    (f.isEmpty 0 = false →
      (ordinary a a = false →
        (∀ i ∈ [Instr.fsin, .fcos], gives i (settled g (nanResult a a) onTop)) ∧
        (f.isEmpty 7 = true → ∀ i ∈ [Instr.fptan, .fsincos], gives i (settled g (nanResult a a) twice)) ∧
        gives2 .f2xm1 (settled g (nanResult a a) onTop)) ∧
      (extClass a = .infinity →
        (∀ i ∈ [Instr.fsin, .fcos], ∃ c1 : Bool,
          gives i (settled g ⟨indefinite, excI, false⟩ (fun v k => ((onTop v k).setC2 true).setC1 c1))) ∧
        (f.isEmpty 7 = true → ∀ i ∈ [Instr.fptan, .fsincos], ∃ c1 : Bool,
          gives i (settled g ⟨indefinite, excI, false⟩ (fun v k => ((twice v k).setC2 true).setC1 c1))) ∧
        gives2 .f2xm1 (settled g ⟨if extNeg a then 0xBFFF8000000000000000#80 else a, 0, false⟩ onTop)) ∧
      (finiteExt a = true → |extValue a| < 2 ^ 63 →
        let at0 (v : Ext) (op : Transc) : Machine.Num := if extClass a = .zero then ⟨v, 0, false⟩ else transc f op a a
        let cosine := at0 0x3FFF8000000000000000#80 .cos
        let sine := at0 a .sin
        gives .fsin (settled h (sine.withDenormal den) onTop) ∧
        gives .fcos (settled h (cosine.withDenormal den) onTop) ∧
        (f.isEmpty 7 = true →
          gives .fptan (settled h ((at0 a .tan).withDenormal den) (fun v k => (k.put 0 v).push 0x3FFF8000000000000000#80)) ∧
          gives .fsincos (settled h (Machine.Num.withDenormal ⟨sine.val, sine.exc ||| cosine.exc, cosine.up⟩ den)
            (fun v k => (k.put 0 v).push cosine.val)))) ∧
      (extClass a = .zero → gives2 .f2xm1 (settled g ⟨a, 0, false⟩ onTop)) ∧
      (a = 0x3FFF8000000000000000#80 → gives2 .f2xm1 (settled g ⟨a, 0, false⟩ onTop)) ∧
      (a = 0xBFFF8000000000000000#80 → gives2 .f2xm1 (settled g ⟨0xBFFE8000000000000000#80, 0, false⟩ onTop)) ∧
      (finiteExt a = true → extClass a ≠ .zero → |extValue a| < 1 →
        gives2 .f2xm1 (settled g ((transc f .exp2m1 a a).withDenormal den) onTop))) ∧
    (f.isEmpty 0 = false → f.isEmpty 1 = false → ordinary b a = false →
      (∀ i ∈ [Instr.fpatan, .fyl2x], gives i (settled g (nanResult b a) popped)) ∧
      gives2 .fyl2xp1 (settled g (nanResult b a) popped)) ∧
    (f.isEmpty 0 = false → f.isEmpty 1 = false → ordinary b a = true →
      let atan (n : Machine.Num) : Prop := gives .fpatan (settled g (n.withDenormal den2) popped)
      let ylog (n : Machine.Num) : Prop := gives .fyl2x (settled g (n.withDenormal den2) popped)
      let ylogp1 (n : Machine.Num) : Prop := gives2 .fyl2xp1 (settled g (n.withDenormal den2) popped)
      let invalid : Fpu := settled g ⟨indefinite, excI, false⟩ popped
      -- FPATAN
      ((extClass b = .zero → atan (if extNeg a then quarters 4 else ⟨b, 0, false⟩)) ∧
        (extClass b = .infinity → atan (quarters (if extClass a = .infinity then (if extNeg a then 3 else 1) else 2))) ∧
        (finiteExt b = true → extClass b ≠ .zero →
          (extClass a = .zero → atan (quarters 2)) ∧
          (extClass a = .infinity → atan (if extNeg a then quarters 4 else ⟨extZero (extNeg b), 0, false⟩)) ∧
          (finiteExt a = true → extClass a ≠ .zero →
            atan (if a = 0x3FFF8000000000000000#80 ∧ b = 0x3FFF8000000000000000#80 ∧ f.rc = 0 then quarters 1
              else transc f .atan a b)))) ∧
      -- FYL2X
      ((extNeg a = true → extClass a ≠ .zero → gives .fyl2x invalid) ∧
        (extClass a = .zero →
          (extClass b = .zero → gives .fyl2x invalid) ∧
          (finiteExt b = true → extClass b ≠ .zero → gives .fyl2x (settled g ⟨extInf (!extNeg b), excZ, false⟩ popped)) ∧
          (extClass b = .infinity → ylog ⟨extInf (!extNeg b), 0, false⟩)) ∧
        (a = extInf false → if extClass b = .zero then gives .fyl2x invalid else ylog ⟨extInf (extNeg b), 0, false⟩) ∧
        (finiteExt a = true → 0 < extValue a →
          (extClass b = .infinity →
            (a = 0x3FFF8000000000000000#80 → gives .fyl2x invalid) ∧
            (a ≠ 0x3FFF8000000000000000#80 → ylog ⟨extInf (extNeg b ^^ decide (extValue a < 1)), 0, false⟩)) ∧
          (extClass b = .zero → ylog ⟨extZero (extNeg b ^^ decide (extValue a < 1)), 0, false⟩) ∧
          (finiteExt b = true → extClass b ≠ .zero →
            (∀ e : Int, extValue a = (2 : ℚ) ^ e → ∃ z : Finite,
              z.value = extValue b * e ∧ z.neg = (extNeg b ^^ decide (e < 0)) ∧ ylog (roundReg f 64 z)) ∧
            ((∀ e : Int, extValue a ≠ (2 : ℚ) ^ e) → ylog (transc f .ylog2 a b))))) ∧
      -- FYL2XP1
      ((extClass b = .infinity → extClass a = .zero → gives2 .fyl2xp1 invalid) ∧
        (a = extInf true ∨ (finiteExt a = true ∧ extValue a < -1) → gives2 .fyl2xp1 invalid) ∧
        (a = extInf false → if extClass b = .zero then gives2 .fyl2xp1 invalid else ylogp1 ⟨extInf (extNeg b), 0, false⟩) ∧
        (extClass a = .zero → extClass b ≠ .infinity → ylogp1 ⟨extZero sign, 0, false⟩) ∧
        (finiteExt a = true → extClass a ≠ .zero → -1 < extValue a → extClass b = .infinity → ylogp1 ⟨extInf sign, 0, false⟩) ∧
        (finiteExt a = true → extClass a ≠ .zero → |extValue a| < 1 → 1 ≤ 2 * (1 - |extValue a|) ^ 2 → finiteExt b = true →
          ylogp1 (if extClass b = .zero then ⟨extZero sign, 0, false⟩ else transc f .ylog2p1 a b))))) ∧
  (∀ (f : Fpu) (op : Transc) (x y : Ext),
    let v := transcApprox op (extFinite x) (extFinite y)
    let n := transc f op x y
    v.sig ≠ 0 → n.exc.getLsbD 5 = true ∧
      (-16381 ≤ leading v.sig v.exp → leading v.sig v.exp ≤ 16382 →
        n.exc = excP ∧ finiteExt n.val = true ∧ extNeg n.val = v.neg ∧ |extValue n.val - v.value| * 2 ^ 62 < |v.value|))

/-- The control instructions: FNINIT, FLDCW, FNSTCW, FNSTSW to memory and AX, FNCLEX, WAIT, and FENI, FDISI, FSETPM, which
do nothing; WAIT completes with EM = 1 too, and with TS = 1 when MP = 0 (R812; 60_exceptions R855). The no-wait ones do not look at a pending error (49_fpu R801 to R807, R812, R813). That FLDCW keeps every bit of
CW as written is the model's choice (notes/assumptions/49). FNSTCW and FNCLEX keep the codes by R804 and R807, where
30_encoding R301 lists them undefined (notes/assumptions/50). -/
def Obligations.FpuControl : Prop :=
  (∀ (m : Mem) (ps : List BytePlace) (v : Nat) (s s1 : State), s.EscReady →
    let f := s.fpu
    let gives (i : Instr) (t : State) (f : Fpu) (ps : List BytePlace) : Prop := Completes i s ((t.withFpu f).complete false) ps
    gives .fninit s.begin
      { f with empty := 0xFF, cw := 0x037F, st := FpuStatus.ofWord 0, ip := 0, cs := 0, dp := 0, ds := 0, op := 0 } [] ∧
    gives .fnclex s.begin { f with st := FpuStatus.ofWord (f.sw &&& 0x7F00) } [] ∧
    gives .feni s.begin f [] ∧ gives .fdisi s.begin f [] ∧ gives .fsetpm s.begin f [] ∧
    gives (.fnstsw .ax) (s.begin.withReg .w16 regEAX f.sw.toNat).drawn (f.freeAllCodes s.draw) [] ∧
    (locateMem m 2 2 true s.begin = .ok ps s1 →
      s.begin.Reads s1 ∧ gives (.fnstcw m) (s1.wrote ps f.cw.toNat) f ps ∧
      gives (.fnstsw (.mem m)) (s1.wrote ps f.sw.toNat).drawn (f.freeAllCodes (s1.wrote ps f.sw.toNat).draw) ps) ∧
    (s.NoFpuError →
      Completes .wait s (s.begin.complete false) [] ∧
      (loadMem m 0 2 2 s.begin = .ok v s1 →
        s.begin.Reads s1 ∧ gives (.fldcw m) s1.drawn { f.freeAllCodes s1.draw with cw := BitVec.ofNat 16 v } []))) ∧
  (∀ s : State, s.Ready false → s.mp = false ∨ s.ts = false → s.NoFpuError →
    Completes .wait s (s.begin.complete false) [])

/-- FNSTENV, FLDENV, FNSAVE, FRSTOR: the environment is stored in the layout of the mode and operand size, words and pointers,
and FNSTENV then masks all exceptions; FNSAVE stores the registers after it, ST(k) in the ten bytes from 10k on, and
initialises the FPU; a load restores control, status, tags, pointers and data (11_fpu_state R84 to R88; 49_fpu R815 to R821).
The model's choices: CW is loaded as written (notes/assumptions/49); a real-mode image is loaded as offsets with selector 0,
and the upper half of the offsets of a 16-bit protected-mode image as 0 (notes/assumptions/52). -/
def Obligations.FpuEnvironment : Prop := ∀ (m : Mem) (v : Nat) (s s1 : State), s.EscReady →
  let f := s.fpu
  let n := envBytes s.osz
  let al := s.osz.bytes
  let w (k : Nat) : Word := BitVec.ofNat 16 (v / 2 ^ (8 * (k * al)))
  let image := f.image s.pe s.osz s.draw
  (∀ k < 3, image / 2 ^ (8 * (k * al)) % 2 ^ 16 = (match k with | 0 => f.cw | 1 => f.sw | _ => f.tw).toNat) ∧
  PointersStored s.pe s.osz f image ∧
  (∀ k : RegNum, f.stackImage.toNat / 2 ^ (80 * k.toNat) % 2 ^ 80 = (f.reg k).toNat) ∧
  (∀ ps : List BytePlace, locateMem m n al true s.begin.drawn = .ok ps s1 →
    let t := s1.wrote ps image
    s.begin.Reads s1 ∧
    Completes (.fnstenv m) s ((t.drawn.withFpu ({ f with cw := f.cw ||| 0x3F }.freeAllCodes t.draw)).complete false) ps) ∧
  (∀ ps : List BytePlace, locateMem m (n + 80) al true s.begin.drawn = .ok ps s1 →
    s.begin.Reads s1 ∧
    Completes (.fnsave m) s
      (((s1.wrote ps (image + f.stackImage.toNat * 2 ^ (8 * n))).withFpu (Fpu.initialised f.regs)).complete false) ps) ∧
  (s.NoFpuError →
    (loadMem m 0 n al s.begin = .ok v s1 → ∃ h : Fpu, h.regs = f.regs ∧ PointersLoaded s.pe s.osz v f h ∧ h.cw = w 0 ∧ h.st = FpuStatus.ofWord (w 1) ∧
      (∀ k < 8, h.empty.getLsbD k = decide ((w 2).toNat / 4 ^ k % 4 = 3)) ∧
      s.begin.Reads s1 ∧ Completes (.fldenv m) s ((s1.withFpu h).complete false) []) ∧
    (loadMem m 0 (n + 80) al s.begin = .ok v s1 → ∃ h : Fpu, PointersLoaded s.pe s.osz v f h ∧ h.cw = w 0 ∧ h.st = FpuStatus.ofWord (w 1) ∧
      (∀ k < 8, h.empty.getLsbD k = decide ((w 2).toNat / 4 ^ k % 4 = 3)) ∧
      (∀ k : RegNum, h.reg k = BitVec.ofNat 80 (v / 2 ^ (8 * n + 80 * k.toNat))) ∧
      s.begin.Reads s1 ∧ Completes (.frstor m) s ((s1.withFpu h).complete false) []))

/-- What turns an ESC instruction away: EM or TS raises #NM; LOCK raises #UD; a pending unmasked error raises #MF, vector
16, with NE = 1, and freezes the processor with NE = 0 unless IGNNE# is active. Undefined ESC encodings raise #UD, WAIT
#NM only with MP and TS (60_exceptions R855, R880; 45_fpu_numerics R675). -/
def Obligations.FpuFaults : Prop := ∀ (i : Instr) (s : State), (s.pe && s.flags.vm) = false →
  (isEsc i = true →
    (s.em = true ∨ s.ts = true → Raises i s s.begin 7 none) ∧
    (s.em = false → s.ts = false → s.dec.lock = true → Raises i s s.begin 6 none) ∧
    (s.EscReady → noWait i = false → s.fpu.es = true →
      (s.ne = true → Raises i s s.begin 16 none) ∧
      (s.ne = false → s.pins.ignne = false → exec i s = .next { s.abandon with run := .fpWait }))) ∧
  (∀ f : EscForm, s.EscReady → Raises (.undefinedEsc f) s s.begin 6 none) ∧
  (s.dec.lock = false →
    (s.mp = true → s.ts = true → Raises .wait s s.begin 7 none) ∧
    (s.mp = false ∨ s.ts = false → s.fpu.es = true →
      (s.ne = true → Raises .wait s s.begin 16 none) ∧
      (s.ne = false → s.pins.ignne = false → exec .wait s = .next { s.abandon with run := .fpWait })))

/-- Rounding (11_fpu_state R68) of a magnitude t to a multiple v of a unit: inexact exactly when v differs from t, `up`
exactly when it is greater, less than a unit away; to nearest with ties to even, down, up, or chopped, by RC. A register
result (45_fpu R604, R650, R651, R655): in range the rounded value, with PE when something was lost; beyond it, O masked gives
the infinity or the largest number by RC; below it, U masked gives the value rounded at the denormal unit, with U and P only
when something was lost. Unmasked, O and U give the rounded value divided or multiplied by 2^24576, or, where that does not
suffice, the infinity or the zero. That tininess is judged on the rounded value, the denormal unit that of the precision in
force, and P met with an unmasked O or U only when something was lost, is the model's choice (notes/assumptions/37); so is the
zero, with U and P and C1 = 0, where the multiplied value is a denormal (notes/assumptions/84), and C1 = 1 with an infinity
that an unmasked O gives (notes/assumptions/38). -/
def Obligations.FpuRoundingAndRange : Prop :=
  (∀ (rc : BitVec 2) (x : Finite) (unit : Int),
    let r := roundAt rc x unit
    let ulp : ℚ := (2 : ℚ) ^ unit
    let t : ℚ := x.sig * (2 : ℚ) ^ x.exp
    let v : ℚ := r.q * ulp
    (r.inexact = true ↔ v ≠ t) ∧ (r.up = true ↔ t < v) ∧ |v - t| < ulp ∧
    (rc = 0 → 2 * |v - t| ≤ ulp ∧ (2 * |v - t| = ulp → r.q % 2 = 0)) ∧
    (rc = 1 → if x.neg then t ≤ v else v ≤ t) ∧ (rc = 2 → if x.neg then v ≤ t else t ≤ v) ∧ (rc = 3 → v ≤ t)) ∧
  (∀ (f : Fpu) (p : Nat) (x : Finite), p = 24 ∨ p = 53 ∨ p = 64 → x.sig ≠ 0 →
    let unit := unitFor p x
    let r := roundAt f.rc x unit
    let n := roundReg f p x
    let sign : ℚ := if x.neg then -1 else 1
    let least : Int := -16381 - p
    let d := roundAt f.rc x least
    (-16382 ≤ leading r.q unit → leading r.q unit ≤ 16383 →
      finiteExt n.val = true ∧ extValue n.val = sign * r.q * (2 : ℚ) ^ unit ∧ n.up = r.up ∧ n.exc = if r.inexact then excP else 0) ∧
    (16383 < leading r.q unit → f.masks.getLsbD 3 = true → n.exc = excO ||| excP ∧
      (f.rc = 0 ∨ (f.rc = 1 ∧ x.neg = true) ∨ (f.rc = 2 ∧ x.neg = false) → n.val = extInf x.neg) ∧
      (f.rc = 3 ∨ (f.rc = 1 ∧ x.neg = false) ∨ (f.rc = 2 ∧ x.neg = true) →
        finiteExt n.val = true ∧ extValue n.val = sign * (2 ^ p - 1) * (2 : ℚ) ^ (16384 - p : Int))) ∧
    (leading r.q unit < -16382 → f.masks.getLsbD 4 = true →
      finiteExt n.val = true ∧ extValue n.val = sign * d.q * (2 : ℚ) ^ least ∧ n.up = d.up ∧
      n.exc = if d.inexact then excU ||| excP else 0) ∧
    (16383 < leading r.q unit → f.masks.getLsbD 3 = false →
      (leading r.q unit ≤ 16383 + 24576 → finiteExt n.val = true ∧ extValue n.val = sign * r.q * (2 : ℚ) ^ (unit - 24576) ∧
        n.up = r.up ∧ n.exc = (excO ||| if r.inexact then excP else 0)) ∧
      (16383 + 24576 < leading r.q unit → n = ⟨extInf x.neg, excO ||| excP, true⟩)) ∧
    (leading r.q unit < -16382 → f.masks.getLsbD 4 = false →
      (-16382 - 24576 ≤ leading r.q unit → finiteExt n.val = true ∧ extValue n.val = sign * r.q * (2 : ℚ) ^ (unit + 24576) ∧
        n.up = r.up ∧ n.exc = (excU ||| if r.inexact then excP else 0)) ∧
      (leading r.q unit < -16382 - 24576 → n = ⟨extZero x.neg, excU ||| excP, false⟩)))

/-- What the basic operations round is exact (47_fpu R723 to R728, R735): sum, difference and product are the true ones, with
the sign of a zero sum by RC; quotient and square root are known to 66 bits with a last bit that tells whether they are exact. -/
def Obligations.FpuExactOperations : Prop := ∀ (x y : Finite) (neg : Bool),
  (x.add y neg).value = x.value + y.value ∧
  ((x.value + y.value ≠ 0 ∨ (x.add y neg).neg = neg) ∧ ((x.add y neg).neg = true → x.value + y.value ≤ 0) ∧
    ((x.add y neg).neg = false → 0 ≤ x.value + y.value)) ∧
  (∀ (f : Fpu) (p : Nat) (a b : Ext), finiteExt a = true → finiteExt b = true →
    ∃ z : Finite, z.value = extValue a * extValue b ∧ z.neg = (extNeg a ^^ extNeg b) ∧ mulCompute f p a b = roundReg f p z) ∧
  (∀ (f : Fpu) (p : Nat) (sub : Bool) (a b : Ext), finiteExt a = true → finiteExt b = true →
    ∃ z : Finite, z.value = extValue a + (if sub then -1 else 1) * extValue b ∧
      (z.value = 0 → z.neg =
        if extValue a = 0 ∧ extValue b = 0 ∧ extNeg a = (extNeg b ^^ sub) then extNeg a else decide (f.rc = 1)) ∧
      addCompute f p sub a b = roundReg f p z) ∧
  (∀ (f : Fpu) (p : Nat) (a b : Ext), finiteExt a = true → finiteExt b = true → extValue b ≠ 0 →
    divCompute f p a b =
      if extValue a = 0 then Num.exact (extZero (extNeg a ^^ extNeg b)) else roundReg f p ((extFinite a).div (extFinite b))) ∧
  (∀ (f : Fpu) (p : Nat) (a : Ext), finiteExt a = true → extNeg a = false ∨ extValue a = 0 →
    sqrtCompute f p a = if extValue a = 0 then Num.exact a else roundReg f p (extFinite a).sqrt) ∧
  (0 < x.sig → x.sig < 2 ^ 64 → 0 < y.sig → y.sig < 2 ^ 64 →
    let z := x.div y
    z.neg = (x.neg ^^ y.neg) ∧ 2 ^ 66 ≤ z.sig ∧
    (z.sig % 2 = 0 → z.value = x.value / y.value) ∧
    (z.sig % 2 = 1 → (z.sig - 1 : ℚ) * (2 : ℚ) ^ z.exp < |x.value / y.value| ∧
      |x.value / y.value| < (z.sig + 1 : ℚ) * (2 : ℚ) ^ z.exp)) ∧
  (0 < x.sig → x.sig < 2 ^ 64 →
    let z := x.sqrt
    z.neg = false ∧ 2 ^ 66 ≤ z.sig ∧
    (z.sig % 2 = 0 → z.value ^ 2 = |x.value|) ∧
    (z.sig % 2 = 1 → ((z.sig - 1 : ℚ) * (2 : ℚ) ^ z.exp) ^ 2 < |x.value| ∧ |x.value| < ((z.sig + 1 : ℚ) * (2 : ℚ) ^ z.exp) ^ 2))

/-- The memory formats (11_fpu_state R76 to R78): integers, packed decimals and single and double reals convert to the
extended number of the same value, and a finite number is stored as the integer it rounds to when that fits. A single or
double real stored and read back is the rounded value; beyond the format O gives the infinity or the largest number by RC,
below it U the value rounded at the denormal unit; zeros, infinities and NaNs keep their sign and payload; a packed decimal
holds the digits of the integer; what is no number or does not fit gives the indefinite and I (46_fpu R685, R686, R690;
45_fpu_numerics R620, R630, R634, R650, R651, R655). The model's choices: that storing a denormal reports D, its reading of
R603 and R645 (notes/assumptions/39); that the tininess of a stored single or double real is judged on the rounded value,
rounded at the denormal unit of the format, and that P is met with an unmasked O or U only when something was lost
(notes/assumptions/37). -/
def Obligations.FpuMemoryFormats : Prop :=
  ((∀ i : Int, i.natAbs < 2 ^ 64 → finiteExt (ofInt i) = true ∧ extValue (ofInt i) = i) ∧
    (∀ (k v : Nat), bcdValue 18 v = some k →
      k < 10 ^ 18 ∧ bcdDigits 18 k = v % 2 ^ 72 ∧ extValue (extEncode (v.testBit 79) k 0) = (if v.testBit 79 then -1 else 1) * (k : ℚ)) ∧
    (∀ (k : RealFormat) (v : Nat), k = single ∨ k = double →
      let frac := v % 2 ^ k.fracBits
      let e := v / 2 ^ k.fracBits % 2 ^ k.expBits
      let sign : ℚ := if v.testBit (k.expBits + k.fracBits) then -1 else 1
      let x := (ofReal k v).val
      (0 < e → e < 2 ^ k.expBits - 1 → finiteExt x = true ∧ (ofReal k v).den = false ∧
        extValue x = sign * (2 ^ k.fracBits + frac) * (2 : ℚ) ^ ((e : Int) - k.bias - k.fracBits)) ∧
      (e = 0 → finiteExt x = true ∧ (ofReal k v).den = decide (frac ≠ 0) ∧
        extValue x = sign * frac * (2 : ℚ) ^ (1 - (k.bias : Int) - k.fracBits)) ∧
      (e = 2 ^ k.expBits - 1 → extClass x =
        if frac = 0 then .infinity else if frac < 2 ^ (k.fracBits - 1) then .snan else .qnan)) ∧
    (∀ (n : Nat) (f : Fpu) (x : Ext), n = 16 ∨ n = 32 ∨ n = 64 → finiteExt x = true →
      let r := roundAt f.rc (extFinite x) 0
      let i : Int := if extNeg x then -(r.q : Int) else r.q
      let out := toInteger n f x
      (-(2 ^ (n - 1)) ≤ i ∧ i < 2 ^ (n - 1) →
        toSigned n out.bits = i ∧
          out.exc = ((if r.inexact then excP else 0) ||| if (extClass x).isDenormal then excD else 0) ∧ out.up = r.up) ∧
      (¬ (-(2 ^ (n - 1)) ≤ i ∧ i < 2 ^ (n - 1)) → out.bits = 2 ^ (n - 1) ∧ out.exc = excI))) ∧
  (∀ (f : Fpu) (x : Ext),
    let neg := extNeg x
    let sign : ℚ := if neg then -1 else 1
    let y := extFinite x
    let den : Exns := if (extClass x).isDenormal then excD else 0
    (∀ k : RealFormat, k = single ∨ k = double →
      let p := k.fracBits + 1
      let out := toReal k f x
      let back := ofReal k out.bits
      let unit := unitFor p y
      let r := roundAt f.rc y unit
      let least : Int := 1 - (k.bias : Int) - k.fracBits
      let d := roundAt f.rc y least
      let toInf : Prop := f.rc = 0 ∨ (f.rc = 1 ∧ neg = true) ∨ (f.rc = 2 ∧ neg = false)
      let beyond : Prop := (k.bias : Int) < leading r.q unit
      let tiny : Prop := leading r.q unit < 1 - (k.bias : Int)
      out.bits < 2 ^ (k.expBits + k.fracBits + 1) ∧
      (finiteExt x = true → extValue x ≠ 0 →
        (¬ beyond → ¬ tiny → finiteExt back.val = true ∧ back.den = false ∧ extValue back.val = sign * r.q * (2 : ℚ) ^ unit ∧
          out.up = r.up ∧ out.exc = ((if r.inexact then excP else 0) ||| den)) ∧
        (beyond → f.masks.getLsbD 3 = true → out.exc = (excO ||| excP ||| den) ∧
          (toInf → back.val = extInf neg) ∧
          (¬ toInf → finiteExt back.val = true ∧ extValue back.val = sign * (2 ^ p - 1) * (2 : ℚ) ^ ((k.bias : Int) - k.fracBits))) ∧
        (tiny → f.masks.getLsbD 4 = true → finiteExt back.val = true ∧ extValue back.val = sign * d.q * (2 : ℚ) ^ least ∧
          out.up = d.up ∧ out.exc = ((if d.inexact then excU ||| excP else 0) ||| den)) ∧
        (beyond → f.masks.getLsbD 3 = false → out.exc = (excO ||| (if r.inexact then excP else 0) ||| den)) ∧
        (tiny → f.masks.getLsbD 4 = false → out.exc = (excU ||| (if r.inexact then excP else 0) ||| den))) ∧
      (extClass x = .zero → back = ⟨extZero neg, false⟩ ∧ out.exc = 0) ∧
      (extClass x = .infinity → back.val = extInf neg ∧ out.exc = 0) ∧
      ((extClass x).isNan = true → extClass back.val = .qnan ∧ extNeg back.val = neg ∧
        out.bits % 2 ^ k.fracBits = extSig (quiet x) % 2 ^ 63 / 2 ^ (63 - k.fracBits) ∧
        out.exc = if extClass x = .snan then excI else 0) ∧
      ((extClass x).unsupported = true → back.val = indefinite ∧ out.exc = excI)) ∧
    (finiteExt x = true →
      let r := roundAt f.rc y 0
      let out := toPacked f x
      (r.q < 10 ^ 18 → bcdValue 18 out.bits = some r.q ∧ out.bits / 2 ^ 72 = (if neg then 128 else 0) ∧
        out.up = r.up ∧ out.exc = ((if r.inexact then excP else 0) ||| den)) ∧
      (10 ^ 18 ≤ r.q → out.bits = 0xFFFFC000000000000000 ∧ out.exc = excI)) ∧
    (finiteExt x = false →
      ((toPacked f x).bits = 0xFFFFC000000000000000 ∧ (toPacked f x).exc = excI) ∧
      ∀ n : Nat, n = 16 ∨ n = 32 ∨ n = 64 → (toInteger n f x).bits = 2 ^ (n - 1) ∧ (toInteger n f x).exc = excI))

/-! ### Memory -/

/-- Segmented access to plain memory, 1 to 8 bytes: inside the limit a load gives the bytes at the linear address and
changes nothing; a store changes those bytes only and is what a load then gives. Beyond the limit #SS(0) through SS, else
#GP(0); a misaligned access at privilege level 3 with AM and AC raises #AC (20_memory R100, R104, R106, R135, R137); that
an expand-down limit is checked in real mode too is the model's choice (notes/assumptions/29). Paging (R145 to R149): the
two-level walk, the fault with its error code and CR2, the Accessed and Dirty bits, the TLB's new entry and the use of one that
the tables agree with; a page not present is found before a protection violation, the model's choice (notes/assumptions/65).
The cache over RAM (21_bus R241 to R243, R247): a hit reads the line, a miss reads memory and fills a line if it may; a write
goes through and updates a hit line, with NW = 1 the line only; a read then gives what was written. -/
def Obligations.PlainMemoryAccess : Prop :=
  (∀ (sr : SegName) (off n v : Nat) (s : State), s.Plain → 0 < n → n ≤ 8 →
    let h := (s.segs.get sr).hid
    let lin := (h.base.toNat + off) % 2 ^ 32
    let aligned : Prop := lin % n = 0 ∨ (s.am && s.flags.ac && s.cpl == 3) = false
    let usable (write : Bool) : Prop := s.pe = false ∨ (h.valid = true ∧ (if write then h.writable else h.readable) = true)
    let inside := if h.expandDown then h.limit.toNat < off ∧ off + n ≤ (if h.db then 2 ^ 32 else 2 ^ 16) else off + n ≤ h.limit.toNat + 1
    let code : Byte := if sr = .ss then 12 else 13
    (∀ w : Bool, usable w → inside → aligned →
      ∃ ps : List BytePlace, ps.map (fun p => s.a20 p.1) = (List.range n).map (fun k => s.a20 (lin + k)) ∧
        locate sr off n n w s = .ok ps s ∧
        (w = false → load sr off n n s = .ok (memBytes s ps) s) ∧
        (w = true → store sr off n n v s = .ok () (s.wrote ps v) ∧ memBytes (s.wrote ps v) ps = v % 2 ^ (8 * n) ∧
          (∀ a, (∀ p ∈ ps, s.a20 p.1 ≠ a) → memRead (s.wrote ps v).mem a = memRead s.mem a) ∧
          Memory.wf (s.wrote ps v).mem = true)) ∧
    (∀ w : Bool, usable w → ¬ inside → locate sr off n n w s = .error (.exn { vector := code, code := some 0, cls := .fault }) s) ∧
    (∀ w : Bool, ¬ usable w → locate sr off n n w s = .error (.exn { vector := 13, code := some 0, cls := .fault }) s) ∧
    (∀ w : Bool, usable w → inside → ¬ aligned →
      locate sr off n n w s = .error (.exn { vector := 17, code := some 0, cls := .fault }) s)) ∧
  (∀ (lin : Nat) (write user : Bool) (s : State), lin < 2 ^ 32 →
    let fails (prot : Bool) : Prop := translate lin write user s =
      .error (.exn { vector := 14, code := some (faultCode prot write user), cls := .fault }) { s with cr2 := BitVec.ofNat 32 lin }
    let forbids (userPage writable : Bool) : Prop :=
      (user = true ∧ userPage = false) ∨ (write = true ∧ writable = false ∧ (user = true ∨ s.wp = true))
    (s.pg = false → translate lin write user s = .ok (lin, s.cr3Attr) s) ∧
    (∀ (e : TlbEntry), s.pg = true → s.tlb.find (lin / 4096) = some e → (write = true → e.dirty = true) → s.agrees e = true →
      (forbids e.user e.writable → fails true) ∧
      (¬ forbids e.user e.writable →
        translate lin write user s = .ok (e.frame.toNat * 4096 + lin % 4096, ⟨e.pcd, e.pwt⟩) { s with tlb := s.tlb.touch e })) ∧
    (s.pg = true → s.Uncached →
      s.tlb.find (lin / 4096) = none ∨ (∃ e, s.tlb.find (lin / 4096) = some e ∧ write = true ∧ e.dirty = false) →
      let pdeA := s.directoryEntry lin
      let pde := s.entryAt pdeA
      let pteA := s.pageEntry lin
      let pte := s.entryAt pteA
      let userPage := pde.testBit 2 && pte.testBit 2
      let writable := pde.testBit 1 && pte.testBit 1
      (pde.testBit 0 = false ∨ pte.testBit 0 = false → fails false) ∧
      (pde.testBit 0 = true → pte.testBit 0 = true → forbids userPage writable → fails true) ∧
      (pde.testBit 0 = true → pte.testBit 0 = true → ¬ forbids userPage writable → ∃ t : State,
        translate lin write user s = .ok (pte / 4096 * 4096 + lin % 4096, ⟨pte.testBit 4, pte.testBit 3⟩) t ∧
        t = { s with mem := t.mem, tlb := t.tlb } ∧
        t.entryAt pteA = (pte ||| if write then 0x60 else 0x20) ∧
        (s.a20 pdeA ≠ s.a20 pteA → t.entryAt pdeA = (pde ||| 0x20)) ∧
        (∀ b, (∀ k < 4, b ≠ s.a20 (pdeA + k) ∧ b ≠ s.a20 (pteA + k)) → memRead t.mem b = memRead s.mem b) ∧
        ∃ e : TlbEntry, t.tlb.find (lin / 4096) = some e ∧ e.frame.toNat = pte / 4096 ∧ e.user = userPage ∧
          e.writable = writable ∧ e.dirty = (write || pte.testBit 6) ∧ e.pcd = pte.testBit 4 ∧ e.pwt = pte.testBit 3)) ∧
    (∀ n : Nat, 0 < n → lin % 4096 + n ≤ 4096 →
      (∀ (pa : Nat) (at_ : Attr) (t : State), translate lin write user s = .ok (pa, at_) t →
        linLocate lin n write user s = .ok (places pa at_ n) t) ∧
      (∀ (e : Stop) (t : State), translate lin write user s = .error e t → linLocate lin n write user s = .error e t))) ∧
  (∀ (pa n v : Nat) (attr : Attr) (s : State), s.regions = [] → Memory.wf s.mem = true →
    0 < n → pa % 4 + n ≤ 4 →
    let a := s.a20 pa
    let byte (l : CacheLine) (k : Nat) : Byte := l.data.extractLsb' (8 * k) 8
    let value (l : CacheLine) : Nat := l.data.toNat / 2 ^ (8 * (a % 16)) % 2 ^ (8 * n)
    let t := s.wrote (places pa attr n) v
    let updated (l m : CacheLine) : Prop := t.cache.find a = some m ∧ value m = v % 2 ^ (8 * n) ∧
      ∀ k < 16, k < a % 16 ∨ a % 16 + n ≤ k → byte m k = byte l k
    (∀ l : CacheLine, s.cache.find a = some l →
      physRead false attr pa n s = .ok (value l) { s with cache := { s.cache with lru := lruTouch s.cache.lru l.set.toNat l.way.toNat } } ∧
      ∃ m : CacheLine, updated l m ∧ t = { s with cache := t.cache, mem := t.mem } ∧
        (s.nw = true → t.mem = s.mem) ∧
        (s.nw = false → memBytes t (places pa attr n) = v % 2 ^ (8 * n))) ∧
    (s.cache.find a = none →
      t = { s with mem := t.mem } ∧ memBytes t (places pa attr n) = v % 2 ^ (8 * n) ∧
      ∃ u : State, physRead false attr pa n s = .ok (memBytes s (places pa attr n)) u ∧ u = { s with cache := u.cache } ∧
        (s.cd = true ∨ attr.pcd = true → u = s) ∧
        (s.cd = false → attr.pcd = false → ∃ l : CacheLine, u.cache.find a = some l ∧
          ∀ k < 16, byte l k = memRead s.mem (a / 16 * 16 + k))) ∧
    (s.nw = false → ∃ u : State, physRead false attr pa n t = .ok (v % 2 ^ (8 * n)) u))

/-! ### Exceptions and interrupts -/

/-- The entry in real mode, and what leads to it: INT n, INT 3, INTO when OF is set (nothing when it is not), an undefined
encoding (vector 6), and every exception (43_integer R501, R502; 44_integer R595; 60_exceptions R848, R852, R871). -/
def Obligations.RealModeEntry : Prop := ∀ (s t : State) (ps : List BytePlace),
  (s.Ready false →
    (∀ v : Byte, (s.begin.softEvent v).EntersReal s.begin t ps → Completes (.intIb v) s (t.transferred.complete false) ps) ∧
    ((s.begin.softEvent 3).EntersReal s.begin t ps → Completes .int3 s (t.transferred.complete false) ps) ∧
    (s.flags.ovf = true → (s.begin.softEvent 4).EntersReal s.begin t ps → Completes .into s (t.transferred.complete false) ps) ∧
    (s.flags.ovf = false → Completes .into s (s.begin.complete false) []) ∧
    ∀ f : UndefForm, (s.abandon.faultEvent 6 none).EntersReal s.abandon t ps → Completes (.undefined f) s t ps) ∧
  (s.EscReady → ∀ f : EscForm, (s.abandon.faultEvent 6 none).EntersReal s.abandon t ps → Completes (.undefinedEsc f) s t ps) ∧
  (∀ e : Exn, (s.faultEvent e.vector e.code).EntersReal s t ps → deliverExn e s = .next t ∧ s.KeepsMemory t ps) ∧
  (∀ ev : Event, s.pe = false → s.idtr.limit.toNat < 4 * ev.vector.toNat + 3 →
    enterHandler ev s = .error (.exn { vector := 13, code := some 0, cls := .fault }) s)

/-- The entry in protected mode through an interrupt or trap gate: at the same privilege level EFLAGS, CS, EIP and an error
code are pushed on the current stack; to an inner level on the stack of the TSS, below the old SS and ESP. The gate is read
locked (21_bus R232); of the error code of #PF bits 31..16 are 0 (R858). CS:EIP come from the gate, TF, NT, VM and RF are
cleared, and IF by an interrupt gate. Outside the IDT, with no gate, with a gate that software may not use, or with one not
present, the event raises its exception instead. INT n, INT 3, and INTO when OF is set, enter so as software interrupts, and
every exception does (60_exceptions R872, R873; 43_integer R501, R502). That the frame's items are checked for the alignment
of their size, that CS and SS are marked accessed and that paging checks the pushes on an inner stack with the new CPL are the
model's choices (notes/assumptions/13). -/
def Obligations.ProtectedModeEntry : Prop := ∀ (ev : Event) (s : State),
  (∀ (g d : Desc) (a : Nat) (u : State), ev.HasGate s g d a u →
    let z := g.gateSize
    let frame (v w : Word) : List Nat :=
      [(ev.image s.flags).toNat % 2 ^ z.bits, withUpper z v ev.cs, ev.ip.toNat % 2 ^ z.bits] ++ ev.codeItem z w
    (d.hidden.conforming = true ∨ d.dpl = s.cpl → ∃ (v w : Word) (c : Nat), ∀ (pss : List (List BytePlace)) (t : State),
      ev.EntersFrame g d a s.flags none (frame v w) { u with freeCtr := c } t pss → enterHandler ev s = .ok () t) ∧
    (d.hidden.conforming = false → d.dpl < s.cpl → ∀ (ss : Word) (esp : Nat) (h : Hidden) (ssSpot : Spot) (u1 u2 : State),
      innerStack d.dpl.toNat u = .ok (ss, esp) u1 →
      checkSS ss d.dpl (raiseTS (selCode ss)) (raiseTS (selCode ss)) u1 = .ok (h, ssSpot) u2 →
      ∃ (o v w : Word) (c : Nat), ∀ (pss : List (List BytePlace)) (t : State),
        ev.EntersFrame g d a s.flags ssSpot (withUpper z o s.segs.ss.sel :: s.regs.esp.toNat % 2 ^ z.bits :: frame v w)
          { u2 with
            cpl := d.dpl
            segs := s.segs.set .ss { sel := ss, hid := h }
            regs := { s.regs with esp := BitVec.ofNat 32 esp }
            freeCtr := c } t pss →
        enterHandler ev s = .ok () t)) ∧
  (let stop (v : Byte) (t : State) : Prop := enterHandler ev s =
      .error (.exn { vector := v, code := some (BitVec.ofNat 16 (8 * ev.vector.toNat + 2)), cls := .fault }) t
   s.pe = true →
    (s.idtr.limit.toNat < 8 * ev.vector.toNat + 7 → stop 13 s) ∧
    (8 * ev.vector.toNat + 7 ≤ s.idtr.limit.toNat → ∀ (g : Desc) (u : State),
      readGate (s.idtr.base.toNat + 8 * ev.vector.toNat) s = .ok g u →
      (g.s = true ∨ g.type.toNat ∉ [5, 6, 7, 14, 15] → stop 13 u) ∧
      (g.s = false → g.type.toNat ∈ [5, 6, 7, 14, 15] →
        (ev.kind = .software → g.dpl < s.cpl → stop 13 u) ∧
        (ev.kind ≠ .software ∨ s.cpl ≤ g.dpl → g.present = false → stop 11 u)))) ∧
  (∀ t : State, s.Ready false →
    let enters (v : Byte) : Prop := enterHandler (s.begin.softEvent v) s.begin = .ok () t
    (∀ v : Byte, enters v → exec (.intIb v) s = .next (t.transferred.complete false)) ∧
    (enters 3 → exec .int3 s = .next (t.transferred.complete false)) ∧
    (s.flags.ovf = true → enters 4 → exec .into s = .next (t.transferred.complete false)) ∧
    (s.flags.ovf = false → Completes .into s (s.begin.complete false) [])) ∧
  (∀ (e : Exn) (t : State), enterHandler (s.faultEvent e.vector e.code) s = .ok () t → deliverExn e s = .next t)

/-- A fault met while an event is delivered: while a double fault is, shutdown; after a contributory exception a
contributory one, or after a page fault a contributory one or a page fault, a double fault with error code 0; else it is
delivered instead, with EXT in its error code (60_exceptions R853, R869, R874). No delivery and no step faults; a delivery that
raises exceptions without end leaves the processor stuck, the model's choice (notes/assumptions/62). -/
def Obligations.NestedDelivery : Prop :=
  (∀ (k : Nat) (ev : Event) (e : Exn) (s s' : State), enterHandler ev s = .error (.exn e) s' →
    let t := rollback s s'
    let contrib (v : Byte) : Prop := v = 0 ∨ v = 10 ∨ v = 11 ∨ v = 12 ∨ v = 13
    let escalates : Prop := ev.kind = .exception ∧
      ((contrib ev.vector ∧ contrib e.vector) ∨ (ev.vector = 14 ∧ (e.vector = 14 ∨ contrib e.vector)))
    (ev.kind = .exception → ev.vector = 8 → deliver (k + 1) ev s = .next t.shutdown) ∧
    (escalates → ∃ (cs : Word) (ip : DWord), deliver (k + 1) ev s =
      deliver k { kind := .exception, vector := 8, code := some 0, cs := cs, ip := ip, rf := t.flags.rf }
        { t with freeCtr := t.freeCtr + 1 }) ∧
    (¬ escalates → ¬ (ev.kind = .exception ∧ ev.vector = 8) → deliver (k + 1) ev s =
      deliver k { kind := .exception, vector := e.vector, cs := ev.cs, ip := ev.ip, rf := true
                  code := if contrib e.vector ∧ e.vector ≠ 0 then e.code.map (· ||| 1) else e.code } t)) ∧
  (∀ (ev : Event) (s : State) (r : Fault), deliver deliverFuel ev s ≠ .fault r) ∧
  (∀ (ev : Event) (s : State), deliver 0 ev s = .next { s with run := .stuck }) ∧
  (∀ (s : State) (r : Fault), step s ≠ .fault r)

/-- IRET: EIP, CS and the flags are popped; CPL and IOPL decide on IF and IOPL, the operand size on RF and AC, VM never
changes; NMI may be accepted again. In real mode, where items beyond FFFFH raise interrupt 13, and in protected mode to the
same privilege level or to an outer one, where SS and ESP are popped too and the data segments of inner levels dropped. A
nested task and a return to virtual-8086 mode are refused (43_integer R500, R503; 60_exceptions R847, R875; 92_eei_decisions
D2). That real-mode IRET does not hold the offset against the CS limit is the model's choice (notes/assumptions/80). -/
def Obligations.InterruptReturn : Prop := ∀ (s : State), s.Ready false →
  let z := s.osz
  let flags (cpl : BitVec 2) (v : DWord) : Flags :=
    { cf := v.getLsbD 0, pf := v.getLsbD 2, af := v.getLsbD 4, zf := v.getLsbD 6, sf := v.getLsbD 7, tf := v.getLsbD 8
      intf := if cpl ≤ s.flags.iopl then v.getLsbD 9 else s.flags.intf
      df := v.getLsbD 10, ovf := v.getLsbD 11
      iopl := if cpl = 0 then v.extractLsb' 12 2 else s.flags.iopl
      nt := v.getLsbD 14
      rf := if z = .s32 then v.getLsbD 16 else s.flags.rf
      vm := s.flags.vm
      ac := if z = .s32 then v.getLsbD 18 else s.flags.ac }
  (s.pe = true → s.flags.nt = true → exec .iret s = .refused .nestedTaskReturn) ∧
  (s.pe = false → 2 ^ 16 < s.sp + 3 * z.bytes → Raises .iret s s.begin 13 (some 0)) ∧
  (∀ (off sel f : Nat) (s1 : State), popMany z.bytes 3 s.begin = .ok [off, sel, f] s1 →
    let go (t : State) (cs : SegReg) (fl : Flags) : State :=
      { (t.withSeg .cs cs).withEip (off % 2 ^ 32) with flags := fl, latch := { t.latch with nmiInService := false } }.complete true
    let v := BitVec.ofNat 32 f
    (s.pe = false → s.sp + 3 * z.bytes ≤ 2 ^ 16 →
      exec .iret s = .next (go s1
        { sel := BitVec.ofNat 16 sel, hid := { s.segs.cs.hid with base := (BitVec.ofNat 16 sel).setWidth 32 <<< 4, valid := true } }
        (flags 0 v))) ∧
    (s.pe = true → s.flags.nt = false →
      (z = .s32 → v.getLsbD 17 = true → s.cpl = 0 → exec .iret s = .refused .virtual8086) ∧
      (∀ (a : Nat) (d : Desc) (h : Hidden) (s2 s3 : State), (z = .s16 ∨ v.getLsbD 17 = false ∨ s.cpl ≠ 0) →
        returnTarget (BitVec.ofNat 16 sel) (BitVec.ofNat 32 off) s1 = .ok (a, d) s2 →
        (BitVec.ofNat 16 sel).extractLsb' 0 2 = s.cpl → accessed a d s2 = .ok h s3 →
        exec .iret s = .next (go s3 { sel := BitVec.ofNat 16 sel, hid := h } (flags s.cpl v))) ∧
      (∀ (a : Nat) (d : Desc) (s2 t : State), (z = .s16 ∨ v.getLsbD 17 = false ∨ s.cpl ≠ 0) →
        returnTarget (BitVec.ofNat 16 sel) (BitVec.ofNat 32 off) s1 = .ok (a, d) s2 →
        (BitVec.ofNat 16 sel).extractLsb' 0 2 ≠ s.cpl →
        s2.ReturnsOuter z.bytes 0 (BitVec.ofNat 16 sel) (BitVec.ofNat 32 off) a d t →
        exec .iret s = .next ({ t with flags := flags s.cpl v, latch := { t.latch with nmiInService := false } }.complete true))))

/-- The events of an instruction boundary in their order: a debug trap, NMI, INTR, an instruction breakpoint, then the
instruction; halted, shut down or frozen without an event, nothing changes but what the pins did. INTR, NMI and debug traps
wait while a shadow holds, INTR while IF is 0, NMI and INTR until the first instruction after RESET; INTR is acknowledged by
two bus cycles, of which the second gives the vector; NMI ends a shutdown, with the saved CS:EIP open (60_exceptions R863 to
R869; 10_state R94, R97; 21_bus R193). The model's choices: a repeated string instruction keeps the shadow it began in until
its last iteration, and an instruction that faults ends it (notes/assumptions/27); a debug trap ends HLT
(notes/assumptions/20); the stuck run state, which R97 does not list and in which no event is taken (notes/assumptions/62); an
NMI edge before the first instruction after RESET is kept (notes/assumptions/31); the processor's implicit accesses, such as
the reads of page tables, match no data breakpoint (notes/assumptions/66). An instruction breakpoint matches the linear
address of CS:EIP unless RF is 1; a data breakpoint, with defined codes of R/W and LEN, each access of an operand or the stack
that touches its bytes, which go on at address 0 after FFFFFFFFH; the single-step latch is set when TF was 1 before an
instruction that completes (60_exceptions R846; 10_state R37, R50; 20_memory R104). -/
def Obligations.BoundaryEvents : Prop :=
  (∀ s : State, s.nextPins.pins.reset = false →
    let t := s.nextPins.sample
    let debug : Prop := (t.latch.dataBreak ≠ 0 ∨ t.latch.singleStep = true) ∧ t.latch.shadow ≠ .held ∧ (t.run = .running ∨ t.run = .halted)
    let nmi : Prop := t.latch.nmiPending = true ∧ t.latch.nmiInService = false ∧ t.latch.shadow = .none ∧ t.run ≠ .stuck
    let intr : Prop := t.pins.intr = true ∧ t.flags.intf = true ∧ t.latch.shadow = .none ∧ t.run ≠ .shutdown ∧ t.run ≠ .stuck
    let woken : State :=
      { t with run := .running, dec := Dec.start, prefetch := Prefetch.empty, latch := { t.latch with shadow := .none, repActive := false } }
    let rf : Bool := t.flags.rf || t.latch.repActive
    (debug → step s = deliver deliverFuel { t.faultEvent 1 none with rf := t.flags.rf }
      { woken with
        dbg := { t.dbg with dr6 := t.dbg.dr6 ||| t.latch.dataBreak.setWidth 32 ||| (if t.latch.singleStep then 0x4000 else 0) }
        latch := { woken.latch with dataBreak := 0, singleStep := false } }) ∧
    (¬ debug → nmi → t.run ≠ .shutdown → step s = deliver deliverFuel { t.softEvent 2 with kind := .nmi, rf := rf }
      { woken with latch := { woken.latch with nmiPending := false } }) ∧
    (nmi → t.run = .shutdown → ∃ (cs : Word) (ip : DWord),
      step s = deliver deliverFuel { kind := .nmi, vector := 2, code := none, cs := cs, ip := ip, rf := t.flags.rf }
        { woken with latch := { woken.latch with nmiPending := false }, freeCtr := t.freeCtr + 1 }) ∧
    (¬ debug → ¬ nmi → intr → step s = deliver deliverFuel { t.softEvent t.pins.intrVector with kind := .intr, rf := rf }
      ((woken.drive (.intAck 4 none)).drive (.intAck 0 (some t.pins.intrVector)))) ∧
    (¬ debug → ¬ nmi → ¬ intr → t.run ≠ .running → step s = .next t) ∧
    (¬ debug → ¬ nmi → ¬ intr → t.run = .running → (t.pe && t.flags.vm) = false → ∀ (hits : BitVec 4) (s1 : State),
      instrBreaks t = .ok hits s1 →
      (hits ≠ 0 → step s = deliverExn { vector := 1, code := none, cls := .fault }
        { s1 with dbg := { s1.dbg with dr6 := s1.dbg.dr6 ||| hits.setWidth 32 } }.abandon) ∧
      (hits = 0 → ∀ u : State, runItems s1 fetchFuel { s1 with dec := Dec.start } = .next u →
        step s = .next { u with
          dec := Dec.start
          latch := { u.latch with
            shadow := if u.latch.repActive = true ∧ t.latch.shadow = .held then .held else u.latch.shadow
            singleStep := u.latch.singleStep || (t.flags.tf && u.dec.done) } }))) ∧
  (∀ s : State,
    let armed (i : Nat) : Prop := s.dbg.dr7.getLsbD (2 * i) = true ∨ s.dbg.dr7.getLsbD (2 * i + 1) = true
    let rw (i : Nat) : Nat := s.dbg.dr7.toNat / 2 ^ (16 + 4 * i) % 4
    let len (i : Nat) : Nat := s.dbg.dr7.toNat / 2 ^ (18 + 4 * i) % 4 + 1
    let addr (i : Nat) : Nat := (match i with | 0 => s.dbg.dr0 | 1 => s.dbg.dr1 | 2 => s.dbg.dr2 | _ => s.dbg.dr3).toNat
    (s.flags.rf = true → instrBreaks s = .ok 0 s) ∧
    (s.flags.rf = false → (∀ i < 4, armed i → rw i = 0 → len i = 1) → ∃ hits : BitVec 4, instrBreaks s = .ok hits s ∧
      ∀ i < 4, hits.getLsbD i = true ↔
        armed i ∧ rw i = 0 ∧ addr i = (s.segs.cs.hid.base.toNat + s.eip.toNat) % 2 ^ 32) ∧
    ((∀ i < 4, armed i → rw i ≠ 2 ∧ len i ≠ 3) →
      ∀ (sr : SegName) (off n al : Nat) (w : Bool) (ps : List BytePlace) (t : State), 0 < n → locate sr off n al w s = .ok ps t →
      ∀ i < 4, t.latch.dataBreak.getLsbD i = true ↔ s.latch.dataBreak.getLsbD i = true ∨
        (armed i ∧ (rw i = 3 ∨ (rw i = 1 ∧ w = true)) ∧
          ∃ k < n, ∃ j < len i, ((s.segs.get sr).hid.base.toNat + off + k) % 2 ^ 32 = addr i / len i * len i + j)))

/-! ### The machine -/

/-- A step with no event due runs the instruction whose bytes are at CS:EIP: fetched one by one, the bytes of a well-formed
instruction for the sizes in force lead to that instruction, executed with its length noted, and the prefetch queue
brought up to date; a prefix is followed by the next item; an instruction longer than 15
bytes raises #GP(0) in its place (30_encoding R264, R267, R305; 60_exceptions R867). -/
def Obligations.StepRunsDecodedInstruction : Prop :=
  (∀ (i : Instr) (s s1 u : State), s.nextPins.pins.reset = false →
    let t := s.nextPins.sample
    t.takesDebug = false → t.takesNmi = false → t.takesIntr = false → t.run = .running → (t.pe && t.flags.vm) = false →
    instrBreaks t = .ok 0 s1 →
    let s2 : State := { s1 with dec := Dec.start }
    let bytes := encode s2.osz s2.asz i
    i.wf s2.osz s2.asz = true → s2.Fetches s2.eip.toNat bytes u →
    let ready : State := { u with dec := { Dec.start with len := bytes.length } }
    (isPrefix i = false → step s = afterInstr s1 (retired ready (exec i ready))) ∧
    (isPrefix i = true → ∀ v : State, exec i ready = .next v → step s = afterInstr s1 (runItems s1 (fetchFuel - 1) v))) ∧
  (∀ (i : Instr) (k : Nat) (start s u : State),
    let bytes := encode s.osz s.asz i
    let n := s.dec.len + bytes.length
    i.wf s.osz s.asz = true → s.Fetches (s.eip.toNat + s.dec.len) bytes u →
    let ready : State := { u with dec := { s.dec with len := n } }
    (isPrefix i = true → ∀ v : State, exec i ready = .next v → runItems start (k + 1) s = runItems start k v) ∧
    (isPrefix i = false → n ≤ 15 → runItems start (k + 1) s = retired ready (exec i ready)) ∧
    (isPrefix i = false → 15 < n →
      runItems start (k + 1) s = deliverExn { vector := 13, code := some 0, cls := .fault } (rollback start u).abandon))

/-- The state after RESET: the values of the reset tables (70_reset R921, R925, R928 to R930), at power-up and by the RESET
pin, which keeps memory (DEDUCED, notes/assumptions/31), and without self-test the FPU; with FLUSH# the test mode is refused.
The model's choices (notes/assumptions/3): the pseudo-LRU bits of cache and TLB, and, within the segment registers compared
with State.reset, what the tables leave open, such as the accessed type of their descriptors; that a part which fails its
self-test runs on (notes/assumptions/31). -/
def Obligations.ResetState : Prop :=
  (let r := State.reset
   r.eip = 0xFFF0 ∧ r.flags.toBits = 2 ∧ r.segs.cs.sel = 0xF000 ∧ r.segs.cs.hid.base = 0xFFFF0000 ∧
   (∀ n : SegName, (r.segs.get n).hid.limit = 0xFFFF ∧ (r.segs.get n).hid.present = true ∧ (r.segs.get n).hid.db = false ∧
     (n ≠ .cs → (r.segs.get n).sel = 0 ∧ (r.segs.get n).hid.base = 0 ∧ (r.segs.get n).hid.writable = true)) ∧
   r.segs.cs.hid.readable = true ∧
   r.regs.edx.extractLsb' 8 8 = 4 ∧ r.regs.edx.extractLsb' 0 8 = Config.stepping ∧
   r.gdtr = ⟨0, 0xFFFF⟩ ∧ r.idtr = ⟨0, 0x3FF⟩ ∧ r.ldtr.sel = 0 ∧ r.ldtr.hid.base = 0 ∧ r.ldtr.hid.limit = 0xFFFF ∧
   r.tr.sel = 0 ∧ r.tr.hid.base = 0 ∧ r.tr.hid.limit = 0xFFFF ∧ r.cr0 = 0x60000000 ∧ r.cr2 = 0 ∧ r.cr3 = 0 ∧
   r.dbg.dr6 = 0xFFFF0FF0 ∧ r.dbg.dr7 = 0 ∧ r.cpl = 0 ∧ r.run = .running ∧ r.latch.nmiPending = false ∧
   r.latch.nmiInService = false ∧ r.cache = ⟨[], 0⟩ ∧ r.tlb = ⟨[], 0⟩) ∧
  (∀ s0 : State, let s := s0.nextPins; s.pins.reset = true →
    (s.pins.flush = true → step s0 = .refused .triStateTest) ∧
    (s.pins.flush = false → ∃ t : State, step s0 = .next t ∧ t.mem = s.sample.mem ∧
      t.eip = 0xFFF0 ∧ t.segs = State.reset.segs ∧ t.flags = State.reset.flags ∧ t.cr0 = 0x60000000 ∧ t.idtr = ⟨0, 0x3FF⟩ ∧
      t.cpl = 0 ∧ t.run = .running ∧ t.cache = ⟨[], 0⟩ ∧ t.tlb = ⟨[], 0⟩ ∧
      (s.pins.ahold = false → t.fpu = s.fpu) ∧
      (s.pins.ahold = true → t.regs.eax = Config.bistResult ∧ t.fpu.cw = 0x037F ∧ t.fpu.sw = 0 ∧ t.fpu.tw = 0xFFFF ∧
        ∀ k : RegNum, t.fpu.reg k = 0)))

/-- The state after reset meets the invariant. -/
def Obligations.ResetMeetsInvariant : Prop := State.reset.Inv

/-- Every step keeps the invariant: memory in canonical form, the reserved bits of CR0, CR3, DR6 and DR7 as they read,
paging only in protected mode, NW only with CD, CPL 0 in real mode (10_state R34, R47, R48, R50, R54). -/
def Obligations.StepKeepsInvariant : Prop := ∀ s t : State, s.Inv → step s = .next t → t.Inv

/-! ### Encoding -/

/-- Words written out from the table decode to the instructions they stand for, with 16-bit sizes. -/
def Obligations.TableWordsDecode : Prop :=
  decodeTableWord 16 0xC301 = some (.add (.evGv 0 (.reg 3))) ∧
  decodeTableWord 8 0x42 = some (.inc (.reg 2)) ∧
  decodeTableWord 24 0x1234B8 = some (.mov (.regIv 0 0x1234)) ∧
  decodeTableWord 24 0x05F0C1 = some (.shl (.evIb6 (.reg 0) 5)) ∧
  decodeTableWord 16 0xFE74 = some (.jE (.short 0xFE)) ∧
  decodeTableWord 16 0x21CD = some (.intIb 0x21) ∧
  decodeTableWord 24 0x07010F = some (.sgdt (.a16 7 .none)) ∧
  decodeTableWord 16 0xC1D8 = some (.fadd (.stSti 1)) ∧
  decodeTableWord 16 0xEED9 = some .fldz ∧
  decodeTableWord 8 0xF4 = some .hlt

/-- Decoder and encoder agree, for all instructions and both sizes: the bytes of a well-formed instruction decode to it,
whatever follows; what is decoded is well formed and is what was encoded; no bytes are undefined (30_encoding R264 to R267,
R280 to R286, R290, R310 to R314). -/
def Obligations.DecodeEncodeAgree : Prop := ∀ (z a : Size),
  (∀ (i : Instr) (rest : List Byte), i.wf z a = true → decode z a (encode z a i ++ rest) = .ok (i, rest)) ∧
  (∀ (bs rest : List Byte) (i : Instr), decode z a bs = .ok (i, rest) → i.wf z a = true ∧ bs = encode z a i ++ rest) ∧
  (∀ bs : List Byte, decode z a bs ≠ .error .undefined)
end

