-- ==== Sys2Proof/Laws/State.lean ====
section
/-! SUPPORT. One lemma per field per named update of the state, all true by definition, and what the updates leave of the
derived fields. -/
namespace Sys2Proof.Machine

@[simp] theorem State.begin_regs (s : State) : (s.begin).regs = s.regs := rfl
@[simp] theorem State.begin_eip (s : State) : (s.begin).eip = s.eip + BitVec.ofNat 32 s.dec.len := rfl
@[simp] theorem State.begin_flags (s : State) : (s.begin).flags = s.flags := rfl
@[simp] theorem State.begin_segs (s : State) : (s.begin).segs = s.segs := rfl
@[simp] theorem State.begin_gdtr (s : State) : (s.begin).gdtr = s.gdtr := rfl
@[simp] theorem State.begin_idtr (s : State) : (s.begin).idtr = s.idtr := rfl
@[simp] theorem State.begin_ldtr (s : State) : (s.begin).ldtr = s.ldtr := rfl
@[simp] theorem State.begin_tr (s : State) : (s.begin).tr = s.tr := rfl
@[simp] theorem State.begin_cpl (s : State) : (s.begin).cpl = s.cpl := rfl
@[simp] theorem State.begin_cr0 (s : State) : (s.begin).cr0 = s.cr0 := rfl
@[simp] theorem State.begin_cr2 (s : State) : (s.begin).cr2 = s.cr2 := rfl
@[simp] theorem State.begin_cr3 (s : State) : (s.begin).cr3 = s.cr3 := rfl
@[simp] theorem State.begin_dbg (s : State) : (s.begin).dbg = s.dbg := rfl
@[simp] theorem State.begin_test (s : State) : (s.begin).test = s.test := rfl
@[simp] theorem State.begin_fpu (s : State) : (s.begin).fpu = s.fpu := rfl
@[simp] theorem State.begin_cache (s : State) : (s.begin).cache = s.cache := rfl
@[simp] theorem State.begin_tlb (s : State) : (s.begin).tlb = s.tlb := rfl
@[simp] theorem State.begin_mem (s : State) : (s.begin).mem = s.mem := rfl
@[simp] theorem State.begin_latch (s : State) : (s.begin).latch = { s.latch with shadow := .none, repActive := false } := rfl
@[simp] theorem State.begin_run (s : State) : (s.begin).run = s.run := rfl
@[simp] theorem State.begin_pins (s : State) : (s.begin).pins = s.pins := rfl
@[simp] theorem State.begin_inputs (s : State) : (s.begin).inputs = s.inputs := rfl
@[simp] theorem State.begin_regions (s : State) : (s.begin).regions = s.regions := rfl
@[simp] theorem State.begin_prefetch (s : State) : (s.begin).prefetch = s.prefetch := rfl
@[simp] theorem State.begin_bus (s : State) : (s.begin).bus = s.bus := rfl
@[simp] theorem State.begin_dec (s : State) : (s.begin).dec = s.dec := rfl
@[simp] theorem State.begin_freeCtr (s : State) : (s.begin).freeCtr = s.freeCtr := rfl
@[simp] theorem State.begin_pe (s : State) : (s.begin).pe = s.pe := rfl
@[simp] theorem State.begin_mp (s : State) : (s.begin).mp = s.mp := rfl
@[simp] theorem State.begin_em (s : State) : (s.begin).em = s.em := rfl
@[simp] theorem State.begin_ts (s : State) : (s.begin).ts = s.ts := rfl
@[simp] theorem State.begin_ne (s : State) : (s.begin).ne = s.ne := rfl
@[simp] theorem State.begin_wp (s : State) : (s.begin).wp = s.wp := rfl
@[simp] theorem State.begin_am (s : State) : (s.begin).am = s.am := rfl
@[simp] theorem State.begin_nw (s : State) : (s.begin).nw = s.nw := rfl
@[simp] theorem State.begin_cd (s : State) : (s.begin).cd = s.cd := rfl
@[simp] theorem State.begin_pg (s : State) : (s.begin).pg = s.pg := rfl
@[simp] theorem State.begin_ssz (s : State) : (s.begin).ssz = s.ssz := rfl
@[simp] theorem State.begin_defaultSize (s : State) : (s.begin).defaultSize = s.defaultSize := rfl
@[simp] theorem State.begin_osz (s : State) : (s.begin).osz = s.osz := rfl
@[simp] theorem State.begin_asz (s : State) : (s.begin).asz = s.asz := rfl
@[simp] theorem State.begin_a20 (s : State) (a : Nat) : (s.begin).a20 a = s.a20 a := rfl
@[simp] theorem State.begin_regionAt (s : State) (a : Nat) : (s.begin).regionAt a = s.regionAt a := rfl
@[simp] theorem State.begin_memOff (s : State) (m : Mem) : (s.begin).memOff m = s.memOff m := rfl
@[simp] theorem State.begin_sp (s : State) : (s.begin).sp = s.sp := rfl
@[simp] theorem State.begin_spMinus (s : State) (k : Nat) : (s.begin).spMinus k = s.spMinus k := rfl
@[simp] theorem State.begin_memSeg (s : State) (m : Mem) : (s.begin).memSeg m = s.memSeg m := rfl

@[simp] theorem State.complete_regs (s : State) (k : Bool) : (s.complete k).regs = s.regs := rfl
@[simp] theorem State.complete_eip (s : State) (k : Bool) : (s.complete k).eip = s.eip := rfl
@[simp] theorem State.complete_flags (s : State) (k : Bool) : (s.complete k).flags = { s.flags with rf := s.flags.rf && (k || s.latch.repActive) } := rfl
@[simp] theorem State.complete_segs (s : State) (k : Bool) : (s.complete k).segs = s.segs := rfl
@[simp] theorem State.complete_gdtr (s : State) (k : Bool) : (s.complete k).gdtr = s.gdtr := rfl
@[simp] theorem State.complete_idtr (s : State) (k : Bool) : (s.complete k).idtr = s.idtr := rfl
@[simp] theorem State.complete_ldtr (s : State) (k : Bool) : (s.complete k).ldtr = s.ldtr := rfl
@[simp] theorem State.complete_tr (s : State) (k : Bool) : (s.complete k).tr = s.tr := rfl
@[simp] theorem State.complete_cpl (s : State) (k : Bool) : (s.complete k).cpl = s.cpl := rfl
@[simp] theorem State.complete_cr0 (s : State) (k : Bool) : (s.complete k).cr0 = s.cr0 := rfl
@[simp] theorem State.complete_cr2 (s : State) (k : Bool) : (s.complete k).cr2 = s.cr2 := rfl
@[simp] theorem State.complete_cr3 (s : State) (k : Bool) : (s.complete k).cr3 = s.cr3 := rfl
@[simp] theorem State.complete_dbg (s : State) (k : Bool) : (s.complete k).dbg = s.dbg := rfl
@[simp] theorem State.complete_test (s : State) (k : Bool) : (s.complete k).test = s.test := rfl
@[simp] theorem State.complete_fpu (s : State) (k : Bool) : (s.complete k).fpu = s.fpu := rfl
@[simp] theorem State.complete_cache (s : State) (k : Bool) : (s.complete k).cache = s.cache := rfl
@[simp] theorem State.complete_tlb (s : State) (k : Bool) : (s.complete k).tlb = s.tlb := rfl
@[simp] theorem State.complete_mem (s : State) (k : Bool) : (s.complete k).mem = s.mem := rfl
@[simp] theorem State.complete_latch (s : State) (k : Bool) : (s.complete k).latch = s.latch := rfl
@[simp] theorem State.complete_run (s : State) (k : Bool) : (s.complete k).run = s.run := rfl
@[simp] theorem State.complete_pins (s : State) (k : Bool) : (s.complete k).pins = s.pins := rfl
@[simp] theorem State.complete_inputs (s : State) (k : Bool) : (s.complete k).inputs = s.inputs := rfl
@[simp] theorem State.complete_regions (s : State) (k : Bool) : (s.complete k).regions = s.regions := rfl
@[simp] theorem State.complete_prefetch (s : State) (k : Bool) : (s.complete k).prefetch = s.prefetch := rfl
@[simp] theorem State.complete_bus (s : State) (k : Bool) : (s.complete k).bus = s.bus := rfl
@[simp] theorem State.complete_dec (s : State) (k : Bool) : (s.complete k).dec = { Dec.start with done := true, taken := s.dec.taken } := rfl
@[simp] theorem State.complete_freeCtr (s : State) (k : Bool) : (s.complete k).freeCtr = s.freeCtr := rfl
@[simp] theorem State.complete_pe (s : State) (k : Bool) : (s.complete k).pe = s.pe := rfl
@[simp] theorem State.complete_mp (s : State) (k : Bool) : (s.complete k).mp = s.mp := rfl
@[simp] theorem State.complete_em (s : State) (k : Bool) : (s.complete k).em = s.em := rfl
@[simp] theorem State.complete_ts (s : State) (k : Bool) : (s.complete k).ts = s.ts := rfl
@[simp] theorem State.complete_ne (s : State) (k : Bool) : (s.complete k).ne = s.ne := rfl
@[simp] theorem State.complete_wp (s : State) (k : Bool) : (s.complete k).wp = s.wp := rfl
@[simp] theorem State.complete_am (s : State) (k : Bool) : (s.complete k).am = s.am := rfl
@[simp] theorem State.complete_nw (s : State) (k : Bool) : (s.complete k).nw = s.nw := rfl
@[simp] theorem State.complete_cd (s : State) (k : Bool) : (s.complete k).cd = s.cd := rfl
@[simp] theorem State.complete_pg (s : State) (k : Bool) : (s.complete k).pg = s.pg := rfl
@[simp] theorem State.complete_ssz (s : State) (k : Bool) : (s.complete k).ssz = s.ssz := rfl
@[simp] theorem State.complete_defaultSize (s : State) (k : Bool) : (s.complete k).defaultSize = s.defaultSize := rfl
@[simp] theorem State.complete_a20 (s : State) (k : Bool) (a : Nat) : (s.complete k).a20 a = s.a20 a := rfl
@[simp] theorem State.complete_regionAt (s : State) (k : Bool) (a : Nat) : (s.complete k).regionAt a = s.regionAt a := rfl
@[simp] theorem State.complete_memOff (s : State) (k : Bool) (m : Mem) : (s.complete k).memOff m = s.memOff m := rfl
@[simp] theorem State.complete_sp (s : State) (k : Bool) : (s.complete k).sp = s.sp := rfl
@[simp] theorem State.complete_spMinus (s : State) (b : Bool) (k : Nat) : (s.complete b).spMinus k = s.spMinus k := rfl

@[simp] theorem State.abandon_regs (s : State) : (s.abandon).regs = s.regs := rfl
@[simp] theorem State.abandon_eip (s : State) : (s.abandon).eip = s.eip := rfl
@[simp] theorem State.abandon_flags (s : State) : (s.abandon).flags = s.flags := rfl
@[simp] theorem State.abandon_segs (s : State) : (s.abandon).segs = s.segs := rfl
@[simp] theorem State.abandon_gdtr (s : State) : (s.abandon).gdtr = s.gdtr := rfl
@[simp] theorem State.abandon_idtr (s : State) : (s.abandon).idtr = s.idtr := rfl
@[simp] theorem State.abandon_ldtr (s : State) : (s.abandon).ldtr = s.ldtr := rfl
@[simp] theorem State.abandon_tr (s : State) : (s.abandon).tr = s.tr := rfl
@[simp] theorem State.abandon_cpl (s : State) : (s.abandon).cpl = s.cpl := rfl
@[simp] theorem State.abandon_cr0 (s : State) : (s.abandon).cr0 = s.cr0 := rfl
@[simp] theorem State.abandon_cr2 (s : State) : (s.abandon).cr2 = s.cr2 := rfl
@[simp] theorem State.abandon_cr3 (s : State) : (s.abandon).cr3 = s.cr3 := rfl
@[simp] theorem State.abandon_dbg (s : State) : (s.abandon).dbg = s.dbg := rfl
@[simp] theorem State.abandon_test (s : State) : (s.abandon).test = s.test := rfl
@[simp] theorem State.abandon_fpu (s : State) : (s.abandon).fpu = s.fpu := rfl
@[simp] theorem State.abandon_cache (s : State) : (s.abandon).cache = s.cache := rfl
@[simp] theorem State.abandon_tlb (s : State) : (s.abandon).tlb = s.tlb := rfl
@[simp] theorem State.abandon_mem (s : State) : (s.abandon).mem = s.mem := rfl
@[simp] theorem State.abandon_latch (s : State) : (s.abandon).latch = { s.latch with shadow := .none, repActive := false } := rfl
@[simp] theorem State.abandon_run (s : State) : (s.abandon).run = s.run := rfl
@[simp] theorem State.abandon_pins (s : State) : (s.abandon).pins = s.pins := rfl
@[simp] theorem State.abandon_inputs (s : State) : (s.abandon).inputs = s.inputs := rfl
@[simp] theorem State.abandon_regions (s : State) : (s.abandon).regions = s.regions := rfl
@[simp] theorem State.abandon_prefetch (s : State) : (s.abandon).prefetch = Prefetch.empty := rfl
@[simp] theorem State.abandon_bus (s : State) : (s.abandon).bus = s.bus := rfl
@[simp] theorem State.abandon_dec (s : State) : (s.abandon).dec = Dec.start := rfl
@[simp] theorem State.abandon_freeCtr (s : State) : (s.abandon).freeCtr = s.freeCtr := rfl
@[simp] theorem State.abandon_pe (s : State) : (s.abandon).pe = s.pe := rfl
@[simp] theorem State.abandon_mp (s : State) : (s.abandon).mp = s.mp := rfl
@[simp] theorem State.abandon_em (s : State) : (s.abandon).em = s.em := rfl
@[simp] theorem State.abandon_ts (s : State) : (s.abandon).ts = s.ts := rfl
@[simp] theorem State.abandon_ne (s : State) : (s.abandon).ne = s.ne := rfl
@[simp] theorem State.abandon_wp (s : State) : (s.abandon).wp = s.wp := rfl
@[simp] theorem State.abandon_am (s : State) : (s.abandon).am = s.am := rfl
@[simp] theorem State.abandon_nw (s : State) : (s.abandon).nw = s.nw := rfl
@[simp] theorem State.abandon_cd (s : State) : (s.abandon).cd = s.cd := rfl
@[simp] theorem State.abandon_pg (s : State) : (s.abandon).pg = s.pg := rfl
@[simp] theorem State.abandon_ssz (s : State) : (s.abandon).ssz = s.ssz := rfl
@[simp] theorem State.abandon_defaultSize (s : State) : (s.abandon).defaultSize = s.defaultSize := rfl
@[simp] theorem State.abandon_a20 (s : State) (a : Nat) : (s.abandon).a20 a = s.a20 a := rfl
@[simp] theorem State.abandon_regionAt (s : State) (a : Nat) : (s.abandon).regionAt a = s.regionAt a := rfl
@[simp] theorem State.abandon_memOff (s : State) (m : Mem) : (s.abandon).memOff m = s.memOff m := rfl
@[simp] theorem State.abandon_sp (s : State) : (s.abandon).sp = s.sp := rfl
@[simp] theorem State.abandon_spMinus (s : State) (k : Nat) : (s.abandon).spMinus k = s.spMinus k := rfl

@[simp] theorem State.shutdown_regs (s : State) : (s.shutdown).regs = s.regs := rfl
@[simp] theorem State.shutdown_eip (s : State) : (s.shutdown).eip = s.eip := rfl
@[simp] theorem State.shutdown_flags (s : State) : (s.shutdown).flags = s.flags := rfl
@[simp] theorem State.shutdown_segs (s : State) : (s.shutdown).segs = s.segs := rfl
@[simp] theorem State.shutdown_gdtr (s : State) : (s.shutdown).gdtr = s.gdtr := rfl
@[simp] theorem State.shutdown_idtr (s : State) : (s.shutdown).idtr = s.idtr := rfl
@[simp] theorem State.shutdown_ldtr (s : State) : (s.shutdown).ldtr = s.ldtr := rfl
@[simp] theorem State.shutdown_tr (s : State) : (s.shutdown).tr = s.tr := rfl
@[simp] theorem State.shutdown_cpl (s : State) : (s.shutdown).cpl = s.cpl := rfl
@[simp] theorem State.shutdown_cr0 (s : State) : (s.shutdown).cr0 = s.cr0 := rfl
@[simp] theorem State.shutdown_cr2 (s : State) : (s.shutdown).cr2 = s.cr2 := rfl
@[simp] theorem State.shutdown_cr3 (s : State) : (s.shutdown).cr3 = s.cr3 := rfl
@[simp] theorem State.shutdown_dbg (s : State) : (s.shutdown).dbg = s.dbg := rfl
@[simp] theorem State.shutdown_test (s : State) : (s.shutdown).test = s.test := rfl
@[simp] theorem State.shutdown_fpu (s : State) : (s.shutdown).fpu = s.fpu := rfl
@[simp] theorem State.shutdown_cache (s : State) : (s.shutdown).cache = s.cache := rfl
@[simp] theorem State.shutdown_tlb (s : State) : (s.shutdown).tlb = s.tlb := rfl
@[simp] theorem State.shutdown_mem (s : State) : (s.shutdown).mem = s.mem := rfl
@[simp] theorem State.shutdown_latch (s : State) : (s.shutdown).latch = s.latch := rfl
@[simp] theorem State.shutdown_run (s : State) : (s.shutdown).run = .shutdown := rfl
@[simp] theorem State.shutdown_pins (s : State) : (s.shutdown).pins = s.pins := rfl
@[simp] theorem State.shutdown_inputs (s : State) : (s.shutdown).inputs = s.inputs := rfl
@[simp] theorem State.shutdown_regions (s : State) : (s.shutdown).regions = s.regions := rfl
@[simp] theorem State.shutdown_prefetch (s : State) : (s.shutdown).prefetch = s.prefetch := rfl
@[simp] theorem State.shutdown_bus (s : State) : (s.shutdown).bus = { event := .shutdown, attr := s.cr3Attr } :: s.bus := rfl
@[simp] theorem State.shutdown_dec (s : State) : (s.shutdown).dec = s.dec := rfl
@[simp] theorem State.shutdown_freeCtr (s : State) : (s.shutdown).freeCtr = s.freeCtr := rfl
@[simp] theorem State.shutdown_pe (s : State) : (s.shutdown).pe = s.pe := rfl
@[simp] theorem State.shutdown_mp (s : State) : (s.shutdown).mp = s.mp := rfl
@[simp] theorem State.shutdown_em (s : State) : (s.shutdown).em = s.em := rfl
@[simp] theorem State.shutdown_ts (s : State) : (s.shutdown).ts = s.ts := rfl
@[simp] theorem State.shutdown_ne (s : State) : (s.shutdown).ne = s.ne := rfl
@[simp] theorem State.shutdown_wp (s : State) : (s.shutdown).wp = s.wp := rfl
@[simp] theorem State.shutdown_am (s : State) : (s.shutdown).am = s.am := rfl
@[simp] theorem State.shutdown_nw (s : State) : (s.shutdown).nw = s.nw := rfl
@[simp] theorem State.shutdown_cd (s : State) : (s.shutdown).cd = s.cd := rfl
@[simp] theorem State.shutdown_pg (s : State) : (s.shutdown).pg = s.pg := rfl
@[simp] theorem State.shutdown_ssz (s : State) : (s.shutdown).ssz = s.ssz := rfl
@[simp] theorem State.shutdown_defaultSize (s : State) : (s.shutdown).defaultSize = s.defaultSize := rfl
@[simp] theorem State.shutdown_osz (s : State) : (s.shutdown).osz = s.osz := rfl
@[simp] theorem State.shutdown_asz (s : State) : (s.shutdown).asz = s.asz := rfl
@[simp] theorem State.shutdown_a20 (s : State) (a : Nat) : (s.shutdown).a20 a = s.a20 a := rfl
@[simp] theorem State.shutdown_regionAt (s : State) (a : Nat) : (s.shutdown).regionAt a = s.regionAt a := rfl
@[simp] theorem State.shutdown_memOff (s : State) (m : Mem) : (s.shutdown).memOff m = s.memOff m := rfl
@[simp] theorem State.shutdown_sp (s : State) : (s.shutdown).sp = s.sp := rfl
@[simp] theorem State.shutdown_spMinus (s : State) (k : Nat) : (s.shutdown).spMinus k = s.spMinus k := rfl
@[simp] theorem State.shutdown_memSeg (s : State) (m : Mem) : (s.shutdown).memSeg m = s.memSeg m := rfl

@[simp] theorem State.awake_regs (s : State) : (s.awake).regs = s.regs := rfl
@[simp] theorem State.awake_eip (s : State) : (s.awake).eip = s.eip := rfl
@[simp] theorem State.awake_flags (s : State) : (s.awake).flags = s.flags := rfl
@[simp] theorem State.awake_segs (s : State) : (s.awake).segs = s.segs := rfl
@[simp] theorem State.awake_gdtr (s : State) : (s.awake).gdtr = s.gdtr := rfl
@[simp] theorem State.awake_idtr (s : State) : (s.awake).idtr = s.idtr := rfl
@[simp] theorem State.awake_ldtr (s : State) : (s.awake).ldtr = s.ldtr := rfl
@[simp] theorem State.awake_tr (s : State) : (s.awake).tr = s.tr := rfl
@[simp] theorem State.awake_cpl (s : State) : (s.awake).cpl = s.cpl := rfl
@[simp] theorem State.awake_cr0 (s : State) : (s.awake).cr0 = s.cr0 := rfl
@[simp] theorem State.awake_cr2 (s : State) : (s.awake).cr2 = s.cr2 := rfl
@[simp] theorem State.awake_cr3 (s : State) : (s.awake).cr3 = s.cr3 := rfl
@[simp] theorem State.awake_dbg (s : State) : (s.awake).dbg = s.dbg := rfl
@[simp] theorem State.awake_test (s : State) : (s.awake).test = s.test := rfl
@[simp] theorem State.awake_fpu (s : State) : (s.awake).fpu = s.fpu := rfl
@[simp] theorem State.awake_cache (s : State) : (s.awake).cache = s.cache := rfl
@[simp] theorem State.awake_tlb (s : State) : (s.awake).tlb = s.tlb := rfl
@[simp] theorem State.awake_mem (s : State) : (s.awake).mem = s.mem := rfl
@[simp] theorem State.awake_latch (s : State) : (s.awake).latch = { s.latch with shadow := .none, repActive := false } := rfl
@[simp] theorem State.awake_run (s : State) : (s.awake).run = .running := rfl
@[simp] theorem State.awake_pins (s : State) : (s.awake).pins = s.pins := rfl
@[simp] theorem State.awake_inputs (s : State) : (s.awake).inputs = s.inputs := rfl
@[simp] theorem State.awake_regions (s : State) : (s.awake).regions = s.regions := rfl
@[simp] theorem State.awake_prefetch (s : State) : (s.awake).prefetch = Prefetch.empty := rfl
@[simp] theorem State.awake_bus (s : State) : (s.awake).bus = s.bus := rfl
@[simp] theorem State.awake_dec (s : State) : (s.awake).dec = Dec.start := rfl
@[simp] theorem State.awake_freeCtr (s : State) : (s.awake).freeCtr = s.freeCtr := rfl
@[simp] theorem State.awake_pe (s : State) : (s.awake).pe = s.pe := rfl
@[simp] theorem State.awake_mp (s : State) : (s.awake).mp = s.mp := rfl
@[simp] theorem State.awake_em (s : State) : (s.awake).em = s.em := rfl
@[simp] theorem State.awake_ts (s : State) : (s.awake).ts = s.ts := rfl
@[simp] theorem State.awake_ne (s : State) : (s.awake).ne = s.ne := rfl
@[simp] theorem State.awake_wp (s : State) : (s.awake).wp = s.wp := rfl
@[simp] theorem State.awake_am (s : State) : (s.awake).am = s.am := rfl
@[simp] theorem State.awake_nw (s : State) : (s.awake).nw = s.nw := rfl
@[simp] theorem State.awake_cd (s : State) : (s.awake).cd = s.cd := rfl
@[simp] theorem State.awake_pg (s : State) : (s.awake).pg = s.pg := rfl
@[simp] theorem State.awake_ssz (s : State) : (s.awake).ssz = s.ssz := rfl
@[simp] theorem State.awake_defaultSize (s : State) : (s.awake).defaultSize = s.defaultSize := rfl
@[simp] theorem State.awake_a20 (s : State) (a : Nat) : (s.awake).a20 a = s.a20 a := rfl
@[simp] theorem State.awake_regionAt (s : State) (a : Nat) : (s.awake).regionAt a = s.regionAt a := rfl
@[simp] theorem State.awake_memOff (s : State) (m : Mem) : (s.awake).memOff m = s.memOff m := rfl
@[simp] theorem State.awake_sp (s : State) : (s.awake).sp = s.sp := rfl
@[simp] theorem State.awake_spMinus (s : State) (k : Nat) : (s.awake).spMinus k = s.spMinus k := rfl

@[simp] theorem State.withPrefix_regs (s : State) (d : Dec) : (s.withPrefix d).regs = s.regs := rfl
@[simp] theorem State.withPrefix_eip (s : State) (d : Dec) : (s.withPrefix d).eip = s.eip := rfl
@[simp] theorem State.withPrefix_flags (s : State) (d : Dec) : (s.withPrefix d).flags = s.flags := rfl
@[simp] theorem State.withPrefix_segs (s : State) (d : Dec) : (s.withPrefix d).segs = s.segs := rfl
@[simp] theorem State.withPrefix_gdtr (s : State) (d : Dec) : (s.withPrefix d).gdtr = s.gdtr := rfl
@[simp] theorem State.withPrefix_idtr (s : State) (d : Dec) : (s.withPrefix d).idtr = s.idtr := rfl
@[simp] theorem State.withPrefix_ldtr (s : State) (d : Dec) : (s.withPrefix d).ldtr = s.ldtr := rfl
@[simp] theorem State.withPrefix_tr (s : State) (d : Dec) : (s.withPrefix d).tr = s.tr := rfl
@[simp] theorem State.withPrefix_cpl (s : State) (d : Dec) : (s.withPrefix d).cpl = s.cpl := rfl
@[simp] theorem State.withPrefix_cr0 (s : State) (d : Dec) : (s.withPrefix d).cr0 = s.cr0 := rfl
@[simp] theorem State.withPrefix_cr2 (s : State) (d : Dec) : (s.withPrefix d).cr2 = s.cr2 := rfl
@[simp] theorem State.withPrefix_cr3 (s : State) (d : Dec) : (s.withPrefix d).cr3 = s.cr3 := rfl
@[simp] theorem State.withPrefix_dbg (s : State) (d : Dec) : (s.withPrefix d).dbg = s.dbg := rfl
@[simp] theorem State.withPrefix_test (s : State) (d : Dec) : (s.withPrefix d).test = s.test := rfl
@[simp] theorem State.withPrefix_fpu (s : State) (d : Dec) : (s.withPrefix d).fpu = s.fpu := rfl
@[simp] theorem State.withPrefix_cache (s : State) (d : Dec) : (s.withPrefix d).cache = s.cache := rfl
@[simp] theorem State.withPrefix_tlb (s : State) (d : Dec) : (s.withPrefix d).tlb = s.tlb := rfl
@[simp] theorem State.withPrefix_mem (s : State) (d : Dec) : (s.withPrefix d).mem = s.mem := rfl
@[simp] theorem State.withPrefix_latch (s : State) (d : Dec) : (s.withPrefix d).latch = s.latch := rfl
@[simp] theorem State.withPrefix_run (s : State) (d : Dec) : (s.withPrefix d).run = s.run := rfl
@[simp] theorem State.withPrefix_pins (s : State) (d : Dec) : (s.withPrefix d).pins = s.pins := rfl
@[simp] theorem State.withPrefix_inputs (s : State) (d : Dec) : (s.withPrefix d).inputs = s.inputs := rfl
@[simp] theorem State.withPrefix_regions (s : State) (d : Dec) : (s.withPrefix d).regions = s.regions := rfl
@[simp] theorem State.withPrefix_prefetch (s : State) (d : Dec) : (s.withPrefix d).prefetch = s.prefetch := rfl
@[simp] theorem State.withPrefix_bus (s : State) (d : Dec) : (s.withPrefix d).bus = s.bus := rfl
@[simp] theorem State.withPrefix_dec (s : State) (d : Dec) : (s.withPrefix d).dec = d := rfl
@[simp] theorem State.withPrefix_freeCtr (s : State) (d : Dec) : (s.withPrefix d).freeCtr = s.freeCtr := rfl
@[simp] theorem State.withPrefix_pe (s : State) (d : Dec) : (s.withPrefix d).pe = s.pe := rfl
@[simp] theorem State.withPrefix_mp (s : State) (d : Dec) : (s.withPrefix d).mp = s.mp := rfl
@[simp] theorem State.withPrefix_em (s : State) (d : Dec) : (s.withPrefix d).em = s.em := rfl
@[simp] theorem State.withPrefix_ts (s : State) (d : Dec) : (s.withPrefix d).ts = s.ts := rfl
@[simp] theorem State.withPrefix_ne (s : State) (d : Dec) : (s.withPrefix d).ne = s.ne := rfl
@[simp] theorem State.withPrefix_wp (s : State) (d : Dec) : (s.withPrefix d).wp = s.wp := rfl
@[simp] theorem State.withPrefix_am (s : State) (d : Dec) : (s.withPrefix d).am = s.am := rfl
@[simp] theorem State.withPrefix_nw (s : State) (d : Dec) : (s.withPrefix d).nw = s.nw := rfl
@[simp] theorem State.withPrefix_cd (s : State) (d : Dec) : (s.withPrefix d).cd = s.cd := rfl
@[simp] theorem State.withPrefix_pg (s : State) (d : Dec) : (s.withPrefix d).pg = s.pg := rfl
@[simp] theorem State.withPrefix_ssz (s : State) (d : Dec) : (s.withPrefix d).ssz = s.ssz := rfl
@[simp] theorem State.withPrefix_defaultSize (s : State) (d : Dec) : (s.withPrefix d).defaultSize = s.defaultSize := rfl
@[simp] theorem State.withPrefix_a20 (s : State) (d : Dec) (a : Nat) : (s.withPrefix d).a20 a = s.a20 a := rfl
@[simp] theorem State.withPrefix_regionAt (s : State) (d : Dec) (a : Nat) : (s.withPrefix d).regionAt a = s.regionAt a := rfl
@[simp] theorem State.withPrefix_memOff (s : State) (d : Dec) (m : Mem) : (s.withPrefix d).memOff m = s.memOff m := rfl
@[simp] theorem State.withPrefix_sp (s : State) (d : Dec) : (s.withPrefix d).sp = s.sp := rfl
@[simp] theorem State.withPrefix_spMinus (s : State) (d : Dec) (k : Nat) : (s.withPrefix d).spMinus k = s.spMinus k := rfl

@[simp] theorem State.drawn_regs (s : State) : (s.drawn).regs = s.regs := rfl
@[simp] theorem State.drawn_eip (s : State) : (s.drawn).eip = s.eip := rfl
@[simp] theorem State.drawn_flags (s : State) : (s.drawn).flags = s.flags := rfl
@[simp] theorem State.drawn_segs (s : State) : (s.drawn).segs = s.segs := rfl
@[simp] theorem State.drawn_gdtr (s : State) : (s.drawn).gdtr = s.gdtr := rfl
@[simp] theorem State.drawn_idtr (s : State) : (s.drawn).idtr = s.idtr := rfl
@[simp] theorem State.drawn_ldtr (s : State) : (s.drawn).ldtr = s.ldtr := rfl
@[simp] theorem State.drawn_tr (s : State) : (s.drawn).tr = s.tr := rfl
@[simp] theorem State.drawn_cpl (s : State) : (s.drawn).cpl = s.cpl := rfl
@[simp] theorem State.drawn_cr0 (s : State) : (s.drawn).cr0 = s.cr0 := rfl
@[simp] theorem State.drawn_cr2 (s : State) : (s.drawn).cr2 = s.cr2 := rfl
@[simp] theorem State.drawn_cr3 (s : State) : (s.drawn).cr3 = s.cr3 := rfl
@[simp] theorem State.drawn_dbg (s : State) : (s.drawn).dbg = s.dbg := rfl
@[simp] theorem State.drawn_test (s : State) : (s.drawn).test = s.test := rfl
@[simp] theorem State.drawn_fpu (s : State) : (s.drawn).fpu = s.fpu := rfl
@[simp] theorem State.drawn_cache (s : State) : (s.drawn).cache = s.cache := rfl
@[simp] theorem State.drawn_tlb (s : State) : (s.drawn).tlb = s.tlb := rfl
@[simp] theorem State.drawn_mem (s : State) : (s.drawn).mem = s.mem := rfl
@[simp] theorem State.drawn_latch (s : State) : (s.drawn).latch = s.latch := rfl
@[simp] theorem State.drawn_run (s : State) : (s.drawn).run = s.run := rfl
@[simp] theorem State.drawn_pins (s : State) : (s.drawn).pins = s.pins := rfl
@[simp] theorem State.drawn_inputs (s : State) : (s.drawn).inputs = s.inputs := rfl
@[simp] theorem State.drawn_regions (s : State) : (s.drawn).regions = s.regions := rfl
@[simp] theorem State.drawn_prefetch (s : State) : (s.drawn).prefetch = s.prefetch := rfl
@[simp] theorem State.drawn_bus (s : State) : (s.drawn).bus = s.bus := rfl
@[simp] theorem State.drawn_dec (s : State) : (s.drawn).dec = s.dec := rfl
@[simp] theorem State.drawn_freeCtr (s : State) : (s.drawn).freeCtr = s.freeCtr + 1 := rfl
@[simp] theorem State.drawn_pe (s : State) : (s.drawn).pe = s.pe := rfl
@[simp] theorem State.drawn_mp (s : State) : (s.drawn).mp = s.mp := rfl
@[simp] theorem State.drawn_em (s : State) : (s.drawn).em = s.em := rfl
@[simp] theorem State.drawn_ts (s : State) : (s.drawn).ts = s.ts := rfl
@[simp] theorem State.drawn_ne (s : State) : (s.drawn).ne = s.ne := rfl
@[simp] theorem State.drawn_wp (s : State) : (s.drawn).wp = s.wp := rfl
@[simp] theorem State.drawn_am (s : State) : (s.drawn).am = s.am := rfl
@[simp] theorem State.drawn_nw (s : State) : (s.drawn).nw = s.nw := rfl
@[simp] theorem State.drawn_cd (s : State) : (s.drawn).cd = s.cd := rfl
@[simp] theorem State.drawn_pg (s : State) : (s.drawn).pg = s.pg := rfl
@[simp] theorem State.drawn_ssz (s : State) : (s.drawn).ssz = s.ssz := rfl
@[simp] theorem State.drawn_defaultSize (s : State) : (s.drawn).defaultSize = s.defaultSize := rfl
@[simp] theorem State.drawn_osz (s : State) : (s.drawn).osz = s.osz := rfl
@[simp] theorem State.drawn_asz (s : State) : (s.drawn).asz = s.asz := rfl
@[simp] theorem State.drawn_a20 (s : State) (a : Nat) : (s.drawn).a20 a = s.a20 a := rfl
@[simp] theorem State.drawn_regionAt (s : State) (a : Nat) : (s.drawn).regionAt a = s.regionAt a := rfl
@[simp] theorem State.drawn_memOff (s : State) (m : Mem) : (s.drawn).memOff m = s.memOff m := rfl
@[simp] theorem State.drawn_sp (s : State) : (s.drawn).sp = s.sp := rfl
@[simp] theorem State.drawn_spMinus (s : State) (k : Nat) : (s.drawn).spMinus k = s.spMinus k := rfl
@[simp] theorem State.drawn_memSeg (s : State) (m : Mem) : (s.drawn).memSeg m = s.memSeg m := rfl

@[simp] theorem State.withReg_regs (s : State) (w : Width) (n : RegNum) (v : Nat) : (s.withReg w n v).regs = s.regs.write w n v := rfl
@[simp] theorem State.withReg_eip (s : State) (w : Width) (n : RegNum) (v : Nat) : (s.withReg w n v).eip = s.eip := rfl
@[simp] theorem State.withReg_flags (s : State) (w : Width) (n : RegNum) (v : Nat) : (s.withReg w n v).flags = s.flags := rfl
@[simp] theorem State.withReg_segs (s : State) (w : Width) (n : RegNum) (v : Nat) : (s.withReg w n v).segs = s.segs := rfl
@[simp] theorem State.withReg_gdtr (s : State) (w : Width) (n : RegNum) (v : Nat) : (s.withReg w n v).gdtr = s.gdtr := rfl
@[simp] theorem State.withReg_idtr (s : State) (w : Width) (n : RegNum) (v : Nat) : (s.withReg w n v).idtr = s.idtr := rfl
@[simp] theorem State.withReg_ldtr (s : State) (w : Width) (n : RegNum) (v : Nat) : (s.withReg w n v).ldtr = s.ldtr := rfl
@[simp] theorem State.withReg_tr (s : State) (w : Width) (n : RegNum) (v : Nat) : (s.withReg w n v).tr = s.tr := rfl
@[simp] theorem State.withReg_cpl (s : State) (w : Width) (n : RegNum) (v : Nat) : (s.withReg w n v).cpl = s.cpl := rfl
@[simp] theorem State.withReg_cr0 (s : State) (w : Width) (n : RegNum) (v : Nat) : (s.withReg w n v).cr0 = s.cr0 := rfl
@[simp] theorem State.withReg_cr2 (s : State) (w : Width) (n : RegNum) (v : Nat) : (s.withReg w n v).cr2 = s.cr2 := rfl
@[simp] theorem State.withReg_cr3 (s : State) (w : Width) (n : RegNum) (v : Nat) : (s.withReg w n v).cr3 = s.cr3 := rfl
@[simp] theorem State.withReg_dbg (s : State) (w : Width) (n : RegNum) (v : Nat) : (s.withReg w n v).dbg = s.dbg := rfl
@[simp] theorem State.withReg_test (s : State) (w : Width) (n : RegNum) (v : Nat) : (s.withReg w n v).test = s.test := rfl
@[simp] theorem State.withReg_fpu (s : State) (w : Width) (n : RegNum) (v : Nat) : (s.withReg w n v).fpu = s.fpu := rfl
@[simp] theorem State.withReg_cache (s : State) (w : Width) (n : RegNum) (v : Nat) : (s.withReg w n v).cache = s.cache := rfl
@[simp] theorem State.withReg_tlb (s : State) (w : Width) (n : RegNum) (v : Nat) : (s.withReg w n v).tlb = s.tlb := rfl
@[simp] theorem State.withReg_mem (s : State) (w : Width) (n : RegNum) (v : Nat) : (s.withReg w n v).mem = s.mem := rfl
@[simp] theorem State.withReg_latch (s : State) (w : Width) (n : RegNum) (v : Nat) : (s.withReg w n v).latch = s.latch := rfl
@[simp] theorem State.withReg_run (s : State) (w : Width) (n : RegNum) (v : Nat) : (s.withReg w n v).run = s.run := rfl
@[simp] theorem State.withReg_pins (s : State) (w : Width) (n : RegNum) (v : Nat) : (s.withReg w n v).pins = s.pins := rfl
@[simp] theorem State.withReg_inputs (s : State) (w : Width) (n : RegNum) (v : Nat) : (s.withReg w n v).inputs = s.inputs := rfl
@[simp] theorem State.withReg_regions (s : State) (w : Width) (n : RegNum) (v : Nat) : (s.withReg w n v).regions = s.regions := rfl
@[simp] theorem State.withReg_prefetch (s : State) (w : Width) (n : RegNum) (v : Nat) : (s.withReg w n v).prefetch = s.prefetch := rfl
@[simp] theorem State.withReg_bus (s : State) (w : Width) (n : RegNum) (v : Nat) : (s.withReg w n v).bus = s.bus := rfl
@[simp] theorem State.withReg_dec (s : State) (w : Width) (n : RegNum) (v : Nat) : (s.withReg w n v).dec = s.dec := rfl
@[simp] theorem State.withReg_freeCtr (s : State) (w : Width) (n : RegNum) (v : Nat) : (s.withReg w n v).freeCtr = s.freeCtr := rfl
@[simp] theorem State.withReg_pe (s : State) (w : Width) (n : RegNum) (v : Nat) : (s.withReg w n v).pe = s.pe := rfl
@[simp] theorem State.withReg_mp (s : State) (w : Width) (n : RegNum) (v : Nat) : (s.withReg w n v).mp = s.mp := rfl
@[simp] theorem State.withReg_em (s : State) (w : Width) (n : RegNum) (v : Nat) : (s.withReg w n v).em = s.em := rfl
@[simp] theorem State.withReg_ts (s : State) (w : Width) (n : RegNum) (v : Nat) : (s.withReg w n v).ts = s.ts := rfl
@[simp] theorem State.withReg_ne (s : State) (w : Width) (n : RegNum) (v : Nat) : (s.withReg w n v).ne = s.ne := rfl
@[simp] theorem State.withReg_wp (s : State) (w : Width) (n : RegNum) (v : Nat) : (s.withReg w n v).wp = s.wp := rfl
@[simp] theorem State.withReg_am (s : State) (w : Width) (n : RegNum) (v : Nat) : (s.withReg w n v).am = s.am := rfl
@[simp] theorem State.withReg_nw (s : State) (w : Width) (n : RegNum) (v : Nat) : (s.withReg w n v).nw = s.nw := rfl
@[simp] theorem State.withReg_cd (s : State) (w : Width) (n : RegNum) (v : Nat) : (s.withReg w n v).cd = s.cd := rfl
@[simp] theorem State.withReg_pg (s : State) (w : Width) (n : RegNum) (v : Nat) : (s.withReg w n v).pg = s.pg := rfl
@[simp] theorem State.withReg_ssz (s : State) (w : Width) (n : RegNum) (v : Nat) : (s.withReg w n v).ssz = s.ssz := rfl
@[simp] theorem State.withReg_defaultSize (s : State) (w : Width) (n : RegNum) (v : Nat) : (s.withReg w n v).defaultSize = s.defaultSize := rfl
@[simp] theorem State.withReg_osz (s : State) (w : Width) (n : RegNum) (v : Nat) : (s.withReg w n v).osz = s.osz := rfl
@[simp] theorem State.withReg_asz (s : State) (w : Width) (n : RegNum) (v : Nat) : (s.withReg w n v).asz = s.asz := rfl
@[simp] theorem State.withReg_a20 (s : State) (w : Width) (n : RegNum) (v : Nat) (a : Nat) : (s.withReg w n v).a20 a = s.a20 a := rfl
@[simp] theorem State.withReg_regionAt (s : State) (w : Width) (n : RegNum) (v : Nat) (a : Nat) : (s.withReg w n v).regionAt a = s.regionAt a := rfl
@[simp] theorem State.withReg_memSeg (s : State) (w : Width) (n : RegNum) (v : Nat) (m : Mem) : (s.withReg w n v).memSeg m = s.memSeg m := rfl

@[simp] theorem State.withFlags_regs (s : State) (f : Flags) : (s.withFlags f).regs = s.regs := rfl
@[simp] theorem State.withFlags_eip (s : State) (f : Flags) : (s.withFlags f).eip = s.eip := rfl
@[simp] theorem State.withFlags_flags (s : State) (f : Flags) : (s.withFlags f).flags = f := rfl
@[simp] theorem State.withFlags_segs (s : State) (f : Flags) : (s.withFlags f).segs = s.segs := rfl
@[simp] theorem State.withFlags_gdtr (s : State) (f : Flags) : (s.withFlags f).gdtr = s.gdtr := rfl
@[simp] theorem State.withFlags_idtr (s : State) (f : Flags) : (s.withFlags f).idtr = s.idtr := rfl
@[simp] theorem State.withFlags_ldtr (s : State) (f : Flags) : (s.withFlags f).ldtr = s.ldtr := rfl
@[simp] theorem State.withFlags_tr (s : State) (f : Flags) : (s.withFlags f).tr = s.tr := rfl
@[simp] theorem State.withFlags_cpl (s : State) (f : Flags) : (s.withFlags f).cpl = s.cpl := rfl
@[simp] theorem State.withFlags_cr0 (s : State) (f : Flags) : (s.withFlags f).cr0 = s.cr0 := rfl
@[simp] theorem State.withFlags_cr2 (s : State) (f : Flags) : (s.withFlags f).cr2 = s.cr2 := rfl
@[simp] theorem State.withFlags_cr3 (s : State) (f : Flags) : (s.withFlags f).cr3 = s.cr3 := rfl
@[simp] theorem State.withFlags_dbg (s : State) (f : Flags) : (s.withFlags f).dbg = s.dbg := rfl
@[simp] theorem State.withFlags_test (s : State) (f : Flags) : (s.withFlags f).test = s.test := rfl
@[simp] theorem State.withFlags_fpu (s : State) (f : Flags) : (s.withFlags f).fpu = s.fpu := rfl
@[simp] theorem State.withFlags_cache (s : State) (f : Flags) : (s.withFlags f).cache = s.cache := rfl
@[simp] theorem State.withFlags_tlb (s : State) (f : Flags) : (s.withFlags f).tlb = s.tlb := rfl
@[simp] theorem State.withFlags_mem (s : State) (f : Flags) : (s.withFlags f).mem = s.mem := rfl
@[simp] theorem State.withFlags_latch (s : State) (f : Flags) : (s.withFlags f).latch = s.latch := rfl
@[simp] theorem State.withFlags_run (s : State) (f : Flags) : (s.withFlags f).run = s.run := rfl
@[simp] theorem State.withFlags_pins (s : State) (f : Flags) : (s.withFlags f).pins = s.pins := rfl
@[simp] theorem State.withFlags_inputs (s : State) (f : Flags) : (s.withFlags f).inputs = s.inputs := rfl
@[simp] theorem State.withFlags_regions (s : State) (f : Flags) : (s.withFlags f).regions = s.regions := rfl
@[simp] theorem State.withFlags_prefetch (s : State) (f : Flags) : (s.withFlags f).prefetch = s.prefetch := rfl
@[simp] theorem State.withFlags_bus (s : State) (f : Flags) : (s.withFlags f).bus = s.bus := rfl
@[simp] theorem State.withFlags_dec (s : State) (f : Flags) : (s.withFlags f).dec = s.dec := rfl
@[simp] theorem State.withFlags_freeCtr (s : State) (f : Flags) : (s.withFlags f).freeCtr = s.freeCtr := rfl
@[simp] theorem State.withFlags_pe (s : State) (f : Flags) : (s.withFlags f).pe = s.pe := rfl
@[simp] theorem State.withFlags_mp (s : State) (f : Flags) : (s.withFlags f).mp = s.mp := rfl
@[simp] theorem State.withFlags_em (s : State) (f : Flags) : (s.withFlags f).em = s.em := rfl
@[simp] theorem State.withFlags_ts (s : State) (f : Flags) : (s.withFlags f).ts = s.ts := rfl
@[simp] theorem State.withFlags_ne (s : State) (f : Flags) : (s.withFlags f).ne = s.ne := rfl
@[simp] theorem State.withFlags_wp (s : State) (f : Flags) : (s.withFlags f).wp = s.wp := rfl
@[simp] theorem State.withFlags_am (s : State) (f : Flags) : (s.withFlags f).am = s.am := rfl
@[simp] theorem State.withFlags_nw (s : State) (f : Flags) : (s.withFlags f).nw = s.nw := rfl
@[simp] theorem State.withFlags_cd (s : State) (f : Flags) : (s.withFlags f).cd = s.cd := rfl
@[simp] theorem State.withFlags_pg (s : State) (f : Flags) : (s.withFlags f).pg = s.pg := rfl
@[simp] theorem State.withFlags_ssz (s : State) (f : Flags) : (s.withFlags f).ssz = s.ssz := rfl
@[simp] theorem State.withFlags_defaultSize (s : State) (f : Flags) : (s.withFlags f).defaultSize = s.defaultSize := rfl
@[simp] theorem State.withFlags_osz (s : State) (f : Flags) : (s.withFlags f).osz = s.osz := rfl
@[simp] theorem State.withFlags_asz (s : State) (f : Flags) : (s.withFlags f).asz = s.asz := rfl
@[simp] theorem State.withFlags_a20 (s : State) (f : Flags) (a : Nat) : (s.withFlags f).a20 a = s.a20 a := rfl
@[simp] theorem State.withFlags_regionAt (s : State) (f : Flags) (a : Nat) : (s.withFlags f).regionAt a = s.regionAt a := rfl
@[simp] theorem State.withFlags_memOff (s : State) (f : Flags) (m : Mem) : (s.withFlags f).memOff m = s.memOff m := rfl
@[simp] theorem State.withFlags_sp (s : State) (f : Flags) : (s.withFlags f).sp = s.sp := rfl
@[simp] theorem State.withFlags_spMinus (s : State) (f : Flags) (k : Nat) : (s.withFlags f).spMinus k = s.spMinus k := rfl
@[simp] theorem State.withFlags_memSeg (s : State) (f : Flags) (m : Mem) : (s.withFlags f).memSeg m = s.memSeg m := rfl

@[simp] theorem State.withSP_regs (s : State) (v : Nat) : (s.withSP v).regs = s.regs.write s.ssz.width regESP v := rfl
@[simp] theorem State.withSP_eip (s : State) (v : Nat) : (s.withSP v).eip = s.eip := rfl
@[simp] theorem State.withSP_flags (s : State) (v : Nat) : (s.withSP v).flags = s.flags := rfl
@[simp] theorem State.withSP_segs (s : State) (v : Nat) : (s.withSP v).segs = s.segs := rfl
@[simp] theorem State.withSP_gdtr (s : State) (v : Nat) : (s.withSP v).gdtr = s.gdtr := rfl
@[simp] theorem State.withSP_idtr (s : State) (v : Nat) : (s.withSP v).idtr = s.idtr := rfl
@[simp] theorem State.withSP_ldtr (s : State) (v : Nat) : (s.withSP v).ldtr = s.ldtr := rfl
@[simp] theorem State.withSP_tr (s : State) (v : Nat) : (s.withSP v).tr = s.tr := rfl
@[simp] theorem State.withSP_cpl (s : State) (v : Nat) : (s.withSP v).cpl = s.cpl := rfl
@[simp] theorem State.withSP_cr0 (s : State) (v : Nat) : (s.withSP v).cr0 = s.cr0 := rfl
@[simp] theorem State.withSP_cr2 (s : State) (v : Nat) : (s.withSP v).cr2 = s.cr2 := rfl
@[simp] theorem State.withSP_cr3 (s : State) (v : Nat) : (s.withSP v).cr3 = s.cr3 := rfl
@[simp] theorem State.withSP_dbg (s : State) (v : Nat) : (s.withSP v).dbg = s.dbg := rfl
@[simp] theorem State.withSP_test (s : State) (v : Nat) : (s.withSP v).test = s.test := rfl
@[simp] theorem State.withSP_fpu (s : State) (v : Nat) : (s.withSP v).fpu = s.fpu := rfl
@[simp] theorem State.withSP_cache (s : State) (v : Nat) : (s.withSP v).cache = s.cache := rfl
@[simp] theorem State.withSP_tlb (s : State) (v : Nat) : (s.withSP v).tlb = s.tlb := rfl
@[simp] theorem State.withSP_mem (s : State) (v : Nat) : (s.withSP v).mem = s.mem := rfl
@[simp] theorem State.withSP_latch (s : State) (v : Nat) : (s.withSP v).latch = s.latch := rfl
@[simp] theorem State.withSP_run (s : State) (v : Nat) : (s.withSP v).run = s.run := rfl
@[simp] theorem State.withSP_pins (s : State) (v : Nat) : (s.withSP v).pins = s.pins := rfl
@[simp] theorem State.withSP_inputs (s : State) (v : Nat) : (s.withSP v).inputs = s.inputs := rfl
@[simp] theorem State.withSP_regions (s : State) (v : Nat) : (s.withSP v).regions = s.regions := rfl
@[simp] theorem State.withSP_prefetch (s : State) (v : Nat) : (s.withSP v).prefetch = s.prefetch := rfl
@[simp] theorem State.withSP_bus (s : State) (v : Nat) : (s.withSP v).bus = s.bus := rfl
@[simp] theorem State.withSP_dec (s : State) (v : Nat) : (s.withSP v).dec = s.dec := rfl
@[simp] theorem State.withSP_freeCtr (s : State) (v : Nat) : (s.withSP v).freeCtr = s.freeCtr := rfl
@[simp] theorem State.withSP_pe (s : State) (v : Nat) : (s.withSP v).pe = s.pe := rfl
@[simp] theorem State.withSP_mp (s : State) (v : Nat) : (s.withSP v).mp = s.mp := rfl
@[simp] theorem State.withSP_em (s : State) (v : Nat) : (s.withSP v).em = s.em := rfl
@[simp] theorem State.withSP_ts (s : State) (v : Nat) : (s.withSP v).ts = s.ts := rfl
@[simp] theorem State.withSP_ne (s : State) (v : Nat) : (s.withSP v).ne = s.ne := rfl
@[simp] theorem State.withSP_wp (s : State) (v : Nat) : (s.withSP v).wp = s.wp := rfl
@[simp] theorem State.withSP_am (s : State) (v : Nat) : (s.withSP v).am = s.am := rfl
@[simp] theorem State.withSP_nw (s : State) (v : Nat) : (s.withSP v).nw = s.nw := rfl
@[simp] theorem State.withSP_cd (s : State) (v : Nat) : (s.withSP v).cd = s.cd := rfl
@[simp] theorem State.withSP_pg (s : State) (v : Nat) : (s.withSP v).pg = s.pg := rfl
@[simp] theorem State.withSP_ssz (s : State) (v : Nat) : (s.withSP v).ssz = s.ssz := rfl
@[simp] theorem State.withSP_defaultSize (s : State) (v : Nat) : (s.withSP v).defaultSize = s.defaultSize := rfl
@[simp] theorem State.withSP_osz (s : State) (v : Nat) : (s.withSP v).osz = s.osz := rfl
@[simp] theorem State.withSP_asz (s : State) (v : Nat) : (s.withSP v).asz = s.asz := rfl
@[simp] theorem State.withSP_a20 (s : State) (v : Nat) (a : Nat) : (s.withSP v).a20 a = s.a20 a := rfl
@[simp] theorem State.withSP_regionAt (s : State) (v : Nat) (a : Nat) : (s.withSP v).regionAt a = s.regionAt a := rfl
@[simp] theorem State.withSP_memSeg (s : State) (v : Nat) (m : Mem) : (s.withSP v).memSeg m = s.memSeg m := rfl

@[simp] theorem State.withEip_regs (s : State) (v : Nat) : (s.withEip v).regs = s.regs := rfl
@[simp] theorem State.withEip_eip (s : State) (v : Nat) : (s.withEip v).eip = BitVec.ofNat 32 v := rfl
@[simp] theorem State.withEip_flags (s : State) (v : Nat) : (s.withEip v).flags = s.flags := rfl
@[simp] theorem State.withEip_segs (s : State) (v : Nat) : (s.withEip v).segs = s.segs := rfl
@[simp] theorem State.withEip_gdtr (s : State) (v : Nat) : (s.withEip v).gdtr = s.gdtr := rfl
@[simp] theorem State.withEip_idtr (s : State) (v : Nat) : (s.withEip v).idtr = s.idtr := rfl
@[simp] theorem State.withEip_ldtr (s : State) (v : Nat) : (s.withEip v).ldtr = s.ldtr := rfl
@[simp] theorem State.withEip_tr (s : State) (v : Nat) : (s.withEip v).tr = s.tr := rfl
@[simp] theorem State.withEip_cpl (s : State) (v : Nat) : (s.withEip v).cpl = s.cpl := rfl
@[simp] theorem State.withEip_cr0 (s : State) (v : Nat) : (s.withEip v).cr0 = s.cr0 := rfl
@[simp] theorem State.withEip_cr2 (s : State) (v : Nat) : (s.withEip v).cr2 = s.cr2 := rfl
@[simp] theorem State.withEip_cr3 (s : State) (v : Nat) : (s.withEip v).cr3 = s.cr3 := rfl
@[simp] theorem State.withEip_dbg (s : State) (v : Nat) : (s.withEip v).dbg = s.dbg := rfl
@[simp] theorem State.withEip_test (s : State) (v : Nat) : (s.withEip v).test = s.test := rfl
@[simp] theorem State.withEip_fpu (s : State) (v : Nat) : (s.withEip v).fpu = s.fpu := rfl
@[simp] theorem State.withEip_cache (s : State) (v : Nat) : (s.withEip v).cache = s.cache := rfl
@[simp] theorem State.withEip_tlb (s : State) (v : Nat) : (s.withEip v).tlb = s.tlb := rfl
@[simp] theorem State.withEip_mem (s : State) (v : Nat) : (s.withEip v).mem = s.mem := rfl
@[simp] theorem State.withEip_latch (s : State) (v : Nat) : (s.withEip v).latch = s.latch := rfl
@[simp] theorem State.withEip_run (s : State) (v : Nat) : (s.withEip v).run = s.run := rfl
@[simp] theorem State.withEip_pins (s : State) (v : Nat) : (s.withEip v).pins = s.pins := rfl
@[simp] theorem State.withEip_inputs (s : State) (v : Nat) : (s.withEip v).inputs = s.inputs := rfl
@[simp] theorem State.withEip_regions (s : State) (v : Nat) : (s.withEip v).regions = s.regions := rfl
@[simp] theorem State.withEip_prefetch (s : State) (v : Nat) : (s.withEip v).prefetch = s.prefetch := rfl
@[simp] theorem State.withEip_bus (s : State) (v : Nat) : (s.withEip v).bus = s.bus := rfl
@[simp] theorem State.withEip_dec (s : State) (v : Nat) : (s.withEip v).dec = { s.dec with taken := true } := rfl
@[simp] theorem State.withEip_freeCtr (s : State) (v : Nat) : (s.withEip v).freeCtr = s.freeCtr := rfl
@[simp] theorem State.withEip_pe (s : State) (v : Nat) : (s.withEip v).pe = s.pe := rfl
@[simp] theorem State.withEip_mp (s : State) (v : Nat) : (s.withEip v).mp = s.mp := rfl
@[simp] theorem State.withEip_em (s : State) (v : Nat) : (s.withEip v).em = s.em := rfl
@[simp] theorem State.withEip_ts (s : State) (v : Nat) : (s.withEip v).ts = s.ts := rfl
@[simp] theorem State.withEip_ne (s : State) (v : Nat) : (s.withEip v).ne = s.ne := rfl
@[simp] theorem State.withEip_wp (s : State) (v : Nat) : (s.withEip v).wp = s.wp := rfl
@[simp] theorem State.withEip_am (s : State) (v : Nat) : (s.withEip v).am = s.am := rfl
@[simp] theorem State.withEip_nw (s : State) (v : Nat) : (s.withEip v).nw = s.nw := rfl
@[simp] theorem State.withEip_cd (s : State) (v : Nat) : (s.withEip v).cd = s.cd := rfl
@[simp] theorem State.withEip_pg (s : State) (v : Nat) : (s.withEip v).pg = s.pg := rfl
@[simp] theorem State.withEip_ssz (s : State) (v : Nat) : (s.withEip v).ssz = s.ssz := rfl
@[simp] theorem State.withEip_defaultSize (s : State) (v : Nat) : (s.withEip v).defaultSize = s.defaultSize := rfl
@[simp] theorem State.withEip_osz (s : State) (v : Nat) : (s.withEip v).osz = s.osz := rfl
@[simp] theorem State.withEip_asz (s : State) (v : Nat) : (s.withEip v).asz = s.asz := rfl
@[simp] theorem State.withEip_a20 (s : State) (v : Nat) (a : Nat) : (s.withEip v).a20 a = s.a20 a := rfl
@[simp] theorem State.withEip_regionAt (s : State) (v : Nat) (a : Nat) : (s.withEip v).regionAt a = s.regionAt a := rfl
@[simp] theorem State.withEip_memOff (s : State) (v : Nat) (m : Mem) : (s.withEip v).memOff m = s.memOff m := rfl
@[simp] theorem State.withEip_sp (s : State) (v : Nat) : (s.withEip v).sp = s.sp := rfl
@[simp] theorem State.withEip_spMinus (s : State) (v : Nat) (k : Nat) : (s.withEip v).spMinus k = s.spMinus k := rfl
@[simp] theorem State.withEip_memSeg (s : State) (v : Nat) (m : Mem) : (s.withEip v).memSeg m = s.memSeg m := rfl

@[simp] theorem State.transferred_regs (s : State) : (s.transferred).regs = s.regs := rfl
@[simp] theorem State.transferred_eip (s : State) : (s.transferred).eip = s.eip := rfl
@[simp] theorem State.transferred_flags (s : State) : (s.transferred).flags = s.flags := rfl
@[simp] theorem State.transferred_segs (s : State) : (s.transferred).segs = s.segs := rfl
@[simp] theorem State.transferred_gdtr (s : State) : (s.transferred).gdtr = s.gdtr := rfl
@[simp] theorem State.transferred_idtr (s : State) : (s.transferred).idtr = s.idtr := rfl
@[simp] theorem State.transferred_ldtr (s : State) : (s.transferred).ldtr = s.ldtr := rfl
@[simp] theorem State.transferred_tr (s : State) : (s.transferred).tr = s.tr := rfl
@[simp] theorem State.transferred_cpl (s : State) : (s.transferred).cpl = s.cpl := rfl
@[simp] theorem State.transferred_cr0 (s : State) : (s.transferred).cr0 = s.cr0 := rfl
@[simp] theorem State.transferred_cr2 (s : State) : (s.transferred).cr2 = s.cr2 := rfl
@[simp] theorem State.transferred_cr3 (s : State) : (s.transferred).cr3 = s.cr3 := rfl
@[simp] theorem State.transferred_dbg (s : State) : (s.transferred).dbg = s.dbg := rfl
@[simp] theorem State.transferred_test (s : State) : (s.transferred).test = s.test := rfl
@[simp] theorem State.transferred_fpu (s : State) : (s.transferred).fpu = s.fpu := rfl
@[simp] theorem State.transferred_cache (s : State) : (s.transferred).cache = s.cache := rfl
@[simp] theorem State.transferred_tlb (s : State) : (s.transferred).tlb = s.tlb := rfl
@[simp] theorem State.transferred_mem (s : State) : (s.transferred).mem = s.mem := rfl
@[simp] theorem State.transferred_latch (s : State) : (s.transferred).latch = s.latch := rfl
@[simp] theorem State.transferred_run (s : State) : (s.transferred).run = s.run := rfl
@[simp] theorem State.transferred_pins (s : State) : (s.transferred).pins = s.pins := rfl
@[simp] theorem State.transferred_inputs (s : State) : (s.transferred).inputs = s.inputs := rfl
@[simp] theorem State.transferred_regions (s : State) : (s.transferred).regions = s.regions := rfl
@[simp] theorem State.transferred_prefetch (s : State) : (s.transferred).prefetch = s.prefetch := rfl
@[simp] theorem State.transferred_bus (s : State) : (s.transferred).bus = s.bus := rfl
@[simp] theorem State.transferred_dec (s : State) : (s.transferred).dec = { s.dec with taken := true } := rfl
@[simp] theorem State.transferred_freeCtr (s : State) : (s.transferred).freeCtr = s.freeCtr := rfl
@[simp] theorem State.transferred_pe (s : State) : (s.transferred).pe = s.pe := rfl
@[simp] theorem State.transferred_mp (s : State) : (s.transferred).mp = s.mp := rfl
@[simp] theorem State.transferred_em (s : State) : (s.transferred).em = s.em := rfl
@[simp] theorem State.transferred_ts (s : State) : (s.transferred).ts = s.ts := rfl
@[simp] theorem State.transferred_ne (s : State) : (s.transferred).ne = s.ne := rfl
@[simp] theorem State.transferred_wp (s : State) : (s.transferred).wp = s.wp := rfl
@[simp] theorem State.transferred_am (s : State) : (s.transferred).am = s.am := rfl
@[simp] theorem State.transferred_nw (s : State) : (s.transferred).nw = s.nw := rfl
@[simp] theorem State.transferred_cd (s : State) : (s.transferred).cd = s.cd := rfl
@[simp] theorem State.transferred_pg (s : State) : (s.transferred).pg = s.pg := rfl
@[simp] theorem State.transferred_ssz (s : State) : (s.transferred).ssz = s.ssz := rfl
@[simp] theorem State.transferred_defaultSize (s : State) : (s.transferred).defaultSize = s.defaultSize := rfl
@[simp] theorem State.transferred_osz (s : State) : (s.transferred).osz = s.osz := rfl
@[simp] theorem State.transferred_asz (s : State) : (s.transferred).asz = s.asz := rfl
@[simp] theorem State.transferred_a20 (s : State) (a : Nat) : (s.transferred).a20 a = s.a20 a := rfl
@[simp] theorem State.transferred_regionAt (s : State) (a : Nat) : (s.transferred).regionAt a = s.regionAt a := rfl
@[simp] theorem State.transferred_memOff (s : State) (m : Mem) : (s.transferred).memOff m = s.memOff m := rfl
@[simp] theorem State.transferred_sp (s : State) : (s.transferred).sp = s.sp := rfl
@[simp] theorem State.transferred_spMinus (s : State) (k : Nat) : (s.transferred).spMinus k = s.spMinus k := rfl
@[simp] theorem State.transferred_memSeg (s : State) (m : Mem) : (s.transferred).memSeg m = s.memSeg m := rfl

@[simp] theorem State.drive_regs (s : State) (e : BusEvent) : (s.drive e).regs = s.regs := rfl
@[simp] theorem State.drive_eip (s : State) (e : BusEvent) : (s.drive e).eip = s.eip := rfl
@[simp] theorem State.drive_flags (s : State) (e : BusEvent) : (s.drive e).flags = s.flags := rfl
@[simp] theorem State.drive_segs (s : State) (e : BusEvent) : (s.drive e).segs = s.segs := rfl
@[simp] theorem State.drive_gdtr (s : State) (e : BusEvent) : (s.drive e).gdtr = s.gdtr := rfl
@[simp] theorem State.drive_idtr (s : State) (e : BusEvent) : (s.drive e).idtr = s.idtr := rfl
@[simp] theorem State.drive_ldtr (s : State) (e : BusEvent) : (s.drive e).ldtr = s.ldtr := rfl
@[simp] theorem State.drive_tr (s : State) (e : BusEvent) : (s.drive e).tr = s.tr := rfl
@[simp] theorem State.drive_cpl (s : State) (e : BusEvent) : (s.drive e).cpl = s.cpl := rfl
@[simp] theorem State.drive_cr0 (s : State) (e : BusEvent) : (s.drive e).cr0 = s.cr0 := rfl
@[simp] theorem State.drive_cr2 (s : State) (e : BusEvent) : (s.drive e).cr2 = s.cr2 := rfl
@[simp] theorem State.drive_cr3 (s : State) (e : BusEvent) : (s.drive e).cr3 = s.cr3 := rfl
@[simp] theorem State.drive_dbg (s : State) (e : BusEvent) : (s.drive e).dbg = s.dbg := rfl
@[simp] theorem State.drive_test (s : State) (e : BusEvent) : (s.drive e).test = s.test := rfl
@[simp] theorem State.drive_fpu (s : State) (e : BusEvent) : (s.drive e).fpu = s.fpu := rfl
@[simp] theorem State.drive_cache (s : State) (e : BusEvent) : (s.drive e).cache = s.cache := rfl
@[simp] theorem State.drive_tlb (s : State) (e : BusEvent) : (s.drive e).tlb = s.tlb := rfl
@[simp] theorem State.drive_mem (s : State) (e : BusEvent) : (s.drive e).mem = s.mem := rfl
@[simp] theorem State.drive_latch (s : State) (e : BusEvent) : (s.drive e).latch = s.latch := rfl
@[simp] theorem State.drive_run (s : State) (e : BusEvent) : (s.drive e).run = s.run := rfl
@[simp] theorem State.drive_pins (s : State) (e : BusEvent) : (s.drive e).pins = s.pins := rfl
@[simp] theorem State.drive_inputs (s : State) (e : BusEvent) : (s.drive e).inputs = s.inputs := rfl
@[simp] theorem State.drive_regions (s : State) (e : BusEvent) : (s.drive e).regions = s.regions := rfl
@[simp] theorem State.drive_prefetch (s : State) (e : BusEvent) : (s.drive e).prefetch = s.prefetch := rfl
@[simp] theorem State.drive_bus (s : State) (e : BusEvent) : (s.drive e).bus = { event := e, attr := s.cr3Attr } :: s.bus := rfl
@[simp] theorem State.drive_dec (s : State) (e : BusEvent) : (s.drive e).dec = s.dec := rfl
@[simp] theorem State.drive_freeCtr (s : State) (e : BusEvent) : (s.drive e).freeCtr = s.freeCtr := rfl
@[simp] theorem State.drive_pe (s : State) (e : BusEvent) : (s.drive e).pe = s.pe := rfl
@[simp] theorem State.drive_mp (s : State) (e : BusEvent) : (s.drive e).mp = s.mp := rfl
@[simp] theorem State.drive_em (s : State) (e : BusEvent) : (s.drive e).em = s.em := rfl
@[simp] theorem State.drive_ts (s : State) (e : BusEvent) : (s.drive e).ts = s.ts := rfl
@[simp] theorem State.drive_ne (s : State) (e : BusEvent) : (s.drive e).ne = s.ne := rfl
@[simp] theorem State.drive_wp (s : State) (e : BusEvent) : (s.drive e).wp = s.wp := rfl
@[simp] theorem State.drive_am (s : State) (e : BusEvent) : (s.drive e).am = s.am := rfl
@[simp] theorem State.drive_nw (s : State) (e : BusEvent) : (s.drive e).nw = s.nw := rfl
@[simp] theorem State.drive_cd (s : State) (e : BusEvent) : (s.drive e).cd = s.cd := rfl
@[simp] theorem State.drive_pg (s : State) (e : BusEvent) : (s.drive e).pg = s.pg := rfl
@[simp] theorem State.drive_ssz (s : State) (e : BusEvent) : (s.drive e).ssz = s.ssz := rfl
@[simp] theorem State.drive_defaultSize (s : State) (e : BusEvent) : (s.drive e).defaultSize = s.defaultSize := rfl
@[simp] theorem State.drive_osz (s : State) (e : BusEvent) : (s.drive e).osz = s.osz := rfl
@[simp] theorem State.drive_asz (s : State) (e : BusEvent) : (s.drive e).asz = s.asz := rfl
@[simp] theorem State.drive_a20 (s : State) (e : BusEvent) (a : Nat) : (s.drive e).a20 a = s.a20 a := rfl
@[simp] theorem State.drive_regionAt (s : State) (e : BusEvent) (a : Nat) : (s.drive e).regionAt a = s.regionAt a := rfl
@[simp] theorem State.drive_memOff (s : State) (e : BusEvent) (m : Mem) : (s.drive e).memOff m = s.memOff m := rfl
@[simp] theorem State.drive_sp (s : State) (e : BusEvent) : (s.drive e).sp = s.sp := rfl
@[simp] theorem State.drive_spMinus (s : State) (e : BusEvent) (k : Nat) : (s.drive e).spMinus k = s.spMinus k := rfl
@[simp] theorem State.drive_memSeg (s : State) (e : BusEvent) (m : Mem) : (s.drive e).memSeg m = s.memSeg m := rfl

/-- What the acknowledge cycles do: two bus cycles and nothing else. -/
@[simp] theorem State.acknowledge_eq (s : State) (v : Byte) :
    s.acknowledge v = (s.drive (.intAck 4 none)).drive (.intAck 0 (some v)) := rfl

@[simp] theorem State.runCycle_regs (s : State) (e : BusEvent) (x : Attr) : (s.runCycle e x).regs = s.regs := rfl
@[simp] theorem State.runCycle_eip (s : State) (e : BusEvent) (x : Attr) : (s.runCycle e x).eip = s.eip := rfl
@[simp] theorem State.runCycle_flags (s : State) (e : BusEvent) (x : Attr) : (s.runCycle e x).flags = s.flags := rfl
@[simp] theorem State.runCycle_segs (s : State) (e : BusEvent) (x : Attr) : (s.runCycle e x).segs = s.segs := rfl
@[simp] theorem State.runCycle_gdtr (s : State) (e : BusEvent) (x : Attr) : (s.runCycle e x).gdtr = s.gdtr := rfl
@[simp] theorem State.runCycle_idtr (s : State) (e : BusEvent) (x : Attr) : (s.runCycle e x).idtr = s.idtr := rfl
@[simp] theorem State.runCycle_ldtr (s : State) (e : BusEvent) (x : Attr) : (s.runCycle e x).ldtr = s.ldtr := rfl
@[simp] theorem State.runCycle_tr (s : State) (e : BusEvent) (x : Attr) : (s.runCycle e x).tr = s.tr := rfl
@[simp] theorem State.runCycle_cpl (s : State) (e : BusEvent) (x : Attr) : (s.runCycle e x).cpl = s.cpl := rfl
@[simp] theorem State.runCycle_cr0 (s : State) (e : BusEvent) (x : Attr) : (s.runCycle e x).cr0 = s.cr0 := rfl
@[simp] theorem State.runCycle_cr2 (s : State) (e : BusEvent) (x : Attr) : (s.runCycle e x).cr2 = s.cr2 := rfl
@[simp] theorem State.runCycle_cr3 (s : State) (e : BusEvent) (x : Attr) : (s.runCycle e x).cr3 = s.cr3 := rfl
@[simp] theorem State.runCycle_dbg (s : State) (e : BusEvent) (x : Attr) : (s.runCycle e x).dbg = s.dbg := rfl
@[simp] theorem State.runCycle_test (s : State) (e : BusEvent) (x : Attr) : (s.runCycle e x).test = s.test := rfl
@[simp] theorem State.runCycle_fpu (s : State) (e : BusEvent) (x : Attr) : (s.runCycle e x).fpu = s.fpu := rfl
@[simp] theorem State.runCycle_cache (s : State) (e : BusEvent) (x : Attr) : (s.runCycle e x).cache = s.cache := rfl
@[simp] theorem State.runCycle_tlb (s : State) (e : BusEvent) (x : Attr) : (s.runCycle e x).tlb = s.tlb := rfl
@[simp] theorem State.runCycle_mem (s : State) (e : BusEvent) (x : Attr) : (s.runCycle e x).mem = s.mem := rfl
@[simp] theorem State.runCycle_latch (s : State) (e : BusEvent) (x : Attr) : (s.runCycle e x).latch = s.latch := rfl
@[simp] theorem State.runCycle_run (s : State) (e : BusEvent) (x : Attr) : (s.runCycle e x).run = s.run := rfl
@[simp] theorem State.runCycle_pins (s : State) (e : BusEvent) (x : Attr) : (s.runCycle e x).pins = s.pins := rfl
@[simp] theorem State.runCycle_inputs (s : State) (e : BusEvent) (x : Attr) : (s.runCycle e x).inputs = s.inputs := rfl
@[simp] theorem State.runCycle_regions (s : State) (e : BusEvent) (x : Attr) : (s.runCycle e x).regions = s.regions := rfl
@[simp] theorem State.runCycle_prefetch (s : State) (e : BusEvent) (x : Attr) : (s.runCycle e x).prefetch = s.prefetch := rfl
@[simp] theorem State.runCycle_bus (s : State) (e : BusEvent) (x : Attr) : (s.runCycle e x).bus = { event := e, attr := x } :: s.bus := rfl
@[simp] theorem State.runCycle_dec (s : State) (e : BusEvent) (x : Attr) : (s.runCycle e x).dec = s.dec := rfl
@[simp] theorem State.runCycle_freeCtr (s : State) (e : BusEvent) (x : Attr) : (s.runCycle e x).freeCtr = s.freeCtr := rfl
@[simp] theorem State.runCycle_pe (s : State) (e : BusEvent) (x : Attr) : (s.runCycle e x).pe = s.pe := rfl
@[simp] theorem State.runCycle_mp (s : State) (e : BusEvent) (x : Attr) : (s.runCycle e x).mp = s.mp := rfl
@[simp] theorem State.runCycle_em (s : State) (e : BusEvent) (x : Attr) : (s.runCycle e x).em = s.em := rfl
@[simp] theorem State.runCycle_ts (s : State) (e : BusEvent) (x : Attr) : (s.runCycle e x).ts = s.ts := rfl
@[simp] theorem State.runCycle_ne (s : State) (e : BusEvent) (x : Attr) : (s.runCycle e x).ne = s.ne := rfl
@[simp] theorem State.runCycle_wp (s : State) (e : BusEvent) (x : Attr) : (s.runCycle e x).wp = s.wp := rfl
@[simp] theorem State.runCycle_am (s : State) (e : BusEvent) (x : Attr) : (s.runCycle e x).am = s.am := rfl
@[simp] theorem State.runCycle_nw (s : State) (e : BusEvent) (x : Attr) : (s.runCycle e x).nw = s.nw := rfl
@[simp] theorem State.runCycle_cd (s : State) (e : BusEvent) (x : Attr) : (s.runCycle e x).cd = s.cd := rfl
@[simp] theorem State.runCycle_pg (s : State) (e : BusEvent) (x : Attr) : (s.runCycle e x).pg = s.pg := rfl
@[simp] theorem State.runCycle_ssz (s : State) (e : BusEvent) (x : Attr) : (s.runCycle e x).ssz = s.ssz := rfl
@[simp] theorem State.runCycle_defaultSize (s : State) (e : BusEvent) (x : Attr) : (s.runCycle e x).defaultSize = s.defaultSize := rfl
@[simp] theorem State.runCycle_osz (s : State) (e : BusEvent) (x : Attr) : (s.runCycle e x).osz = s.osz := rfl
@[simp] theorem State.runCycle_asz (s : State) (e : BusEvent) (x : Attr) : (s.runCycle e x).asz = s.asz := rfl
@[simp] theorem State.runCycle_a20 (s : State) (e : BusEvent) (x : Attr) (a : Nat) : (s.runCycle e x).a20 a = s.a20 a := rfl
@[simp] theorem State.runCycle_regionAt (s : State) (e : BusEvent) (x : Attr) (a : Nat) : (s.runCycle e x).regionAt a = s.regionAt a := rfl
@[simp] theorem State.runCycle_memOff (s : State) (e : BusEvent) (x : Attr) (m : Mem) : (s.runCycle e x).memOff m = s.memOff m := rfl
@[simp] theorem State.runCycle_sp (s : State) (e : BusEvent) (x : Attr) : (s.runCycle e x).sp = s.sp := rfl
@[simp] theorem State.runCycle_spMinus (s : State) (e : BusEvent) (x : Attr) (k : Nat) : (s.runCycle e x).spMinus k = s.spMinus k := rfl
@[simp] theorem State.runCycle_memSeg (s : State) (e : BusEvent) (x : Attr) (m : Mem) : (s.runCycle e x).memSeg m = s.memSeg m := rfl

@[simp] theorem State.withSeg_regs (s : State) (n : SegName) (v : SegReg) : (s.withSeg n v).regs = s.regs := rfl
@[simp] theorem State.withSeg_eip (s : State) (n : SegName) (v : SegReg) : (s.withSeg n v).eip = s.eip := rfl
@[simp] theorem State.withSeg_flags (s : State) (n : SegName) (v : SegReg) : (s.withSeg n v).flags = s.flags := rfl
@[simp] theorem State.withSeg_segs (s : State) (n : SegName) (v : SegReg) : (s.withSeg n v).segs = s.segs.set n v := rfl
@[simp] theorem State.withSeg_gdtr (s : State) (n : SegName) (v : SegReg) : (s.withSeg n v).gdtr = s.gdtr := rfl
@[simp] theorem State.withSeg_idtr (s : State) (n : SegName) (v : SegReg) : (s.withSeg n v).idtr = s.idtr := rfl
@[simp] theorem State.withSeg_ldtr (s : State) (n : SegName) (v : SegReg) : (s.withSeg n v).ldtr = s.ldtr := rfl
@[simp] theorem State.withSeg_tr (s : State) (n : SegName) (v : SegReg) : (s.withSeg n v).tr = s.tr := rfl
@[simp] theorem State.withSeg_cpl (s : State) (n : SegName) (v : SegReg) : (s.withSeg n v).cpl = s.cpl := rfl
@[simp] theorem State.withSeg_cr0 (s : State) (n : SegName) (v : SegReg) : (s.withSeg n v).cr0 = s.cr0 := rfl
@[simp] theorem State.withSeg_cr2 (s : State) (n : SegName) (v : SegReg) : (s.withSeg n v).cr2 = s.cr2 := rfl
@[simp] theorem State.withSeg_cr3 (s : State) (n : SegName) (v : SegReg) : (s.withSeg n v).cr3 = s.cr3 := rfl
@[simp] theorem State.withSeg_dbg (s : State) (n : SegName) (v : SegReg) : (s.withSeg n v).dbg = s.dbg := rfl
@[simp] theorem State.withSeg_test (s : State) (n : SegName) (v : SegReg) : (s.withSeg n v).test = s.test := rfl
@[simp] theorem State.withSeg_fpu (s : State) (n : SegName) (v : SegReg) : (s.withSeg n v).fpu = s.fpu := rfl
@[simp] theorem State.withSeg_cache (s : State) (n : SegName) (v : SegReg) : (s.withSeg n v).cache = s.cache := rfl
@[simp] theorem State.withSeg_tlb (s : State) (n : SegName) (v : SegReg) : (s.withSeg n v).tlb = s.tlb := rfl
@[simp] theorem State.withSeg_mem (s : State) (n : SegName) (v : SegReg) : (s.withSeg n v).mem = s.mem := rfl
@[simp] theorem State.withSeg_latch (s : State) (n : SegName) (v : SegReg) : (s.withSeg n v).latch = s.latch := rfl
@[simp] theorem State.withSeg_run (s : State) (n : SegName) (v : SegReg) : (s.withSeg n v).run = s.run := rfl
@[simp] theorem State.withSeg_pins (s : State) (n : SegName) (v : SegReg) : (s.withSeg n v).pins = s.pins := rfl
@[simp] theorem State.withSeg_inputs (s : State) (n : SegName) (v : SegReg) : (s.withSeg n v).inputs = s.inputs := rfl
@[simp] theorem State.withSeg_regions (s : State) (n : SegName) (v : SegReg) : (s.withSeg n v).regions = s.regions := rfl
@[simp] theorem State.withSeg_prefetch (s : State) (n : SegName) (v : SegReg) : (s.withSeg n v).prefetch = s.prefetch := rfl
@[simp] theorem State.withSeg_bus (s : State) (n : SegName) (v : SegReg) : (s.withSeg n v).bus = s.bus := rfl
@[simp] theorem State.withSeg_dec (s : State) (n : SegName) (v : SegReg) : (s.withSeg n v).dec = s.dec := rfl
@[simp] theorem State.withSeg_freeCtr (s : State) (n : SegName) (v : SegReg) : (s.withSeg n v).freeCtr = s.freeCtr := rfl
@[simp] theorem State.withSeg_pe (s : State) (n : SegName) (v : SegReg) : (s.withSeg n v).pe = s.pe := rfl
@[simp] theorem State.withSeg_mp (s : State) (n : SegName) (v : SegReg) : (s.withSeg n v).mp = s.mp := rfl
@[simp] theorem State.withSeg_em (s : State) (n : SegName) (v : SegReg) : (s.withSeg n v).em = s.em := rfl
@[simp] theorem State.withSeg_ts (s : State) (n : SegName) (v : SegReg) : (s.withSeg n v).ts = s.ts := rfl
@[simp] theorem State.withSeg_ne (s : State) (n : SegName) (v : SegReg) : (s.withSeg n v).ne = s.ne := rfl
@[simp] theorem State.withSeg_wp (s : State) (n : SegName) (v : SegReg) : (s.withSeg n v).wp = s.wp := rfl
@[simp] theorem State.withSeg_am (s : State) (n : SegName) (v : SegReg) : (s.withSeg n v).am = s.am := rfl
@[simp] theorem State.withSeg_nw (s : State) (n : SegName) (v : SegReg) : (s.withSeg n v).nw = s.nw := rfl
@[simp] theorem State.withSeg_cd (s : State) (n : SegName) (v : SegReg) : (s.withSeg n v).cd = s.cd := rfl
@[simp] theorem State.withSeg_pg (s : State) (n : SegName) (v : SegReg) : (s.withSeg n v).pg = s.pg := rfl
@[simp] theorem State.withSeg_a20 (s : State) (n : SegName) (v : SegReg) (a : Nat) : (s.withSeg n v).a20 a = s.a20 a := rfl
@[simp] theorem State.withSeg_regionAt (s : State) (n : SegName) (v : SegReg) (a : Nat) : (s.withSeg n v).regionAt a = s.regionAt a := rfl
@[simp] theorem State.withSeg_memOff (s : State) (n : SegName) (v : SegReg) (m : Mem) : (s.withSeg n v).memOff m = s.memOff m := rfl
@[simp] theorem State.withSeg_memSeg (s : State) (n : SegName) (v : SegReg) (m : Mem) : (s.withSeg n v).memSeg m = s.memSeg m := rfl

@[simp] theorem State.withFpu_regs (s : State) (f : Fpu) : (s.withFpu f).regs = s.regs := rfl
@[simp] theorem State.withFpu_eip (s : State) (f : Fpu) : (s.withFpu f).eip = s.eip := rfl
@[simp] theorem State.withFpu_flags (s : State) (f : Fpu) : (s.withFpu f).flags = s.flags := rfl
@[simp] theorem State.withFpu_segs (s : State) (f : Fpu) : (s.withFpu f).segs = s.segs := rfl
@[simp] theorem State.withFpu_gdtr (s : State) (f : Fpu) : (s.withFpu f).gdtr = s.gdtr := rfl
@[simp] theorem State.withFpu_idtr (s : State) (f : Fpu) : (s.withFpu f).idtr = s.idtr := rfl
@[simp] theorem State.withFpu_ldtr (s : State) (f : Fpu) : (s.withFpu f).ldtr = s.ldtr := rfl
@[simp] theorem State.withFpu_tr (s : State) (f : Fpu) : (s.withFpu f).tr = s.tr := rfl
@[simp] theorem State.withFpu_cpl (s : State) (f : Fpu) : (s.withFpu f).cpl = s.cpl := rfl
@[simp] theorem State.withFpu_cr0 (s : State) (f : Fpu) : (s.withFpu f).cr0 = s.cr0 := rfl
@[simp] theorem State.withFpu_cr2 (s : State) (f : Fpu) : (s.withFpu f).cr2 = s.cr2 := rfl
@[simp] theorem State.withFpu_cr3 (s : State) (f : Fpu) : (s.withFpu f).cr3 = s.cr3 := rfl
@[simp] theorem State.withFpu_dbg (s : State) (f : Fpu) : (s.withFpu f).dbg = s.dbg := rfl
@[simp] theorem State.withFpu_test (s : State) (f : Fpu) : (s.withFpu f).test = s.test := rfl
@[simp] theorem State.withFpu_fpu (s : State) (f : Fpu) : (s.withFpu f).fpu = f := rfl
@[simp] theorem State.withFpu_cache (s : State) (f : Fpu) : (s.withFpu f).cache = s.cache := rfl
@[simp] theorem State.withFpu_tlb (s : State) (f : Fpu) : (s.withFpu f).tlb = s.tlb := rfl
@[simp] theorem State.withFpu_mem (s : State) (f : Fpu) : (s.withFpu f).mem = s.mem := rfl
@[simp] theorem State.withFpu_latch (s : State) (f : Fpu) : (s.withFpu f).latch = s.latch := rfl
@[simp] theorem State.withFpu_run (s : State) (f : Fpu) : (s.withFpu f).run = s.run := rfl
@[simp] theorem State.withFpu_pins (s : State) (f : Fpu) : (s.withFpu f).pins = s.pins := rfl
@[simp] theorem State.withFpu_inputs (s : State) (f : Fpu) : (s.withFpu f).inputs = s.inputs := rfl
@[simp] theorem State.withFpu_regions (s : State) (f : Fpu) : (s.withFpu f).regions = s.regions := rfl
@[simp] theorem State.withFpu_prefetch (s : State) (f : Fpu) : (s.withFpu f).prefetch = s.prefetch := rfl
@[simp] theorem State.withFpu_bus (s : State) (f : Fpu) : (s.withFpu f).bus = s.bus := rfl
@[simp] theorem State.withFpu_dec (s : State) (f : Fpu) : (s.withFpu f).dec = s.dec := rfl
@[simp] theorem State.withFpu_freeCtr (s : State) (f : Fpu) : (s.withFpu f).freeCtr = s.freeCtr := rfl
@[simp] theorem State.withFpu_pe (s : State) (f : Fpu) : (s.withFpu f).pe = s.pe := rfl
@[simp] theorem State.withFpu_mp (s : State) (f : Fpu) : (s.withFpu f).mp = s.mp := rfl
@[simp] theorem State.withFpu_em (s : State) (f : Fpu) : (s.withFpu f).em = s.em := rfl
@[simp] theorem State.withFpu_ts (s : State) (f : Fpu) : (s.withFpu f).ts = s.ts := rfl
@[simp] theorem State.withFpu_ne (s : State) (f : Fpu) : (s.withFpu f).ne = s.ne := rfl
@[simp] theorem State.withFpu_wp (s : State) (f : Fpu) : (s.withFpu f).wp = s.wp := rfl
@[simp] theorem State.withFpu_am (s : State) (f : Fpu) : (s.withFpu f).am = s.am := rfl
@[simp] theorem State.withFpu_nw (s : State) (f : Fpu) : (s.withFpu f).nw = s.nw := rfl
@[simp] theorem State.withFpu_cd (s : State) (f : Fpu) : (s.withFpu f).cd = s.cd := rfl
@[simp] theorem State.withFpu_pg (s : State) (f : Fpu) : (s.withFpu f).pg = s.pg := rfl
@[simp] theorem State.withFpu_ssz (s : State) (f : Fpu) : (s.withFpu f).ssz = s.ssz := rfl
@[simp] theorem State.withFpu_defaultSize (s : State) (f : Fpu) : (s.withFpu f).defaultSize = s.defaultSize := rfl
@[simp] theorem State.withFpu_osz (s : State) (f : Fpu) : (s.withFpu f).osz = s.osz := rfl
@[simp] theorem State.withFpu_asz (s : State) (f : Fpu) : (s.withFpu f).asz = s.asz := rfl
@[simp] theorem State.withFpu_a20 (s : State) (f : Fpu) (a : Nat) : (s.withFpu f).a20 a = s.a20 a := rfl
@[simp] theorem State.withFpu_regionAt (s : State) (f : Fpu) (a : Nat) : (s.withFpu f).regionAt a = s.regionAt a := rfl
@[simp] theorem State.withFpu_memOff (s : State) (f : Fpu) (m : Mem) : (s.withFpu f).memOff m = s.memOff m := rfl
@[simp] theorem State.withFpu_sp (s : State) (f : Fpu) : (s.withFpu f).sp = s.sp := rfl
@[simp] theorem State.withFpu_spMinus (s : State) (f : Fpu) (k : Nat) : (s.withFpu f).spMinus k = s.spMinus k := rfl
@[simp] theorem State.withFpu_memSeg (s : State) (f : Fpu) (m : Mem) : (s.withFpu f).memSeg m = s.memSeg m := rfl

end Sys2Proof.Machine
end

