-- ==== Sys2Proof/Laws/Monad.lean ====
section
/-! SUPPORT. How meanings run: the equations of the monad, of the small operations, and of `runInstr`, so that no proof
unfolds them. -/
namespace Sys2Proof.Machine

/-! ### The monad -/

@[simp] theorem M.bind_run {α β : Type} (x : M α) (f : α → M β) (s : State) :
    (x >>= f) s = match x s with
      | .ok a t => f a t
      | .error e t => .error e t := by
  show EStateM.bind x f s = _
  unfold EStateM.bind
  cases x s <;> rfl

@[simp] theorem M.map_run {α β : Type} (f : α → β) (x : M α) (s : State) :
    (f <$> x) s = match x s with
      | .ok a t => .ok (f a) t
      | .error e t => .error e t := by
  show EStateM.map f x s = _
  unfold EStateM.map
  cases x s <;> rfl

@[simp] theorem M.pure_run {α : Type} (a : α) (s : State) : (pure a : M α) s = .ok a s := rfl
@[simp] theorem M.get_run (s : State) : (get : M State) s = .ok s s := rfl
@[simp] theorem M.set_run (t s : State) : (set t : M PUnit) s = .ok () t := rfl
@[simp] theorem M.modify_run (f : State → State) (s : State) : (modify f : M PUnit) s = .ok () (f s) := rfl
@[simp] theorem M.throw_run {α : Type} (e : Stop) (s : State) : (throw e : M α) s = .error e s := rfl
@[simp] theorem M.ite_run {α : Type} (c : Prop) [Decidable c] (x y : M α) (s : State) :
    (if c then x else y) s = if c then x s else y s := by split <;> rfl

/-! ### Exceptions raised -/

@[simp] theorem raise_run {α : Type} (v : Byte) (c : Option Word) (k : ExnClass) (s : State) :
    (raise v c k : M α) s = .error (.exn { vector := v, code := c, cls := k }) s := rfl
@[simp] theorem raiseGP_run {α : Type} (c : Word) (s : State) :
    (raiseGP c : M α) s = .error (.exn { vector := 13, code := some c, cls := .fault }) s := rfl
@[simp] theorem raiseSS_run {α : Type} (c : Word) (s : State) :
    (raiseSS c : M α) s = .error (.exn { vector := 12, code := some c, cls := .fault }) s := rfl
@[simp] theorem raiseNP_run {α : Type} (c : Word) (s : State) :
    (raiseNP c : M α) s = .error (.exn { vector := 11, code := some c, cls := .fault }) s := rfl
@[simp] theorem raiseTS_run {α : Type} (c : Word) (s : State) :
    (raiseTS c : M α) s = .error (.exn { vector := 10, code := some c, cls := .fault }) s := rfl
@[simp] theorem raiseUD_run {α : Type} (s : State) :
    (raiseUD : M α) s = .error (.exn { vector := 6, code := none, cls := .fault }) s := rfl
@[simp] theorem raiseDE_run {α : Type} (s : State) :
    (raiseDE : M α) s = .error (.exn { vector := 0, code := none, cls := .fault }) s := rfl
@[simp] theorem raiseNM_run {α : Type} (s : State) :
    (raiseNM : M α) s = .error (.exn { vector := 7, code := none, cls := .fault }) s := rfl
@[simp] theorem raiseAC_run {α : Type} (s : State) :
    (raiseAC : M α) s = .error (.exn { vector := 17, code := some 0, cls := .fault }) s := rfl

/-! ### Small operations -/

@[simp] theorem fresh_run (s : State) : fresh s = .ok s.draw s.drawn := rfl
@[simp] theorem freshBool_run (s : State) : freshBool s = .ok (s.draw.getLsbD 0) s.drawn := rfl
@[simp] theorem getReg_run (w : Width) (n : RegNum) (s : State) : getReg w n s = .ok (s.regs.read w n) s := rfl
@[simp] theorem setReg_run (w : Width) (n : RegNum) (v : Nat) (s : State) : setReg w n v s = .ok () (s.withReg w n v) := rfl
@[simp] theorem modFlags_run (f : Flags → Flags) (s : State) : modFlags f s = .ok () (s.withFlags (f s.flags)) := rfl
@[simp] theorem getWidth_run (s : State) : getWidth s = .ok s.osz.width s := rfl
@[simp] theorem setSP_run (v : Nat) (s : State) : setSP v s = .ok () (s.withSP v) := rfl
@[simp] theorem setEip_run (t : Nat) (s : State) : setEip t s = .ok () (s.withEip t) := rfl
@[simp] theorem setSeg_run (n : SegName) (v : SegReg) (s : State) : setSeg n v s = .ok () (s.withSeg n v) := rfl
@[simp] theorem getCarry_run (s : State) : getCarry s = .ok (carry s.flags.cf) s := rfl
@[simp] theorem getIndex_run (r : RegNum) (s : State) : getIndex r s = .ok (s.regs.read s.asz.width r) s := rfl
@[simp] theorem modFpu_run (g : Fpu → Fpu) (s : State) : modFpu g s = .ok () (s.withFpu (g s.fpu)) := rfl
@[simp] theorem setShadow_run (s : State) :
    setShadow s = .ok () { s with latch := { s.latch with shadow := .held } } := rfl
@[simp] theorem busEvent_run (e : BusEvent) (s : State) : busEvent e s = .ok () (s.drive e) := rfl

theorem requireCpl0_ok {s : State} (h : s.Privileged) : requireCpl0 s = .ok () s := by
  unfold requireCpl0
  rw [if_neg (by rw [show (s.pe && s.cpl != 0) = false from h]; decide)]

theorem requireIopl_ok {s : State} (h : s.IoPrivileged) : requireIopl s = .ok () s := by
  unfold requireIopl
  rw [if_neg (by rw [show (s.pe && decide (s.flags.iopl < s.cpl)) = false from h]; decide)]

theorem requireProtected_ok {s : State} (h : s.pe = true) : requireProtected s = .ok () s := by
  simp [requireProtected, h]

theorem pendingCheck_ok {s : State} (h : s.NoFpuError) : pendingCheck s = .ok () s := by
  rcases h with h | ⟨h1, h2⟩ <;> simp [pendingCheck, *]

@[simp] theorem readRm_reg (w : Width) (r : RegNum) (s : State) : readRm w (.reg r) s = .ok (s.regs.read w r) s := rfl
@[simp] theorem readRm_mem (w : Width) (m : Mem) : readRm w (.mem m) = loadMem m 0 w.bytes w.bytes := rfl

/-! ### Writes -/

theorem writeBytes_run (ps : List BytePlace) (v : Nat) (s : State) : writeBytes ps v s = .ok () (s.wrote ps v) := rfl

theorem writeAll_run (pss : List (List BytePlace)) (vs : List Nat) (s : State) :
    writeAll pss vs s = .ok () (s.wroteAll pss vs) := by
  induction pss generalizing vs s with
  | nil => rfl
  | cons p pss ih =>
    cases vs with
    | nil => rfl
    | cons v vs => simp [writeAll, writeBytes_run, ih, State.wroteAll]

/-! ### Running an instruction -/

/-- A body that ends well: the next state. -/
theorem runInstr_ok {l k : Bool} {body : M Unit} {s t : State} (h : s.Ready l) (hb : body s.begin = .ok () t) :
    runInstr l k body s = .next (t.complete k) := by
  simp [runInstr, h.1, h.2, hb]

/-- A body that raises an exception: it is delivered at the instruction's first byte. -/
theorem runInstr_exn {l k : Bool} {body : M Unit} {s t : State} {e : Exn} (h : s.Ready l)
    (hb : body s.begin = .error (.exn e) t) : runInstr l k body s = deliverExn e (rollback s t).abandon := by
  simp [runInstr, h.1, h.2, hb]

/-- LOCK on a form that does not take it: #UD (30_encoding R275). -/
theorem runInstr_locked {k : Bool} {body : M Unit} {s : State} (hv : (s.pe && s.flags.vm) = false)
    (hl : s.dec.lock = true) :
    runInstr false k body s = deliverExn { vector := 6, code := none, cls := .fault } (rollback s s.begin).abandon := by
  simp [runInstr, hv, hl]

end Sys2Proof.Machine
end

