-- ==== Sys2Proof/Laws/Access.lean ====
section
/-! SUPPORT. What a memory access can do: the frames of address translation, reads, writes, and of the checks before
them. -/
namespace Sys2Proof.Machine

/-- A computation that ends well ends well in each part. -/
theorem M.bind_ok {α β : Type} {x : M α} {f : α → M β} {s t : State} {b : β} :
    (x >>= f) s = .ok b t ↔ ∃ a u, x s = .ok a u ∧ f a u = .ok b t := by
  rw [M.bind_run]
  cases x s with
  | ok a u => simp
  | error e u => simp

/-! ### The frame of a read -/

/-- The first half of `State.Reads`: what may change. -/
def State.Touches (s t : State) : Prop :=
  t = { s with cache := t.cache, tlb := t.tlb, mem := t.mem, bus := t.bus, freeCtr := t.freeCtr
               latch := { s.latch with dataBreak := t.latch.dataBreak } }

theorem State.Touches.refl (s : State) : s.Touches s := rfl

theorem State.Touches.trans {s t u : State} (h : s.Touches t) (k : t.Touches u) : s.Touches u := by
  unfold State.Touches at *
  rw [k, h]

theorem State.OnlyReads.refl (s : State) : s.OnlyReads s := ⟨[], rfl, by simp⟩

/-- A bus log that did not change holds no new write. -/
theorem State.OnlyReads.of_bus {s t : State} (h : t.bus = s.bus) : s.OnlyReads t := ⟨[], h, by simp⟩

theorem State.OnlyReads.trans {s t u : State} (h : s.OnlyReads t) (k : t.OnlyReads u) : s.OnlyReads u := by
  obtain ⟨cs, hb, hr⟩ := h
  obtain ⟨ds, kb, kr⟩ := k
  refine ⟨ds ++ cs, by rw [kb, hb, List.append_assoc], fun c hc => ?_⟩
  rcases List.mem_append.1 hc with hc | hc
  · exact kr c hc
  · exact hr c hc

theorem State.Reads.refl (s : State) : s.Reads s := ⟨rfl, fun _ => ⟨rfl, rfl, .refl s⟩⟩

theorem State.Reads.trans {s t u : State} (h : s.Reads t) (k : t.Reads u) : s.Reads u := by
  refine ⟨State.Touches.trans h.1 k.1, fun hp => ?_⟩
  have ht : t.pg = false := by rw [h.1]; exact hp
  obtain ⟨a, b, c⟩ := h.2 hp
  obtain ⟨a', b', c'⟩ := k.2 ht
  exact ⟨a'.trans a, b'.trans b, c.trans c'⟩

theorem State.Reads.touches {s t : State} (h : s.Reads t) : s.Touches t := h.1

theorem State.Reads.regs {s t : State} (h : s.Reads t) : t.regs = s.regs := by rw [h.1]
theorem State.Reads.eip {s t : State} (h : s.Reads t) : t.eip = s.eip := by rw [h.1]
theorem State.Reads.flags {s t : State} (h : s.Reads t) : t.flags = s.flags := by rw [h.1]
theorem State.Reads.segs {s t : State} (h : s.Reads t) : t.segs = s.segs := by rw [h.1]
theorem State.Reads.gdtr {s t : State} (h : s.Reads t) : t.gdtr = s.gdtr := by rw [h.1]
theorem State.Reads.idtr {s t : State} (h : s.Reads t) : t.idtr = s.idtr := by rw [h.1]
theorem State.Reads.ldtr {s t : State} (h : s.Reads t) : t.ldtr = s.ldtr := by rw [h.1]
theorem State.Reads.tr {s t : State} (h : s.Reads t) : t.tr = s.tr := by rw [h.1]
theorem State.Reads.cpl {s t : State} (h : s.Reads t) : t.cpl = s.cpl := by rw [h.1]
theorem State.Reads.cr0 {s t : State} (h : s.Reads t) : t.cr0 = s.cr0 := by rw [h.1]
theorem State.Reads.cr2 {s t : State} (h : s.Reads t) : t.cr2 = s.cr2 := by rw [h.1]
theorem State.Reads.cr3 {s t : State} (h : s.Reads t) : t.cr3 = s.cr3 := by rw [h.1]
theorem State.Reads.dbg {s t : State} (h : s.Reads t) : t.dbg = s.dbg := by rw [h.1]
theorem State.Reads.test {s t : State} (h : s.Reads t) : t.test = s.test := by rw [h.1]
theorem State.Reads.fpu {s t : State} (h : s.Reads t) : t.fpu = s.fpu := by rw [h.1]
theorem State.Reads.run {s t : State} (h : s.Reads t) : t.run = s.run := by rw [h.1]
theorem State.Reads.pins {s t : State} (h : s.Reads t) : t.pins = s.pins := by rw [h.1]
theorem State.Reads.regions {s t : State} (h : s.Reads t) : t.regions = s.regions := by rw [h.1]
theorem State.Reads.dec {s t : State} (h : s.Reads t) : t.dec = s.dec := by rw [h.1]
theorem State.Reads.osz {s t : State} (h : s.Reads t) : t.osz = s.osz := by rw [h.1]; rfl
theorem State.Reads.asz {s t : State} (h : s.Reads t) : t.asz = s.asz := by rw [h.1]; rfl
theorem State.Reads.ssz {s t : State} (h : s.Reads t) : t.ssz = s.ssz := by rw [h.1]; rfl
theorem State.Reads.sp {s t : State} (h : s.Reads t) : t.sp = s.sp := by rw [h.1]; rfl
theorem State.Reads.pe {s t : State} (h : s.Reads t) : t.pe = s.pe := by rw [h.1]; rfl
theorem State.Reads.pg {s t : State} (h : s.Reads t) : t.pg = s.pg := by rw [h.1]; rfl
theorem State.Reads.cd {s t : State} (h : s.Reads t) : t.cd = s.cd := by rw [h.1]; rfl
theorem State.Reads.em {s t : State} (h : s.Reads t) : t.em = s.em := by rw [h.1]; rfl
theorem State.Reads.ts {s t : State} (h : s.Reads t) : t.ts = s.ts := by rw [h.1]; rfl
theorem State.Reads.ne {s t : State} (h : s.Reads t) : t.ne = s.ne := by rw [h.1]; rfl

/-- A read keeps every byte of memory. -/
theorem State.Reads.keepsMemory {s t : State} (h : s.Reads t) : s.KeepsMemory t [] := by
  intro hp a _
  rw [(h.2 hp).1]

theorem busRead_reads {code : Bool} {attr : Attr} {a n v : Nat} {s t : State} (h : busRead code attr a n s = .ok v t) :
    s.Reads t := by
  unfold busRead at h
  simp only at h
  split at h
  · cases h; exact .refl s
  · cases h; exact ⟨rfl, fun _ => ⟨rfl, rfl, _ :: [], rfl, by simp [BusEvent.isRead]⟩⟩
  all_goals cases h; exact ⟨rfl, fun _ => ⟨rfl, rfl, _ :: [], rfl, by simp [BusEvent.isRead]⟩⟩

theorem burst_reads {code : Bool} {attr : Attr} {block : Nat} {os : List Nat} {s t : State} {d : BitVec 128}
    (h : burst code attr block os s = .ok d t) : s.Reads t := by
  induction os generalizing s d with
  | nil => cases h; exact .refl _
  | cons o os ih =>
    obtain ⟨v, u, h1, h2⟩ := M.bind_ok.1 h
    obtain ⟨rest, w, h3, h4⟩ := M.bind_ok.1 h2
    cases h4
    exact (busRead_reads h1).trans (ih h3)

theorem lineFill_reads {attr : Attr} {a n v : Nat} {s t : State} (h : lineFill attr a n s = .ok v t) : s.Reads t := by
  unfold lineFill at h
  obtain ⟨d, u, h1, h2⟩ := M.bind_ok.1 h
  obtain ⟨_, w, h3, h4⟩ := M.bind_ok.1 h2
  cases h4; cases h3
  refine (burst_reads h1).trans ?_
  beta_reduce
  split
  · exact ⟨rfl, fun _ => ⟨rfl, rfl, .of_bus rfl⟩⟩
  · exact .refl u

theorem physRead_reads {locked : Bool} {attr : Attr} {pa n v : Nat} {s t : State}
    (h : physRead locked attr pa n s = .ok v t) : s.Reads t := by
  unfold physRead at h
  simp only at h
  split at h
  · cases h; exact ⟨rfl, fun _ => ⟨rfl, rfl, .of_bus rfl⟩⟩
  · split at h
    · exact lineFill_reads h
    · exact busRead_reads h

theorem readTransfer_reads {locked : Bool} {ps : List BytePlace} {s t : State} {v : Nat}
    (h : readTransfer locked ps s = .ok v t) : s.Reads t := by
  cases ps with
  | nil => cases h; exact .refl s
  | cons p ps => exact physRead_reads h

theorem readPiece_reads {locked : Bool} {ps : List BytePlace} {s t : State} {v : Nat}
    (h : readPiece locked ps s = .ok v t) : s.Reads t := by
  obtain ⟨hi, u, h1, h2⟩ := M.bind_ok.1 h
  obtain ⟨lo, w, h3, h4⟩ := M.bind_ok.1 h2
  cases h4
  exact (readTransfer_reads h1).trans (readTransfer_reads h3)

theorem readPieces_reads {locked : Bool} {pss : List (List BytePlace)} {s t : State} {v : Nat}
    (h : readPieces locked pss s = .ok v t) : s.Reads t := by
  induction pss generalizing s v with
  | nil => cases h; exact .refl _
  | cons p pss ih =>
    obtain ⟨a, u, h1, h2⟩ := M.bind_ok.1 h
    obtain ⟨b, w, h3, h4⟩ := M.bind_ok.1 h2
    cases h4
    exact (readPiece_reads h1).trans (ih h3)

/-- A read of bytes reads only. -/
theorem readBytes_reads {locked : Bool} {ps : List BytePlace} {s t : State} {v : Nat}
    (h : readBytes locked ps s = .ok v t) : s.Reads t := readPieces_reads h

/-! ### A read always answers -/

theorem busRead_total (code : Bool) (attr : Attr) (a n : Nat) (s : State) : ∃ v t, busRead code attr a n s = .ok v t := by
  unfold busRead
  split <;> exact ⟨_, _, rfl⟩

theorem burst_total (code : Bool) (attr : Attr) (block : Nat) (os : List Nat) (s : State) :
    ∃ d t, burst code attr block os s = .ok d t := by
  induction os generalizing s with
  | nil => exact ⟨_, _, rfl⟩
  | cons o os ih =>
    obtain ⟨v, u, h⟩ := busRead_total code attr (block + o) 4 s
    obtain ⟨d, t, k⟩ := ih u
    exact ⟨d ||| (BitVec.ofNat 128 v <<< (8 * o)), t, by simp [burst, h, k]⟩

theorem physRead_total (locked : Bool) (attr : Attr) (pa n : Nat) (s : State) :
    ∃ v t, physRead locked attr pa n s = .ok v t := by
  unfold physRead
  simp only
  split
  · exact ⟨_, _, rfl⟩
  · split
    · obtain ⟨d, u, h⟩ := burst_total false attr (s.a20 pa / 16 * 16) (burstOrder (s.a20 pa)) s
      exact ⟨_, _, by simp only [lineFill, M.bind_run, h, M.modify_run, M.pure_run]; rfl⟩
    · exact busRead_total ..

theorem readPiece_total (locked : Bool) (ps : List BytePlace) (s : State) : ∃ v t, readPiece locked ps s = .ok v t := by
  have ht : ∀ (qs : List BytePlace) (s : State), ∃ v t, readTransfer locked qs s = .ok v t := by
    intro qs s
    cases qs with
    | nil => exact ⟨_, _, rfl⟩
    | cons q qs => exact physRead_total ..
  obtain ⟨hi, u, h⟩ := ht (ps.drop (lowPart ps)) s
  obtain ⟨lo, t, k⟩ := ht (ps.take (lowPart ps)) u
  exact ⟨lo + hi * 2 ^ (8 * lowPart ps), t, by simp [readPiece, h, k]⟩

/-- A read of bytes never faults: what can fault did so when they were located. -/
theorem readBytes_total (locked : Bool) (ps : List BytePlace) (s : State) : ∃ v t, readBytes locked ps s = .ok v t := by
  unfold readBytes
  generalize pieces ps = pss
  induction pss generalizing s with
  | nil => exact ⟨_, _, rfl⟩
  | cons p pss ih =>
    obtain ⟨v, u, h⟩ := readPiece_total locked p s
    obtain ⟨rest, t, k⟩ := ih u
    exact ⟨v + 2 ^ 32 * rest, t, by simp [readPieces, h, k]⟩

/-- Marking a located descriptor never faults. -/
theorem setMark_total (sp : Spot) (bits : BitVec 4) (s : State) : ∃ t, setMark sp bits s = .ok () t := by
  cases sp with
  | none => exact ⟨s, rfl⟩
  | some ps =>
    obtain ⟨v, u, h⟩ := readBytes_total true ps s
    exact ⟨_, by simp only [setMark, M.bind_run, h]; rfl⟩

/-! ### The frame of a write -/

theorem busWrote_touches (s : State) (ps : List BytePlace) (attr : Attr) (a v : Nat) :
    s.Touches (s.busWrote ps attr a v) := by
  unfold State.busWrote
  split <;> rfl

theorem wroteTransfer_touches (s : State) (ps : List BytePlace) (v : Nat) : s.Touches (s.wroteTransfer ps v) := by
  unfold State.wroteTransfer
  split
  · rfl
  · simp only
    split
    · split
      · rfl
      · exact State.Touches.trans (t := { s with cache := _ }) rfl (busWrote_touches _ _ _ _ _)
    · exact busWrote_touches _ _ _ _ _

theorem wrotePiece_touches (s : State) (ps : List BytePlace) (v : Nat) : s.Touches (s.wrotePiece ps v) :=
  (wroteTransfer_touches _ _ _).trans (wroteTransfer_touches _ _ _)

theorem wrotePieces_touches (s : State) (pss : List (List BytePlace)) (v : Nat) : s.Touches (s.wrotePieces pss v) := by
  induction pss generalizing s v with
  | nil => rfl
  | cons p pss ih => exact (wrotePiece_touches _ _ _).trans (ih _ _)

/-- A write of bytes changes cache, memory and the bus log only. -/
theorem wrote_touches (s : State) (ps : List BytePlace) (v : Nat) : s.Touches (s.wrote ps v) := wrotePieces_touches _ _ _

theorem wroteAll_touches (s : State) (pss : List (List BytePlace)) (vs : List Nat) : s.Touches (s.wroteAll pss vs) := by
  induction pss generalizing s vs with
  | nil => rfl
  | cons p pss ih =>
    cases vs with
    | nil => rfl
    | cons v vs => exact (wrote_touches _ _ _).trans (ih _ _)

theorem pageFault_not_ok {α : Type} {lin : Nat} {p w u : Bool} {s t : State} {a : α} :
    pageFault lin p w u s ≠ .ok a t := by
  simp [pageFault]

theorem markEntry_touches {pa e b : Nat} {attr : Attr} {s t : State} (h : markEntry pa e b attr s = .ok () t) :
    s.Touches t := by
  unfold markEntry at h
  split at h
  · cases h; rfl
  · obtain ⟨v, u, h1, h2⟩ := M.bind_ok.1 h
    rw [writeBytes_run] at h2
    cases h2
    exact (readBytes_reads h1).touches.trans (wrote_touches _ _ _)

/-- A conditional raise that ended well did not raise. -/
theorem M.guard_ok {c : Prop} [Decidable c] {x : M PUnit} {s t : State} (hx : ∀ t, x s ≠ .ok () t)
    (h : (if c then x else pure ()) s = .ok () t) : ¬ c ∧ t = s := by
  split at h
  · exact absurd h (hx t)
  · cases h; exact ⟨‹_›, rfl⟩

theorem pageWalk_touches {lin : Nat} {w u : Bool} {s t : State} {p : BytePlace} (h : pageWalk lin w u s = .ok p t) :
    s.Touches t := by
  unfold pageWalk at h
  obtain ⟨s0, t0, h0, h⟩ := M.bind_ok.1 h
  cases h0
  simp only at h
  obtain ⟨pde, t1, h1, h⟩ := M.bind_ok.1 h
  have a1 := (readBytes_reads h1).touches
  split at h
  · exact absurd (M.bind_ok.1 h) (by simp [pageFault])
  obtain ⟨pte, t3, h3, h⟩ := M.bind_ok.1 h
  have a3 := (readBytes_reads h3).touches
  split at h
  · exact absurd (M.bind_ok.1 h) (by simp [pageFault])
  split at h
  · exact absurd (M.bind_ok.1 h) (by simp [pageFault])
  obtain ⟨_, t6, h6, h⟩ := M.bind_ok.1 h
  obtain ⟨_, t7, h7, h⟩ := M.bind_ok.1 h
  obtain ⟨_, t8, h8, h⟩ := M.bind_ok.1 h
  cases h8; cases h
  exact (((a1.trans a3).trans (markEntry_touches h6)).trans (markEntry_touches h7)).trans rfl

theorem useEntry_touches {e : TlbEntry} {w : Bool} {s t : State} {b : Bool} (h : useEntry e w s = .ok b t) :
    s.Touches t := by
  unfold useEntry at h
  split at h
  · cases h; rfl
  · split at h <;> cases h <;> rfl

theorem translate_reads {lin : Nat} {w u : Bool} {s t : State} {p : BytePlace} (h : translate lin w u s = .ok p t) :
    s.Reads t := by
  unfold translate at h
  obtain ⟨s0, t0, h0, h⟩ := M.bind_ok.1 h
  cases h0
  simp only at h
  split at h
  · cases h; exact State.Reads.refl _
  · rename_i hp
    refine ⟨?_, fun hf => absurd (by simp [hf]) hp⟩
    cases hf : s.tlb.find (lin / 4096) with
    | none => rw [hf] at h; exact pageWalk_touches h
    | some e =>
      rw [hf] at h
      obtain ⟨b, t1, h1, h⟩ := M.bind_ok.1 h
      have a1 := useEntry_touches h1
      split at h
      · split at h
        · exact absurd (M.bind_ok.1 h) (by simp [pageFault])
        · obtain ⟨_, t2, h2, h⟩ := M.bind_ok.1 h
          cases h2; cases h
          exact State.Touches.trans a1 rfl
      · exact a1.trans (pageWalk_touches h)

theorem linLocate_reads {lin n : Nat} {w u : Bool} {s t : State} {ps : List BytePlace}
    (h : linLocate lin n w u s = .ok ps t) : s.Reads t := by
  unfold linLocate at h
  obtain ⟨⟨p1, c1⟩, t1, h1, h⟩ := M.bind_ok.1 h
  simp only at h
  split at h
  · obtain ⟨⟨p2, c2⟩, t2, h2, h⟩ := M.bind_ok.1 h
    cases h
    exact (translate_reads h1).trans (translate_reads h2)
  · cases h
    exact translate_reads h1

theorem segCheck_ok {sr : SegName} {off n : Nat} {w : Bool} {s t : State} {lin : Nat}
    (h : segCheck sr off n w s = .ok lin t) : t = s ∧ lin = ((s.segs.get sr).hid.base.toNat + off) % 2 ^ 32 := by
  unfold segCheck at h
  simp only at h
  by_cases h1 : (s.pe && !(s.segs.get sr).hid.valid) = true
  · rw [if_pos h1] at h; cases h
  rw [if_neg h1] at h
  by_cases h2 : (s.pe && !(if w = true then (s.segs.get sr).hid.writable else (s.segs.get sr).hid.readable)) = true
  · rw [if_pos h2] at h; cases h
  rw [if_neg h2] at h
  by_cases h3 : (s.segs.get sr).hid.inLimit off n = true
  · rw [if_pos h3] at h; cases h; exact ⟨rfl, rfl⟩
  · rw [if_neg h3] at h; cases sr <;> exact absurd h (by simp [segFault])

theorem alignCheck_ok {lin n : Nat} {s t : State} (h : alignCheck lin n s = .ok () t) : t = s := by
  unfold alignCheck at h
  split at h <;> cases h
  rfl

theorem breakHit_reads {i lin n : Nat} {w : Bool} {s t : State} {b : Bool} (h : breakHit i lin n w s = .ok b t) :
    s.Reads t := by
  unfold breakHit at h
  simp only at h
  split at h
  · cases h; exact State.Reads.refl _
  · split at h
    · cases h; exact ⟨rfl, fun _ => ⟨rfl, rfl, .of_bus rfl⟩⟩
    · cases h; exact State.Reads.refl _

theorem noteAccess_reads {lin n : Nat} {w : Bool} {s t : State} (h : noteAccess lin n w s = .ok () t) :
    s.Reads t := by
  unfold noteAccess at h
  obtain ⟨_, t0, h0, h⟩ := M.bind_ok.1 h
  obtain ⟨_, t1, h1, h⟩ := M.bind_ok.1 h
  obtain ⟨_, t2, h2, h⟩ := M.bind_ok.1 h
  obtain ⟨_, t3, h3, h⟩ := M.bind_ok.1 h
  cases h
  exact ((((breakHit_reads h0).trans (breakHit_reads h1)).trans (breakHit_reads h2)).trans (breakHit_reads h3)).trans
    ⟨rfl, fun _ => ⟨rfl, rfl, .of_bus rfl⟩⟩

/-- Locating an operand reads only. -/
theorem locate_reads {sr : SegName} {off n al : Nat} {w : Bool} {s t : State} {ps : List BytePlace}
    (h : locate sr off n al w s = .ok ps t) : s.Reads t := by
  unfold locate at h
  obtain ⟨lin, t0, h0, h⟩ := M.bind_ok.1 h
  obtain ⟨_, t1, h1, h⟩ := M.bind_ok.1 h
  obtain ⟨_, t2, h2, h⟩ := M.bind_ok.1 h
  obtain ⟨qs, t3, h3, h⟩ := M.bind_ok.1 h
  obtain ⟨_, t4, h4, h5⟩ := M.bind_ok.1 h
  cases h5; cases h2
  rw [← (segCheck_ok h0).1, ← alignCheck_ok h1]
  exact (linLocate_reads h3).trans (noteAccess_reads h4)

/-- A load reads only. -/
theorem load_reads {sr : SegName} {off n al : Nat} {s t : State} {v : Nat} (h : load sr off n al s = .ok v t) :
    s.Reads t := by
  unfold load at h
  obtain ⟨ps, t0, h0, h⟩ := M.bind_ok.1 h
  exact (locate_reads h0).trans (readBytes_reads h)

theorem locateMem_reads {m : Mem} {n al : Nat} {w : Bool} {s t : State} {ps : List BytePlace}
    (h : locateMem m n al w s = .ok ps t) : s.Reads t := by
  unfold locateMem at h
  obtain ⟨_, t0, h0, h⟩ := M.bind_ok.1 h
  cases h0
  exact locate_reads h

theorem loadMem_reads {m : Mem} {d n al : Nat} {s t : State} {v : Nat} (h : loadMem m d n al s = .ok v t) :
    s.Reads t := by
  unfold loadMem at h
  obtain ⟨_, t0, h0, h⟩ := M.bind_ok.1 h
  cases h0
  exact load_reads h

theorem readRm_reads {w : Width} {m : Rm} {s t : State} {v : Nat} (h : readRm w m s = .ok v t) : s.Reads t := by
  cases m with
  | reg r => cases h; exact State.Reads.refl _
  | mem m => exact loadMem_reads h

theorem readLocked_run (ps : List BytePlace) (s : State) : readLocked ps s = readBytes s.dec.lock ps s := rfl

/-! ### Memory: read after write, the canonical form -/

theorem memRead_below {m : Memory} {lo a : Nat} (h : Memory.wfFrom lo m = true) (ha : a < lo) : memRead m a = unwritten := by
  induction m generalizing lo with
  | nil => rfl
  | cons c m ih =>
    obtain ⟨k, w⟩ := c
    simp only [Memory.wfFrom, Bool.and_eq_true, decide_eq_true_eq] at h
    obtain ⟨⟨⟨h1, h2⟩, h3⟩, h4⟩ := h
    simp only [memRead]
    rw [if_neg (by omega)]
    exact ih h4 (by omega)

/-- A write leaves every other byte alone, whatever the memory. -/
theorem memRead_memWrite_of_ne {m : Memory} {a b : Nat} {v : Byte} (h : b ≠ a) :
    memRead (memWrite m a v) b = memRead m b := by
  induction m with
  | nil =>
    simp only [memWrite]
    split
    · rfl
    · simp only [memRead]; rw [if_neg (by omega)]
  | cons c m ih =>
    obtain ⟨k, w⟩ := c
    simp only [memWrite]
    split
    · split
      · rfl
      · rw [memRead, if_neg (by omega)]
    · split
      · split
        · simp only [memRead]; rw [if_neg (by omega)]
        · simp only [memRead]; rw [if_neg (by omega), if_neg (by omega)]
      · simp only [memRead, ih]

/-- A byte reads as it was written, in a memory of canonical form. -/
theorem memRead_memWrite_self {m : Memory} {lo a : Nat} {v : Byte} (h : Memory.wfFrom lo m = true) :
    memRead (memWrite m a v) a = v := by
  induction m generalizing lo with
  | nil =>
    simp only [memWrite]
    split
    · simp [memRead, *]
    · simp [memRead]
  | cons c m ih =>
    obtain ⟨k, w⟩ := c
    simp only [Memory.wfFrom, Bool.and_eq_true, decide_eq_true_eq] at h
    obtain ⟨⟨⟨h1, h2⟩, h3⟩, h4⟩ := h
    simp only [memWrite]
    split
    · rename_i hlt
      split
      · rename_i hv
        rw [hv, memRead, if_neg (by omega)]
        exact memRead_below h4 (by omega)
      · simp [memRead]
    · split
      · rename_i hk
        split
        · rename_i hv
          rw [hv]
          exact memRead_below h4 (by omega)
        · simp [memRead]
      · rename_i hk
        rw [memRead, if_neg (by omega)]
        exact ih h4

theorem wfFrom_mono {m : Memory} {lo lo' : Nat} (h : Memory.wfFrom lo m = true) (hl : lo' ≤ lo) :
    Memory.wfFrom lo' m = true := by
  cases m with
  | nil => rfl
  | cons c m =>
    obtain ⟨k, w⟩ := c
    simp only [Memory.wfFrom, Bool.and_eq_true, decide_eq_true_eq] at h ⊢
    exact ⟨⟨⟨by omega, h.1.1.2⟩, h.1.2⟩, h.2⟩

theorem memWrite_wfFrom {m : Memory} {lo a : Nat} {v : Byte} (h : Memory.wfFrom lo m = true) (hl : lo ≤ a)
    (ha : a < 2 ^ 32) : Memory.wfFrom lo (memWrite m a v) = true := by
  induction m generalizing lo with
  | nil =>
    simp only [memWrite]
    split
    · rfl
    · rename_i hv
      simp only [Memory.wfFrom, Bool.and_eq_true, decide_eq_true_eq, Bool.and_true, bne_iff_ne, ne_eq]
      exact ⟨⟨hl, ha⟩, hv⟩
  | cons c m ih =>
    obtain ⟨k, w⟩ := c
    have h' := h
    simp only [Memory.wfFrom, Bool.and_eq_true, decide_eq_true_eq, bne_iff_ne, ne_eq] at h
    obtain ⟨⟨⟨h1, h2⟩, h3⟩, h4⟩ := h
    simp only [memWrite]
    split
    · rename_i hlt
      split
      · exact h'
      · rename_i hv
        simp only [Memory.wfFrom, Bool.and_eq_true, decide_eq_true_eq, bne_iff_ne, ne_eq]
        exact ⟨⟨⟨hl, ha⟩, hv⟩, ⟨⟨by omega, h2⟩, h3⟩, h4⟩
    · split
      · rename_i hk
        split
        · exact wfFrom_mono h4 (by omega)
        · rename_i hv
          simp only [Memory.wfFrom, Bool.and_eq_true, decide_eq_true_eq, bne_iff_ne, ne_eq]
          exact ⟨⟨⟨hl, ha⟩, hv⟩, by rw [hk]; exact h4⟩
      · rename_i hk
        simp only [Memory.wfFrom, Bool.and_eq_true, decide_eq_true_eq, bne_iff_ne, ne_eq]
        exact ⟨⟨⟨h1, h2⟩, h3⟩, ih h4 (by omega)⟩

/-- A write keeps the canonical form. -/
theorem memWrite_wf {m : Memory} {a : Nat} {v : Byte} (h : Memory.wf m = true) (ha : a < 2 ^ 32) :
    Memory.wf (memWrite m a v) = true := memWrite_wfFrom h (Nat.zero_le a) ha

/-- Memory after reset is in canonical form. -/
theorem reset_mem_wf : Memory.wf State.reset.mem = true := rfl

/-! ### What a write leaves of memory -/

theorem State.a20_lt (s : State) (pa : Nat) : s.a20 pa < 2 ^ 32 := by
  have : pa % 2 ^ 32 < 2 ^ 32 := Nat.mod_lt _ (by decide)
  unfold State.a20
  simp only
  split <;> omega

theorem State.Touches.a20 {s t : State} (h : s.Touches t) (a : Nat) : t.a20 a = s.a20 a := by rw [h]; rfl

/-- Storing at places leaves every other byte alone. -/
theorem storedAt_mem (s : State) (ps : List BytePlace) (v b : Nat) (m : Memory) (h : ∀ p ∈ ps, s.a20 p.1 ≠ b) :
    memRead (s.storedAt ps v m) b = memRead m b := by
  induction ps generalizing v m with
  | nil => rfl
  | cons p ps ih =>
    simp only [State.storedAt]
    rw [ih _ _ (fun q hq => h q (by simp [hq])), memRead_memWrite_of_ne (Ne.symm (h p (by simp)))]

/-- Storing at places keeps the canonical form. -/
theorem storedAt_wf (s : State) (ps : List BytePlace) (v : Nat) {m : Memory} (h : Memory.wf m = true) :
    Memory.wf (s.storedAt ps v m) = true := by
  induction ps generalizing v m with
  | nil => exact h
  | cons p ps ih => exact ih _ (memWrite_wf h (s.a20_lt _))

theorem busWrote_mem (s : State) (ps : List BytePlace) (attr : Attr) (a v b : Nat) (h : ∀ p ∈ ps, s.a20 p.1 ≠ b) :
    memRead (s.busWrote ps attr a v).mem b = memRead s.mem b := by
  unfold State.busWrote
  split
  · exact storedAt_mem s ps v b s.mem h
  all_goals rfl

theorem wroteTransfer_mem (s : State) (ps : List BytePlace) (v b : Nat) (h : ∀ p ∈ ps, s.a20 p.1 ≠ b) :
    memRead (s.wroteTransfer ps v).mem b = memRead s.mem b := by
  unfold State.wroteTransfer
  split
  · rfl
  · simp only
    split
    · split
      · rfl
      · rw [busWrote_mem]
        exact h
    · exact busWrote_mem _ _ _ _ _ _ h

theorem wrotePiece_mem (s : State) (ps : List BytePlace) (v b : Nat) (h : ∀ p ∈ ps, s.a20 p.1 ≠ b) :
    memRead (s.wrotePiece ps v).mem b = memRead s.mem b := by
  simp only [State.wrotePiece]
  rw [wroteTransfer_mem, wroteTransfer_mem]
  · exact fun p hp => h p (List.mem_of_mem_drop hp)
  · intro p hp
    rw [(wroteTransfer_touches _ _ _).a20]
    exact h p (List.mem_of_mem_take hp)

theorem wrotePieces_mem (s : State) (pss : List (List BytePlace)) (v b : Nat) (h : ∀ ps ∈ pss, ∀ p ∈ ps, s.a20 p.1 ≠ b) :
    memRead (s.wrotePieces pss v).mem b = memRead s.mem b := by
  induction pss generalizing s v with
  | nil => rfl
  | cons ps pss ih =>
    simp only [State.wrotePieces]
    rw [ih, wrotePiece_mem _ _ _ _ (h ps (by simp))]
    intro qs hq p hp
    rw [(wrotePiece_touches _ _ _).a20]
    exact h qs (by simp [hq]) p hp

/-- The pieces of an operand are its bytes. -/
theorem mem_of_pieces {ps qs : List BytePlace} {p : BytePlace} (hq : qs ∈ pieces ps) (hp : p ∈ qs) : p ∈ ps := by
  induction ps using pieces.induct with
  | case1 p' q r t ps ih =>
    rw [pieces, List.mem_cons] at hq
    rcases hq with rfl | hq
    · simp only [List.mem_cons, List.not_mem_nil, or_false] at hp
      rcases hp with rfl | rfl | rfl | rfl <;> simp
    · have := ih hq
      simp [this]
  | case2 => simp [pieces] at hq
  | case3 ps h1 h2 =>
    rw [pieces] at hq
    · rw [List.mem_singleton] at hq
      exact hq ▸ hp
    all_goals assumption

/-- A write of bytes leaves every byte of memory outside their places alone. -/
theorem wrote_mem (s : State) (ps : List BytePlace) (v b : Nat) (h : ∀ p ∈ ps, s.a20 p.1 ≠ b) :
    memRead (s.wrote ps v).mem b = memRead s.mem b :=
  wrotePieces_mem s (pieces ps) v b (fun _ hq _ hp => h _ (mem_of_pieces hq hp))

/-! ### The canonical form is kept -/

theorem wroteTransfer_wf (s : State) (ps : List BytePlace) (v : Nat) (h : Memory.wf s.mem = true) :
    Memory.wf (s.wroteTransfer ps v).mem = true := by
  have hb : ∀ (u : State) (attr : Attr) (a : Nat), Memory.wf u.mem = true → Memory.wf (u.busWrote ps attr a v).mem = true := by
    intro u attr a hu
    unfold State.busWrote
    split
    · exact storedAt_wf u ps v hu
    all_goals exact hu
  unfold State.wroteTransfer
  split
  · exact h
  · simp only
    split
    · split
      · exact h
      · exact hb _ _ _ h
    · exact hb _ _ _ h

/-- A write keeps memory in canonical form. -/
theorem wrote_wf (s : State) (ps : List BytePlace) (v : Nat) (h : Memory.wf s.mem = true) :
    Memory.wf (s.wrote ps v).mem = true := by
  unfold State.wrote
  generalize pieces ps = pss
  induction pss generalizing s v with
  | nil => exact h
  | cons p pss ih => exact ih _ _ (wroteTransfer_wf _ _ _ (wroteTransfer_wf _ _ _ h))

/-- A read of the operand of BOUND that succeeds is the plain read. -/
theorem loadBound_ok {m : Mem} {k n v : Nat} {s t : State} (h : loadBound m k n s = .ok v t) : loadMem m k n n s = .ok v t := by
  unfold loadBound at h
  split at h
  · cases h
  · exact h

end Sys2Proof.Machine
end

