-- ==== Sys2Proof/Laws/PerInstr.lean ====
section
/-! SUPPORT. The family RawRoundTrip, one lemma per constructor: the encoding of a well-formed instruction, once its bytes
are parsed into opcode, tail and immediate, is read as that instruction and no other (30_encoding R310 to R314). -/
set_option Elab.async false

namespace Sys2Proof.Laws.RawRoundTrip
open Sys2Proof

/-- The parsed encoding of a well-formed instruction is read as the instruction. -/
def Statement (i : Instr) : Prop := ∀ z a : Size, i.wf z a = true → i.raw.instr = some i

theorem of_raw {i : Instr} {w : Raw} (h : i.raw = w) (e : w.instr = some i) : i.raw.instr = some i := h ▸ e

/-- A register number is one of eight. -/
theorem reg_cases (r : RegNum) : r = 0 ∨ r = 1 ∨ r = 2 ∨ r = 3 ∨ r = 4 ∨ r = 5 ∨ r = 6 ∨ r = 7 := by revert r; decide

theorem undefined_two_byte : ∀ b : Byte, undefTwoByteWf b none = true →
    (Instr.undefined (.op0F b none)).raw.instr = some (.undefined (.op0F b none)) := by decide +kernel

theorem undefined_opFE (r : RegNum) (m : Rm) : Statement (.undefined (.opFE r m)) := by
  intro z a h
  have c : decide (2 ≤ r.toNat) = true := (Bool.and_eq_true_iff.mp h).2
  rcases reg_cases r with e | e | e | e | e | e | e | e <;> subst e <;>
    first | exact absurd c (by decide) | exact of_raw (w := ⟨false, 0xFE, .rm _ m, .none⟩) rfl rfl

theorem undefined_op8F (r : RegNum) (m : Rm) : Statement (.undefined (.op8F r m)) := by
  intro z a h
  have c : (r != 0) = true := (Bool.and_eq_true_iff.mp h).2
  rcases reg_cases r with e | e | e | e | e | e | e | e <;> subst e <;>
    first | exact absurd c (by decide) | exact of_raw (w := ⟨false, 0x8F, .rm _ m, .none⟩) rfl rfl

theorem undefined_opC6 (r : RegNum) (m : Rm) : Statement (.undefined (.opC6 r m)) := by
  intro z a h
  have c : (r != 0) = true := (Bool.and_eq_true_iff.mp h).2
  rcases reg_cases r with e | e | e | e | e | e | e | e <;> subst e <;>
    first | exact absurd c (by decide) | exact of_raw (w := ⟨false, 0xC6, .rm _ m, .none⟩) rfl rfl

theorem undefined_opC7 (r : RegNum) (m : Rm) : Statement (.undefined (.opC7 r m)) := by
  intro z a h
  have c : (r != 0) = true := (Bool.and_eq_true_iff.mp h).2
  rcases reg_cases r with e | e | e | e | e | e | e | e <;> subst e <;>
    first | exact absurd c (by decide) | exact of_raw (w := ⟨false, 0xC7, .rm _ m, .none⟩) rfl rfl

theorem undefined_op0FBA (r : RegNum) (m : Rm) : Statement (.undefined (.op0FBA r m)) := by
  intro z a h
  have c : decide (r.toNat < 4) = true := (Bool.and_eq_true_iff.mp h).2
  rcases reg_cases r with e | e | e | e | e | e | e | e <;> subst e <;>
    first | exact absurd c (by decide) | exact of_raw (w := ⟨true, 0xBA, .rm _ m, .none⟩) rfl rfl

theorem undefined_0F01 (r i : RegNum) (c : [0, 1, 2, 3, 7].contains r.toNat = true) :
    (Instr.undefined (.op0F 0x01 (some (r, i)))).raw.instr = some (.undefined (.op0F 0x01 (some (r, i)))) := by
  rcases reg_cases r with e | e | e | e | e | e | e | e <;> subst e <;>
    first | exact absurd c (by decide) | exact of_raw (w := ⟨true, 0x01, .rm _ (.reg i), .none⟩) rfl rfl

theorem undefined_0FB2 (r i : RegNum) :
    (Instr.undefined (.op0F 0xB2 (some (r, i)))).raw.instr = some (.undefined (.op0F 0xB2 (some (r, i)))) :=
  of_raw (w := ⟨true, 0xB2, .rm r (.reg i), .none⟩) rfl rfl

theorem undefined_0FB4 (r i : RegNum) :
    (Instr.undefined (.op0F 0xB4 (some (r, i)))).raw.instr = some (.undefined (.op0F 0xB4 (some (r, i)))) :=
  of_raw (w := ⟨true, 0xB4, .rm r (.reg i), .none⟩) rfl rfl

theorem undefined_0FB5 (r i : RegNum) :
    (Instr.undefined (.op0F 0xB5 (some (r, i)))).raw.instr = some (.undefined (.op0F 0xB5 (some (r, i)))) :=
  of_raw (w := ⟨true, 0xB5, .rm r (.reg i), .none⟩) rfl rfl

theorem esc_memory_d8 (r : RegNum) (m : Mem) : Statement (.undefinedEsc (.d8 r (.mem m))) := by
  intro z a h
  have c : (!escMemDefined 0xD8 r.toNat) = true := (Bool.and_eq_true_iff.mp h).2
  rcases reg_cases r with e | e | e | e | e | e | e | e <;> subst e <;>
    first | exact absurd c (by decide) | exact of_raw (w := ⟨false, 0xD8, .rm _ (.mem m), .none⟩) rfl rfl

theorem esc_register_d8 : ∀ r i : RegNum, escDefined 0xD8 r (.reg i) = false →
    (Instr.undefinedEsc (.d8 r (.reg i))).raw.instr = some (.undefinedEsc (.d8 r (.reg i))) := by decide +kernel

theorem esc_memory_d9 (r : RegNum) (m : Mem) : Statement (.undefinedEsc (.d9 r (.mem m))) := by
  intro z a h
  have c : (!escMemDefined 0xD9 r.toNat) = true := (Bool.and_eq_true_iff.mp h).2
  rcases reg_cases r with e | e | e | e | e | e | e | e <;> subst e <;>
    first | exact absurd c (by decide) | exact of_raw (w := ⟨false, 0xD9, .rm _ (.mem m), .none⟩) rfl rfl

theorem esc_register_d9 : ∀ r i : RegNum, escDefined 0xD9 r (.reg i) = false →
    (Instr.undefinedEsc (.d9 r (.reg i))).raw.instr = some (.undefinedEsc (.d9 r (.reg i))) := by decide +kernel

theorem esc_memory_da (r : RegNum) (m : Mem) : Statement (.undefinedEsc (.da r (.mem m))) := by
  intro z a h
  have c : (!escMemDefined 0xDA r.toNat) = true := (Bool.and_eq_true_iff.mp h).2
  rcases reg_cases r with e | e | e | e | e | e | e | e <;> subst e <;>
    first | exact absurd c (by decide) | exact of_raw (w := ⟨false, 0xDA, .rm _ (.mem m), .none⟩) rfl rfl

theorem esc_register_da : ∀ r i : RegNum, escDefined 0xDA r (.reg i) = false →
    (Instr.undefinedEsc (.da r (.reg i))).raw.instr = some (.undefinedEsc (.da r (.reg i))) := by decide +kernel

theorem esc_memory_db (r : RegNum) (m : Mem) : Statement (.undefinedEsc (.db r (.mem m))) := by
  intro z a h
  have c : (!escMemDefined 0xDB r.toNat) = true := (Bool.and_eq_true_iff.mp h).2
  rcases reg_cases r with e | e | e | e | e | e | e | e <;> subst e <;>
    first | exact absurd c (by decide) | exact of_raw (w := ⟨false, 0xDB, .rm _ (.mem m), .none⟩) rfl rfl

theorem esc_register_db : ∀ r i : RegNum, escDefined 0xDB r (.reg i) = false →
    (Instr.undefinedEsc (.db r (.reg i))).raw.instr = some (.undefinedEsc (.db r (.reg i))) := by decide +kernel

theorem esc_memory_dc (r : RegNum) (m : Mem) : Statement (.undefinedEsc (.dc r (.mem m))) := by
  intro z a h
  have c : (!escMemDefined 0xDC r.toNat) = true := (Bool.and_eq_true_iff.mp h).2
  rcases reg_cases r with e | e | e | e | e | e | e | e <;> subst e <;>
    first | exact absurd c (by decide) | exact of_raw (w := ⟨false, 0xDC, .rm _ (.mem m), .none⟩) rfl rfl

theorem esc_register_dc : ∀ r i : RegNum, escDefined 0xDC r (.reg i) = false →
    (Instr.undefinedEsc (.dc r (.reg i))).raw.instr = some (.undefinedEsc (.dc r (.reg i))) := by decide +kernel

theorem esc_memory_dd (r : RegNum) (m : Mem) : Statement (.undefinedEsc (.dd r (.mem m))) := by
  intro z a h
  have c : (!escMemDefined 0xDD r.toNat) = true := (Bool.and_eq_true_iff.mp h).2
  rcases reg_cases r with e | e | e | e | e | e | e | e <;> subst e <;>
    first | exact absurd c (by decide) | exact of_raw (w := ⟨false, 0xDD, .rm _ (.mem m), .none⟩) rfl rfl

theorem esc_register_dd : ∀ r i : RegNum, escDefined 0xDD r (.reg i) = false →
    (Instr.undefinedEsc (.dd r (.reg i))).raw.instr = some (.undefinedEsc (.dd r (.reg i))) := by decide +kernel

theorem esc_memory_de (r : RegNum) (m : Mem) : Statement (.undefinedEsc (.de r (.mem m))) := by
  intro z a h
  have c : (!escMemDefined 0xDE r.toNat) = true := (Bool.and_eq_true_iff.mp h).2
  rcases reg_cases r with e | e | e | e | e | e | e | e <;> subst e <;>
    first | exact absurd c (by decide) | exact of_raw (w := ⟨false, 0xDE, .rm _ (.mem m), .none⟩) rfl rfl

theorem esc_register_de : ∀ r i : RegNum, escDefined 0xDE r (.reg i) = false →
    (Instr.undefinedEsc (.de r (.reg i))).raw.instr = some (.undefinedEsc (.de r (.reg i))) := by decide +kernel

theorem esc_memory_df (r : RegNum) (m : Mem) : Statement (.undefinedEsc (.df r (.mem m))) := by
  intro z a h
  have c : (!escMemDefined 0xDF r.toNat) = true := (Bool.and_eq_true_iff.mp h).2
  rcases reg_cases r with e | e | e | e | e | e | e | e <;> subst e <;>
    first | exact absurd c (by decide) | exact of_raw (w := ⟨false, 0xDF, .rm _ (.mem m), .none⟩) rfl rfl

theorem esc_register_df : ∀ r i : RegNum, escDefined 0xDF r (.reg i) = false →
    (Instr.undefinedEsc (.df r (.reg i))).raw.instr = some (.undefinedEsc (.df r (.reg i))) := by decide +kernel

theorem repPrefix : Statement .repPrefix := fun _ _ _ => of_raw (w := ⟨false, 0xF3, .none, .none⟩) rfl rfl
theorem repnePrefix : Statement .repnePrefix := fun _ _ _ => of_raw (w := ⟨false, 0xF2, .none, .none⟩) rfl rfl
theorem lockPrefix : Statement .lockPrefix := fun _ _ _ => of_raw (w := ⟨false, 0xF0, .none, .none⟩) rfl rfl
theorem csPrefix : Statement .csPrefix := fun _ _ _ => of_raw (w := ⟨false, 0x2E, .none, .none⟩) rfl rfl
theorem ssPrefix : Statement .ssPrefix := fun _ _ _ => of_raw (w := ⟨false, 0x36, .none, .none⟩) rfl rfl
theorem dsPrefix : Statement .dsPrefix := fun _ _ _ => of_raw (w := ⟨false, 0x3E, .none, .none⟩) rfl rfl
theorem esPrefix : Statement .esPrefix := fun _ _ _ => of_raw (w := ⟨false, 0x26, .none, .none⟩) rfl rfl
theorem fsPrefix : Statement .fsPrefix := fun _ _ _ => of_raw (w := ⟨false, 0x64, .none, .none⟩) rfl rfl
theorem gsPrefix : Statement .gsPrefix := fun _ _ _ => of_raw (w := ⟨false, 0x65, .none, .none⟩) rfl rfl
theorem opsizePrefix : Statement .opsizePrefix := fun _ _ _ => of_raw (w := ⟨false, 0x66, .none, .none⟩) rfl rfl
theorem addrsizePrefix : Statement .addrsizePrefix := fun _ _ _ => of_raw (w := ⟨false, 0x67, .none, .none⟩) rfl rfl
theorem add (f : AluForm) : Statement (.add f) := by
  intro z a h
  cases f with
  | ebGb r m => exact of_raw (w := ⟨false, 0x00, .rm r m, .none⟩) rfl rfl
  | evGv r m => exact of_raw (w := ⟨false, 0x01, .rm r m, .none⟩) rfl rfl
  | gbEb r m => exact of_raw (w := ⟨false, 0x02, .rm r m, .none⟩) rfl rfl
  | gvEv r m => exact of_raw (w := ⟨false, 0x03, .rm r m, .none⟩) rfl rfl
  | alIb imm => exact of_raw (w := ⟨false, 0x04, .none, .ib imm⟩) rfl rfl
  | eaxIv imm => exact of_raw (w := ⟨false, 0x05, .none, .iv imm⟩) rfl rfl
  | eb80 m imm => exact of_raw (w := ⟨false, 0x80, .rm 0 m, .ib imm⟩) rfl rfl
  | ev81 m imm => exact of_raw (w := ⟨false, 0x81, .rm 0 m, .iv imm⟩) rfl rfl
  | eb82 m imm => exact of_raw (w := ⟨false, 0x82, .rm 0 m, .ib imm⟩) rfl rfl
  | ev83 m imm => exact of_raw (w := ⟨false, 0x83, .rm 0 m, .ib imm⟩) rfl rfl
theorem or (f : AluForm) : Statement (.or f) := by
  intro z a h
  cases f with
  | ebGb r m => exact of_raw (w := ⟨false, 0x08, .rm r m, .none⟩) rfl rfl
  | evGv r m => exact of_raw (w := ⟨false, 0x09, .rm r m, .none⟩) rfl rfl
  | gbEb r m => exact of_raw (w := ⟨false, 0x0A, .rm r m, .none⟩) rfl rfl
  | gvEv r m => exact of_raw (w := ⟨false, 0x0B, .rm r m, .none⟩) rfl rfl
  | alIb imm => exact of_raw (w := ⟨false, 0x0C, .none, .ib imm⟩) rfl rfl
  | eaxIv imm => exact of_raw (w := ⟨false, 0x0D, .none, .iv imm⟩) rfl rfl
  | eb80 m imm => exact of_raw (w := ⟨false, 0x80, .rm 1 m, .ib imm⟩) rfl rfl
  | ev81 m imm => exact of_raw (w := ⟨false, 0x81, .rm 1 m, .iv imm⟩) rfl rfl
  | eb82 m imm => exact of_raw (w := ⟨false, 0x82, .rm 1 m, .ib imm⟩) rfl rfl
  | ev83 m imm => exact of_raw (w := ⟨false, 0x83, .rm 1 m, .ib imm⟩) rfl rfl
theorem adc (f : AluForm) : Statement (.adc f) := by
  intro z a h
  cases f with
  | ebGb r m => exact of_raw (w := ⟨false, 0x10, .rm r m, .none⟩) rfl rfl
  | evGv r m => exact of_raw (w := ⟨false, 0x11, .rm r m, .none⟩) rfl rfl
  | gbEb r m => exact of_raw (w := ⟨false, 0x12, .rm r m, .none⟩) rfl rfl
  | gvEv r m => exact of_raw (w := ⟨false, 0x13, .rm r m, .none⟩) rfl rfl
  | alIb imm => exact of_raw (w := ⟨false, 0x14, .none, .ib imm⟩) rfl rfl
  | eaxIv imm => exact of_raw (w := ⟨false, 0x15, .none, .iv imm⟩) rfl rfl
  | eb80 m imm => exact of_raw (w := ⟨false, 0x80, .rm 2 m, .ib imm⟩) rfl rfl
  | ev81 m imm => exact of_raw (w := ⟨false, 0x81, .rm 2 m, .iv imm⟩) rfl rfl
  | eb82 m imm => exact of_raw (w := ⟨false, 0x82, .rm 2 m, .ib imm⟩) rfl rfl
  | ev83 m imm => exact of_raw (w := ⟨false, 0x83, .rm 2 m, .ib imm⟩) rfl rfl
theorem sbb (f : AluForm) : Statement (.sbb f) := by
  intro z a h
  cases f with
  | ebGb r m => exact of_raw (w := ⟨false, 0x18, .rm r m, .none⟩) rfl rfl
  | evGv r m => exact of_raw (w := ⟨false, 0x19, .rm r m, .none⟩) rfl rfl
  | gbEb r m => exact of_raw (w := ⟨false, 0x1A, .rm r m, .none⟩) rfl rfl
  | gvEv r m => exact of_raw (w := ⟨false, 0x1B, .rm r m, .none⟩) rfl rfl
  | alIb imm => exact of_raw (w := ⟨false, 0x1C, .none, .ib imm⟩) rfl rfl
  | eaxIv imm => exact of_raw (w := ⟨false, 0x1D, .none, .iv imm⟩) rfl rfl
  | eb80 m imm => exact of_raw (w := ⟨false, 0x80, .rm 3 m, .ib imm⟩) rfl rfl
  | ev81 m imm => exact of_raw (w := ⟨false, 0x81, .rm 3 m, .iv imm⟩) rfl rfl
  | eb82 m imm => exact of_raw (w := ⟨false, 0x82, .rm 3 m, .ib imm⟩) rfl rfl
  | ev83 m imm => exact of_raw (w := ⟨false, 0x83, .rm 3 m, .ib imm⟩) rfl rfl
theorem and (f : AluForm) : Statement (.and f) := by
  intro z a h
  cases f with
  | ebGb r m => exact of_raw (w := ⟨false, 0x20, .rm r m, .none⟩) rfl rfl
  | evGv r m => exact of_raw (w := ⟨false, 0x21, .rm r m, .none⟩) rfl rfl
  | gbEb r m => exact of_raw (w := ⟨false, 0x22, .rm r m, .none⟩) rfl rfl
  | gvEv r m => exact of_raw (w := ⟨false, 0x23, .rm r m, .none⟩) rfl rfl
  | alIb imm => exact of_raw (w := ⟨false, 0x24, .none, .ib imm⟩) rfl rfl
  | eaxIv imm => exact of_raw (w := ⟨false, 0x25, .none, .iv imm⟩) rfl rfl
  | eb80 m imm => exact of_raw (w := ⟨false, 0x80, .rm 4 m, .ib imm⟩) rfl rfl
  | ev81 m imm => exact of_raw (w := ⟨false, 0x81, .rm 4 m, .iv imm⟩) rfl rfl
  | eb82 m imm => exact of_raw (w := ⟨false, 0x82, .rm 4 m, .ib imm⟩) rfl rfl
  | ev83 m imm => exact of_raw (w := ⟨false, 0x83, .rm 4 m, .ib imm⟩) rfl rfl
theorem sub (f : AluForm) : Statement (.sub f) := by
  intro z a h
  cases f with
  | ebGb r m => exact of_raw (w := ⟨false, 0x28, .rm r m, .none⟩) rfl rfl
  | evGv r m => exact of_raw (w := ⟨false, 0x29, .rm r m, .none⟩) rfl rfl
  | gbEb r m => exact of_raw (w := ⟨false, 0x2A, .rm r m, .none⟩) rfl rfl
  | gvEv r m => exact of_raw (w := ⟨false, 0x2B, .rm r m, .none⟩) rfl rfl
  | alIb imm => exact of_raw (w := ⟨false, 0x2C, .none, .ib imm⟩) rfl rfl
  | eaxIv imm => exact of_raw (w := ⟨false, 0x2D, .none, .iv imm⟩) rfl rfl
  | eb80 m imm => exact of_raw (w := ⟨false, 0x80, .rm 5 m, .ib imm⟩) rfl rfl
  | ev81 m imm => exact of_raw (w := ⟨false, 0x81, .rm 5 m, .iv imm⟩) rfl rfl
  | eb82 m imm => exact of_raw (w := ⟨false, 0x82, .rm 5 m, .ib imm⟩) rfl rfl
  | ev83 m imm => exact of_raw (w := ⟨false, 0x83, .rm 5 m, .ib imm⟩) rfl rfl
theorem xor (f : AluForm) : Statement (.xor f) := by
  intro z a h
  cases f with
  | ebGb r m => exact of_raw (w := ⟨false, 0x30, .rm r m, .none⟩) rfl rfl
  | evGv r m => exact of_raw (w := ⟨false, 0x31, .rm r m, .none⟩) rfl rfl
  | gbEb r m => exact of_raw (w := ⟨false, 0x32, .rm r m, .none⟩) rfl rfl
  | gvEv r m => exact of_raw (w := ⟨false, 0x33, .rm r m, .none⟩) rfl rfl
  | alIb imm => exact of_raw (w := ⟨false, 0x34, .none, .ib imm⟩) rfl rfl
  | eaxIv imm => exact of_raw (w := ⟨false, 0x35, .none, .iv imm⟩) rfl rfl
  | eb80 m imm => exact of_raw (w := ⟨false, 0x80, .rm 6 m, .ib imm⟩) rfl rfl
  | ev81 m imm => exact of_raw (w := ⟨false, 0x81, .rm 6 m, .iv imm⟩) rfl rfl
  | eb82 m imm => exact of_raw (w := ⟨false, 0x82, .rm 6 m, .ib imm⟩) rfl rfl
  | ev83 m imm => exact of_raw (w := ⟨false, 0x83, .rm 6 m, .ib imm⟩) rfl rfl
theorem cmp (f : AluForm) : Statement (.cmp f) := by
  intro z a h
  cases f with
  | ebGb r m => exact of_raw (w := ⟨false, 0x38, .rm r m, .none⟩) rfl rfl
  | evGv r m => exact of_raw (w := ⟨false, 0x39, .rm r m, .none⟩) rfl rfl
  | gbEb r m => exact of_raw (w := ⟨false, 0x3A, .rm r m, .none⟩) rfl rfl
  | gvEv r m => exact of_raw (w := ⟨false, 0x3B, .rm r m, .none⟩) rfl rfl
  | alIb imm => exact of_raw (w := ⟨false, 0x3C, .none, .ib imm⟩) rfl rfl
  | eaxIv imm => exact of_raw (w := ⟨false, 0x3D, .none, .iv imm⟩) rfl rfl
  | eb80 m imm => exact of_raw (w := ⟨false, 0x80, .rm 7 m, .ib imm⟩) rfl rfl
  | ev81 m imm => exact of_raw (w := ⟨false, 0x81, .rm 7 m, .iv imm⟩) rfl rfl
  | eb82 m imm => exact of_raw (w := ⟨false, 0x82, .rm 7 m, .ib imm⟩) rfl rfl
  | ev83 m imm => exact of_raw (w := ⟨false, 0x83, .rm 7 m, .ib imm⟩) rfl rfl
theorem aaa : Statement .aaa := fun _ _ _ => of_raw (w := ⟨false, 0x37, .none, .none⟩) rfl rfl
theorem aas : Statement .aas := fun _ _ _ => of_raw (w := ⟨false, 0x3F, .none, .none⟩) rfl rfl
theorem aad (imm : Byte) : Statement (.aad imm) := fun _ _ _ => of_raw (w := ⟨false, 0xD5, .none, .ib imm⟩) rfl rfl
theorem aam (imm : Byte) : Statement (.aam imm) := fun _ _ _ => of_raw (w := ⟨false, 0xD4, .none, .ib imm⟩) rfl rfl
theorem daa : Statement .daa := fun _ _ _ => of_raw (w := ⟨false, 0x27, .none, .none⟩) rfl rfl
theorem das : Statement .das := fun _ _ _ => of_raw (w := ⟨false, 0x2F, .none, .none⟩) rfl rfl
theorem arpl (r : RegNum) (m : Rm) : Statement (.arpl r m) := fun _ _ _ => of_raw (w := ⟨false, 0x63, .rm r m, .none⟩) rfl rfl
theorem bound (r : RegNum) (m : Mem) : Statement (.bound r m) := fun _ _ _ => of_raw (w := ⟨false, 0x62, .rm r (.mem m), .none⟩) rfl rfl
theorem push (f : PushForm) : Statement (.push f) := by
  intro z a h
  cases f with
  | es => exact of_raw (w := ⟨false, 0x06, .none, .none⟩) rfl rfl
  | cs => exact of_raw (w := ⟨false, 0x0E, .none, .none⟩) rfl rfl
  | ss => exact of_raw (w := ⟨false, 0x16, .none, .none⟩) rfl rfl
  | ds => exact of_raw (w := ⟨false, 0x1E, .none, .none⟩) rfl rfl
  | fs => exact of_raw (w := ⟨true, 0xA0, .none, .none⟩) rfl rfl
  | gs => exact of_raw (w := ⟨true, 0xA8, .none, .none⟩) rfl rfl
  | reg r => exact of_raw (w := ⟨false, 0x50, .opreg r, .none⟩) rfl rfl
  | iv imm => exact of_raw (w := ⟨false, 0x68, .none, .iv imm⟩) rfl rfl
  | ib imm => exact of_raw (w := ⟨false, 0x6A, .none, .ib imm⟩) rfl rfl
  | ev m => exact of_raw (w := ⟨false, 0xFF, .rm 6 m, .none⟩) rfl (by cases m <;> rfl)
theorem pop (f : PopForm) : Statement (.pop f) := by
  intro z a h
  cases f with
  | es => exact of_raw (w := ⟨false, 0x07, .none, .none⟩) rfl rfl
  | ss => exact of_raw (w := ⟨false, 0x17, .none, .none⟩) rfl rfl
  | ds => exact of_raw (w := ⟨false, 0x1F, .none, .none⟩) rfl rfl
  | fs => exact of_raw (w := ⟨true, 0xA1, .none, .none⟩) rfl rfl
  | gs => exact of_raw (w := ⟨true, 0xA9, .none, .none⟩) rfl rfl
  | reg r => exact of_raw (w := ⟨false, 0x58, .opreg r, .none⟩) rfl rfl
  | ev m => exact of_raw (w := ⟨false, 0x8F, .rm 0 m, .none⟩) rfl rfl
theorem inc (f : IncForm) : Statement (.inc f) := by
  intro z a h
  cases f with
  | reg r => exact of_raw (w := ⟨false, 0x40, .opreg r, .none⟩) rfl rfl
  | eb m => exact of_raw (w := ⟨false, 0xFE, .rm 0 m, .none⟩) rfl rfl
  | ev m => exact of_raw (w := ⟨false, 0xFF, .rm 0 m, .none⟩) rfl (by cases m <;> rfl)
theorem dec (f : IncForm) : Statement (.dec f) := by
  intro z a h
  cases f with
  | reg r => exact of_raw (w := ⟨false, 0x48, .opreg r, .none⟩) rfl rfl
  | eb m => exact of_raw (w := ⟨false, 0xFE, .rm 1 m, .none⟩) rfl rfl
  | ev m => exact of_raw (w := ⟨false, 0xFF, .rm 1 m, .none⟩) rfl (by cases m <;> rfl)
theorem pusha : Statement .pusha := fun _ _ _ => of_raw (w := ⟨false, 0x60, .none, .none⟩) rfl rfl
theorem popa : Statement .popa := fun _ _ _ => of_raw (w := ⟨false, 0x61, .none, .none⟩) rfl rfl
theorem imul (f : ImulForm) : Statement (.imul f) := by
  intro z a h
  cases f with
  | gvEvIv r m imm => exact of_raw (w := ⟨false, 0x69, .rm r m, .iv imm⟩) rfl rfl
  | gvEvIb r m imm => exact of_raw (w := ⟨false, 0x6B, .rm r m, .ib imm⟩) rfl rfl
  | eb m => exact of_raw (w := ⟨false, 0xF6, .rm 5 m, .none⟩) rfl rfl
  | ev m => exact of_raw (w := ⟨false, 0xF7, .rm 5 m, .none⟩) rfl rfl
  | gvEv r m => exact of_raw (w := ⟨true, 0xAF, .rm r m, .none⟩) rfl rfl
theorem insb : Statement .insb := fun _ _ _ => of_raw (w := ⟨false, 0x6C, .none, .none⟩) rfl rfl
theorem insv : Statement .insv := fun _ _ _ => of_raw (w := ⟨false, 0x6D, .none, .none⟩) rfl rfl
theorem outsb : Statement .outsb := fun _ _ _ => of_raw (w := ⟨false, 0x6E, .none, .none⟩) rfl rfl
theorem outsv : Statement .outsv := fun _ _ _ => of_raw (w := ⟨false, 0x6F, .none, .none⟩) rfl rfl
theorem jO (f : JccForm) : Statement (.jO f) := by
  intro z a h
  cases f with
  | short rel => exact of_raw (w := ⟨false, 0x70, .none, .ib rel⟩) rfl rfl
  | near rel => exact of_raw (w := ⟨true, 0x80, .none, .iv rel⟩) rfl rfl
theorem jNo (f : JccForm) : Statement (.jNo f) := by
  intro z a h
  cases f with
  | short rel => exact of_raw (w := ⟨false, 0x71, .none, .ib rel⟩) rfl rfl
  | near rel => exact of_raw (w := ⟨true, 0x81, .none, .iv rel⟩) rfl rfl
theorem jB (f : JccForm) : Statement (.jB f) := by
  intro z a h
  cases f with
  | short rel => exact of_raw (w := ⟨false, 0x72, .none, .ib rel⟩) rfl rfl
  | near rel => exact of_raw (w := ⟨true, 0x82, .none, .iv rel⟩) rfl rfl
theorem jAe (f : JccForm) : Statement (.jAe f) := by
  intro z a h
  cases f with
  | short rel => exact of_raw (w := ⟨false, 0x73, .none, .ib rel⟩) rfl rfl
  | near rel => exact of_raw (w := ⟨true, 0x83, .none, .iv rel⟩) rfl rfl
theorem jE (f : JccForm) : Statement (.jE f) := by
  intro z a h
  cases f with
  | short rel => exact of_raw (w := ⟨false, 0x74, .none, .ib rel⟩) rfl rfl
  | near rel => exact of_raw (w := ⟨true, 0x84, .none, .iv rel⟩) rfl rfl
theorem jNe (f : JccForm) : Statement (.jNe f) := by
  intro z a h
  cases f with
  | short rel => exact of_raw (w := ⟨false, 0x75, .none, .ib rel⟩) rfl rfl
  | near rel => exact of_raw (w := ⟨true, 0x85, .none, .iv rel⟩) rfl rfl
theorem jBe (f : JccForm) : Statement (.jBe f) := by
  intro z a h
  cases f with
  | short rel => exact of_raw (w := ⟨false, 0x76, .none, .ib rel⟩) rfl rfl
  | near rel => exact of_raw (w := ⟨true, 0x86, .none, .iv rel⟩) rfl rfl
theorem jA (f : JccForm) : Statement (.jA f) := by
  intro z a h
  cases f with
  | short rel => exact of_raw (w := ⟨false, 0x77, .none, .ib rel⟩) rfl rfl
  | near rel => exact of_raw (w := ⟨true, 0x87, .none, .iv rel⟩) rfl rfl
theorem jS (f : JccForm) : Statement (.jS f) := by
  intro z a h
  cases f with
  | short rel => exact of_raw (w := ⟨false, 0x78, .none, .ib rel⟩) rfl rfl
  | near rel => exact of_raw (w := ⟨true, 0x88, .none, .iv rel⟩) rfl rfl
theorem jNs (f : JccForm) : Statement (.jNs f) := by
  intro z a h
  cases f with
  | short rel => exact of_raw (w := ⟨false, 0x79, .none, .ib rel⟩) rfl rfl
  | near rel => exact of_raw (w := ⟨true, 0x89, .none, .iv rel⟩) rfl rfl
theorem jP (f : JccForm) : Statement (.jP f) := by
  intro z a h
  cases f with
  | short rel => exact of_raw (w := ⟨false, 0x7A, .none, .ib rel⟩) rfl rfl
  | near rel => exact of_raw (w := ⟨true, 0x8A, .none, .iv rel⟩) rfl rfl
theorem jNp (f : JccForm) : Statement (.jNp f) := by
  intro z a h
  cases f with
  | short rel => exact of_raw (w := ⟨false, 0x7B, .none, .ib rel⟩) rfl rfl
  | near rel => exact of_raw (w := ⟨true, 0x8B, .none, .iv rel⟩) rfl rfl
theorem jL (f : JccForm) : Statement (.jL f) := by
  intro z a h
  cases f with
  | short rel => exact of_raw (w := ⟨false, 0x7C, .none, .ib rel⟩) rfl rfl
  | near rel => exact of_raw (w := ⟨true, 0x8C, .none, .iv rel⟩) rfl rfl
theorem jGe (f : JccForm) : Statement (.jGe f) := by
  intro z a h
  cases f with
  | short rel => exact of_raw (w := ⟨false, 0x7D, .none, .ib rel⟩) rfl rfl
  | near rel => exact of_raw (w := ⟨true, 0x8D, .none, .iv rel⟩) rfl rfl
theorem jLe (f : JccForm) : Statement (.jLe f) := by
  intro z a h
  cases f with
  | short rel => exact of_raw (w := ⟨false, 0x7E, .none, .ib rel⟩) rfl rfl
  | near rel => exact of_raw (w := ⟨true, 0x8E, .none, .iv rel⟩) rfl rfl
theorem jG (f : JccForm) : Statement (.jG f) := by
  intro z a h
  cases f with
  | short rel => exact of_raw (w := ⟨false, 0x7F, .none, .ib rel⟩) rfl rfl
  | near rel => exact of_raw (w := ⟨true, 0x8F, .none, .iv rel⟩) rfl rfl
theorem setO (r : RegNum) (m : Rm) : Statement (.setO r m) := fun _ _ _ => of_raw (w := ⟨true, 0x90, .rm r m, .none⟩) rfl rfl
theorem setNo (r : RegNum) (m : Rm) : Statement (.setNo r m) := fun _ _ _ => of_raw (w := ⟨true, 0x91, .rm r m, .none⟩) rfl rfl
theorem setB (r : RegNum) (m : Rm) : Statement (.setB r m) := fun _ _ _ => of_raw (w := ⟨true, 0x92, .rm r m, .none⟩) rfl rfl
theorem setAe (r : RegNum) (m : Rm) : Statement (.setAe r m) := fun _ _ _ => of_raw (w := ⟨true, 0x93, .rm r m, .none⟩) rfl rfl
theorem setE (r : RegNum) (m : Rm) : Statement (.setE r m) := fun _ _ _ => of_raw (w := ⟨true, 0x94, .rm r m, .none⟩) rfl rfl
theorem setNe (r : RegNum) (m : Rm) : Statement (.setNe r m) := fun _ _ _ => of_raw (w := ⟨true, 0x95, .rm r m, .none⟩) rfl rfl
theorem setBe (r : RegNum) (m : Rm) : Statement (.setBe r m) := fun _ _ _ => of_raw (w := ⟨true, 0x96, .rm r m, .none⟩) rfl rfl
theorem setA (r : RegNum) (m : Rm) : Statement (.setA r m) := fun _ _ _ => of_raw (w := ⟨true, 0x97, .rm r m, .none⟩) rfl rfl
theorem setS (r : RegNum) (m : Rm) : Statement (.setS r m) := fun _ _ _ => of_raw (w := ⟨true, 0x98, .rm r m, .none⟩) rfl rfl
theorem setNs (r : RegNum) (m : Rm) : Statement (.setNs r m) := fun _ _ _ => of_raw (w := ⟨true, 0x99, .rm r m, .none⟩) rfl rfl
theorem setP (r : RegNum) (m : Rm) : Statement (.setP r m) := fun _ _ _ => of_raw (w := ⟨true, 0x9A, .rm r m, .none⟩) rfl rfl
theorem setNp (r : RegNum) (m : Rm) : Statement (.setNp r m) := fun _ _ _ => of_raw (w := ⟨true, 0x9B, .rm r m, .none⟩) rfl rfl
theorem setL (r : RegNum) (m : Rm) : Statement (.setL r m) := fun _ _ _ => of_raw (w := ⟨true, 0x9C, .rm r m, .none⟩) rfl rfl
theorem setGe (r : RegNum) (m : Rm) : Statement (.setGe r m) := fun _ _ _ => of_raw (w := ⟨true, 0x9D, .rm r m, .none⟩) rfl rfl
theorem setLe (r : RegNum) (m : Rm) : Statement (.setLe r m) := fun _ _ _ => of_raw (w := ⟨true, 0x9E, .rm r m, .none⟩) rfl rfl
theorem setG (r : RegNum) (m : Rm) : Statement (.setG r m) := fun _ _ _ => of_raw (w := ⟨true, 0x9F, .rm r m, .none⟩) rfl rfl
theorem test (f : TestForm) : Statement (.test f) := by
  intro z a h
  cases f with
  | ebGb r m => exact of_raw (w := ⟨false, 0x84, .rm r m, .none⟩) rfl rfl
  | evGv r m => exact of_raw (w := ⟨false, 0x85, .rm r m, .none⟩) rfl rfl
  | alIb imm => exact of_raw (w := ⟨false, 0xA8, .none, .ib imm⟩) rfl rfl
  | eaxIv imm => exact of_raw (w := ⟨false, 0xA9, .none, .iv imm⟩) rfl rfl
  | ebIb m imm => exact of_raw (w := ⟨false, 0xF6, .rm 0 m, .ib imm⟩) rfl rfl
  | evIv m imm => exact of_raw (w := ⟨false, 0xF7, .rm 0 m, .iv imm⟩) rfl rfl
theorem xchg (f : XchgForm) : Statement (.xchg f) := by
  intro z a h
  cases f with
  | ebGb r m => exact of_raw (w := ⟨false, 0x86, .rm r m, .none⟩) rfl rfl
  | evGv r m => exact of_raw (w := ⟨false, 0x87, .rm r m, .none⟩) rfl rfl
  | eaxReg r =>
    have e : (r == 0) = false := (Bool.not_eq_true' _).mp (show (r != 0) = true from h)
    refine of_raw (w := ⟨false, 0x90, .opreg r, .none⟩) rfl ?_
    show some (if r == 0 then Instr.nop else .xchg (.eaxReg r)) = some (.xchg (.eaxReg r))
    rw [e]; rfl
theorem mov (f : MovForm) : Statement (.mov f) := by
  intro z a h
  cases f with
  | ebGb r m => exact of_raw (w := ⟨false, 0x88, .rm r m, .none⟩) rfl rfl
  | evGv r m => exact of_raw (w := ⟨false, 0x89, .rm r m, .none⟩) rfl rfl
  | gbEb r m => exact of_raw (w := ⟨false, 0x8A, .rm r m, .none⟩) rfl rfl
  | gvEv r m => exact of_raw (w := ⟨false, 0x8B, .rm r m, .none⟩) rfl rfl
  | ewSw r m => exact of_raw (w := ⟨false, 0x8C, .rm r m, .none⟩) rfl rfl
  | swEw r m => exact of_raw (w := ⟨false, 0x8E, .rm r m, .none⟩) rfl rfl
  | alOb off => exact of_raw (w := ⟨false, 0xA0, .none, .moffs off⟩) rfl rfl
  | eaxOv off => exact of_raw (w := ⟨false, 0xA1, .none, .moffs off⟩) rfl rfl
  | obAl off => exact of_raw (w := ⟨false, 0xA2, .none, .moffs off⟩) rfl rfl
  | ovEax off => exact of_raw (w := ⟨false, 0xA3, .none, .moffs off⟩) rfl rfl
  | r8Ib r imm => exact of_raw (w := ⟨false, 0xB0, .opreg r, .ib imm⟩) rfl rfl
  | regIv r imm => exact of_raw (w := ⟨false, 0xB8, .opreg r, .iv imm⟩) rfl rfl
  | ebIb m imm => exact of_raw (w := ⟨false, 0xC6, .rm 0 m, .ib imm⟩) rfl rfl
  | evIv m imm => exact of_raw (w := ⟨false, 0xC7, .rm 0 m, .iv imm⟩) rfl rfl
  | fromCr mode c r => exact of_raw (w := ⟨true, 0x20, .raw mode c r, .none⟩) rfl rfl
  | fromDr mode c r => exact of_raw (w := ⟨true, 0x21, .raw mode c r, .none⟩) rfl rfl
  | toCr mode c r => exact of_raw (w := ⟨true, 0x22, .raw mode c r, .none⟩) rfl rfl
  | toDr mode c r => exact of_raw (w := ⟨true, 0x23, .raw mode c r, .none⟩) rfl rfl
  | fromTr mode c r => exact of_raw (w := ⟨true, 0x24, .raw mode c r, .none⟩) rfl rfl
  | toTr mode c r => exact of_raw (w := ⟨true, 0x26, .raw mode c r, .none⟩) rfl rfl
theorem lea (r : RegNum) (m : Mem) : Statement (.lea r m) := fun _ _ _ => of_raw (w := ⟨false, 0x8D, .rm r (.mem m), .none⟩) rfl rfl
theorem nop : Statement .nop := fun _ _ _ => of_raw (w := ⟨false, 0x90, .opreg 0, .none⟩) rfl rfl
theorem cbw : Statement .cbw := fun _ _ _ => of_raw (w := ⟨false, 0x98, .none, .none⟩) rfl rfl
theorem cwd : Statement .cwd := fun _ _ _ => of_raw (w := ⟨false, 0x99, .none, .none⟩) rfl rfl
theorem call (f : CallForm) : Statement (.call f) := by
  intro z a h
  cases f with
  | far off sel => exact of_raw (w := ⟨false, 0x9A, .none, .cp off sel⟩) rfl rfl
  | rel rel => exact of_raw (w := ⟨false, 0xE8, .none, .iv rel⟩) rfl rfl
  | ev m => exact of_raw (w := ⟨false, 0xFF, .rm 2 m, .none⟩) rfl (by cases m <;> rfl)
  | mp m => exact of_raw (w := ⟨false, 0xFF, .rm 3 (.mem m), .none⟩) rfl rfl
theorem wait : Statement .wait := fun _ _ _ => of_raw (w := ⟨false, 0x9B, .none, .none⟩) rfl rfl
theorem pushf : Statement .pushf := fun _ _ _ => of_raw (w := ⟨false, 0x9C, .none, .none⟩) rfl rfl
theorem popf : Statement .popf := fun _ _ _ => of_raw (w := ⟨false, 0x9D, .none, .none⟩) rfl rfl
theorem sahf : Statement .sahf := fun _ _ _ => of_raw (w := ⟨false, 0x9E, .none, .none⟩) rfl rfl
theorem lahf : Statement .lahf := fun _ _ _ => of_raw (w := ⟨false, 0x9F, .none, .none⟩) rfl rfl
theorem movsb : Statement .movsb := fun _ _ _ => of_raw (w := ⟨false, 0xA4, .none, .none⟩) rfl rfl
theorem movsv : Statement .movsv := fun _ _ _ => of_raw (w := ⟨false, 0xA5, .none, .none⟩) rfl rfl
theorem cmpsb : Statement .cmpsb := fun _ _ _ => of_raw (w := ⟨false, 0xA6, .none, .none⟩) rfl rfl
theorem cmpsv : Statement .cmpsv := fun _ _ _ => of_raw (w := ⟨false, 0xA7, .none, .none⟩) rfl rfl
theorem stosb : Statement .stosb := fun _ _ _ => of_raw (w := ⟨false, 0xAA, .none, .none⟩) rfl rfl
theorem stosv : Statement .stosv := fun _ _ _ => of_raw (w := ⟨false, 0xAB, .none, .none⟩) rfl rfl
theorem lodsb : Statement .lodsb := fun _ _ _ => of_raw (w := ⟨false, 0xAC, .none, .none⟩) rfl rfl
theorem lodsv : Statement .lodsv := fun _ _ _ => of_raw (w := ⟨false, 0xAD, .none, .none⟩) rfl rfl
theorem scasb : Statement .scasb := fun _ _ _ => of_raw (w := ⟨false, 0xAE, .none, .none⟩) rfl rfl
theorem scasv : Statement .scasv := fun _ _ _ => of_raw (w := ⟨false, 0xAF, .none, .none⟩) rfl rfl
theorem rol (f : ShiftForm) : Statement (.rol f) := by
  intro z a h
  cases f with
  | ebIb m imm => exact of_raw (w := ⟨false, 0xC0, .rm 0 m, .ib imm⟩) rfl rfl
  | evIb m imm => exact of_raw (w := ⟨false, 0xC1, .rm 0 m, .ib imm⟩) rfl rfl
  | eb1 m => exact of_raw (w := ⟨false, 0xD0, .rm 0 m, .none⟩) rfl rfl
  | ev1 m => exact of_raw (w := ⟨false, 0xD1, .rm 0 m, .none⟩) rfl rfl
  | ebCl m => exact of_raw (w := ⟨false, 0xD2, .rm 0 m, .none⟩) rfl rfl
  | evCl m => exact of_raw (w := ⟨false, 0xD3, .rm 0 m, .none⟩) rfl rfl
theorem ror (f : ShiftForm) : Statement (.ror f) := by
  intro z a h
  cases f with
  | ebIb m imm => exact of_raw (w := ⟨false, 0xC0, .rm 1 m, .ib imm⟩) rfl rfl
  | evIb m imm => exact of_raw (w := ⟨false, 0xC1, .rm 1 m, .ib imm⟩) rfl rfl
  | eb1 m => exact of_raw (w := ⟨false, 0xD0, .rm 1 m, .none⟩) rfl rfl
  | ev1 m => exact of_raw (w := ⟨false, 0xD1, .rm 1 m, .none⟩) rfl rfl
  | ebCl m => exact of_raw (w := ⟨false, 0xD2, .rm 1 m, .none⟩) rfl rfl
  | evCl m => exact of_raw (w := ⟨false, 0xD3, .rm 1 m, .none⟩) rfl rfl
theorem rcl (f : ShiftForm) : Statement (.rcl f) := by
  intro z a h
  cases f with
  | ebIb m imm => exact of_raw (w := ⟨false, 0xC0, .rm 2 m, .ib imm⟩) rfl rfl
  | evIb m imm => exact of_raw (w := ⟨false, 0xC1, .rm 2 m, .ib imm⟩) rfl rfl
  | eb1 m => exact of_raw (w := ⟨false, 0xD0, .rm 2 m, .none⟩) rfl rfl
  | ev1 m => exact of_raw (w := ⟨false, 0xD1, .rm 2 m, .none⟩) rfl rfl
  | ebCl m => exact of_raw (w := ⟨false, 0xD2, .rm 2 m, .none⟩) rfl rfl
  | evCl m => exact of_raw (w := ⟨false, 0xD3, .rm 2 m, .none⟩) rfl rfl
theorem rcr (f : ShiftForm) : Statement (.rcr f) := by
  intro z a h
  cases f with
  | ebIb m imm => exact of_raw (w := ⟨false, 0xC0, .rm 3 m, .ib imm⟩) rfl rfl
  | evIb m imm => exact of_raw (w := ⟨false, 0xC1, .rm 3 m, .ib imm⟩) rfl rfl
  | eb1 m => exact of_raw (w := ⟨false, 0xD0, .rm 3 m, .none⟩) rfl rfl
  | ev1 m => exact of_raw (w := ⟨false, 0xD1, .rm 3 m, .none⟩) rfl rfl
  | ebCl m => exact of_raw (w := ⟨false, 0xD2, .rm 3 m, .none⟩) rfl rfl
  | evCl m => exact of_raw (w := ⟨false, 0xD3, .rm 3 m, .none⟩) rfl rfl
theorem shl (f : ShlForm) : Statement (.shl f) := by
  intro z a h
  cases f with
  | ebIb m imm => exact of_raw (w := ⟨false, 0xC0, .rm 4 m, .ib imm⟩) rfl rfl
  | evIb m imm => exact of_raw (w := ⟨false, 0xC1, .rm 4 m, .ib imm⟩) rfl rfl
  | eb1 m => exact of_raw (w := ⟨false, 0xD0, .rm 4 m, .none⟩) rfl rfl
  | ev1 m => exact of_raw (w := ⟨false, 0xD1, .rm 4 m, .none⟩) rfl rfl
  | ebCl m => exact of_raw (w := ⟨false, 0xD2, .rm 4 m, .none⟩) rfl rfl
  | evCl m => exact of_raw (w := ⟨false, 0xD3, .rm 4 m, .none⟩) rfl rfl
  | ebIb6 m imm => exact of_raw (w := ⟨false, 0xC0, .rm 6 m, .ib imm⟩) rfl rfl
  | evIb6 m imm => exact of_raw (w := ⟨false, 0xC1, .rm 6 m, .ib imm⟩) rfl rfl
  | eb16 m => exact of_raw (w := ⟨false, 0xD0, .rm 6 m, .none⟩) rfl rfl
  | ev16 m => exact of_raw (w := ⟨false, 0xD1, .rm 6 m, .none⟩) rfl rfl
  | ebCl6 m => exact of_raw (w := ⟨false, 0xD2, .rm 6 m, .none⟩) rfl rfl
  | evCl6 m => exact of_raw (w := ⟨false, 0xD3, .rm 6 m, .none⟩) rfl rfl
theorem shr (f : ShiftForm) : Statement (.shr f) := by
  intro z a h
  cases f with
  | ebIb m imm => exact of_raw (w := ⟨false, 0xC0, .rm 5 m, .ib imm⟩) rfl rfl
  | evIb m imm => exact of_raw (w := ⟨false, 0xC1, .rm 5 m, .ib imm⟩) rfl rfl
  | eb1 m => exact of_raw (w := ⟨false, 0xD0, .rm 5 m, .none⟩) rfl rfl
  | ev1 m => exact of_raw (w := ⟨false, 0xD1, .rm 5 m, .none⟩) rfl rfl
  | ebCl m => exact of_raw (w := ⟨false, 0xD2, .rm 5 m, .none⟩) rfl rfl
  | evCl m => exact of_raw (w := ⟨false, 0xD3, .rm 5 m, .none⟩) rfl rfl
theorem sar (f : ShiftForm) : Statement (.sar f) := by
  intro z a h
  cases f with
  | ebIb m imm => exact of_raw (w := ⟨false, 0xC0, .rm 7 m, .ib imm⟩) rfl rfl
  | evIb m imm => exact of_raw (w := ⟨false, 0xC1, .rm 7 m, .ib imm⟩) rfl rfl
  | eb1 m => exact of_raw (w := ⟨false, 0xD0, .rm 7 m, .none⟩) rfl rfl
  | ev1 m => exact of_raw (w := ⟨false, 0xD1, .rm 7 m, .none⟩) rfl rfl
  | ebCl m => exact of_raw (w := ⟨false, 0xD2, .rm 7 m, .none⟩) rfl rfl
  | evCl m => exact of_raw (w := ⟨false, 0xD3, .rm 7 m, .none⟩) rfl rfl
theorem ret (f : RetForm) : Statement (.ret f) := by
  intro z a h
  cases f with
  | iw imm => exact of_raw (w := ⟨false, 0xC2, .none, .iw imm⟩) rfl rfl
  | plain => exact of_raw (w := ⟨false, 0xC3, .none, .none⟩) rfl rfl
theorem les (r : RegNum) (m : Mem) : Statement (.les r m) := fun _ _ _ => of_raw (w := ⟨false, 0xC4, .rm r (.mem m), .none⟩) rfl rfl
theorem lds (r : RegNum) (m : Mem) : Statement (.lds r m) := fun _ _ _ => of_raw (w := ⟨false, 0xC5, .rm r (.mem m), .none⟩) rfl rfl
theorem lss (r : RegNum) (m : Mem) : Statement (.lss r m) := fun _ _ _ => of_raw (w := ⟨true, 0xB2, .rm r (.mem m), .none⟩) rfl rfl
theorem lfs (r : RegNum) (m : Mem) : Statement (.lfs r m) := fun _ _ _ => of_raw (w := ⟨true, 0xB4, .rm r (.mem m), .none⟩) rfl rfl
theorem lgs (r : RegNum) (m : Mem) : Statement (.lgs r m) := fun _ _ _ => of_raw (w := ⟨true, 0xB5, .rm r (.mem m), .none⟩) rfl rfl
theorem enter (size : Word) (level : Byte) : Statement (.enter size level) := fun _ _ _ => of_raw (w := ⟨false, 0xC8, .none, .enter size level⟩) rfl rfl
theorem leave : Statement .leave := fun _ _ _ => of_raw (w := ⟨false, 0xC9, .none, .none⟩) rfl rfl
theorem retf (f : RetForm) : Statement (.retf f) := by
  intro z a h
  cases f with
  | iw imm => exact of_raw (w := ⟨false, 0xCA, .none, .iw imm⟩) rfl rfl
  | plain => exact of_raw (w := ⟨false, 0xCB, .none, .none⟩) rfl rfl
theorem int3 : Statement .int3 := fun _ _ _ => of_raw (w := ⟨false, 0xCC, .none, .none⟩) rfl rfl
theorem intIb (imm : Byte) : Statement (.intIb imm) := fun _ _ _ => of_raw (w := ⟨false, 0xCD, .none, .ib imm⟩) rfl rfl
theorem into : Statement .into := fun _ _ _ => of_raw (w := ⟨false, 0xCE, .none, .none⟩) rfl rfl
theorem iret : Statement .iret := fun _ _ _ => of_raw (w := ⟨false, 0xCF, .none, .none⟩) rfl rfl
theorem undefined (f : UndefForm) : Statement (.undefined f) := by
  intro z a h
  cases f with
  | opD6 => exact of_raw (w := ⟨false, 0xD6, .none, .none⟩) rfl rfl
  | opF1 => exact of_raw (w := ⟨false, 0xF1, .none, .none⟩) rfl rfl
  | opF6 m => exact of_raw (w := ⟨false, 0xF6, .rm 1 m, .none⟩) rfl rfl
  | opF7 m => exact of_raw (w := ⟨false, 0xF7, .rm 1 m, .none⟩) rfl rfl
  | opFF7 m => exact of_raw (w := ⟨false, 0xFF, .rm 7 m, .none⟩) rfl (by cases m <;> rfl)
  | opFE r m => exact undefined_opFE r m z a h
  | op8F r m => exact undefined_op8F r m z a h
  | opC6 r m => exact undefined_opC6 r m z a h
  | opC7 r m => exact undefined_opC7 r m z a h
  | op62 r i => exact of_raw (w := ⟨false, 0x62, .rm r (.reg i), .none⟩) rfl rfl
  | op8D r i => exact of_raw (w := ⟨false, 0x8D, .rm r (.reg i), .none⟩) rfl rfl
  | opC4 r i => exact of_raw (w := ⟨false, 0xC4, .rm r (.reg i), .none⟩) rfl rfl
  | opC5 r i => exact of_raw (w := ⟨false, 0xC5, .rm r (.reg i), .none⟩) rfl rfl
  | opFF3 i => exact of_raw (w := ⟨false, 0xFF, .rm 3 (.reg i), .none⟩) rfl rfl
  | opFF5 i => exact of_raw (w := ⟨false, 0xFF, .rm 5 (.reg i), .none⟩) rfl rfl
  | op0F006 m => exact of_raw (w := ⟨true, 0x00, .rm 6 m, .none⟩) rfl rfl
  | op0F007 m => exact of_raw (w := ⟨true, 0x00, .rm 7 m, .none⟩) rfl rfl
  | op0F015 m => exact of_raw (w := ⟨true, 0x01, .rm 5 m, .none⟩) rfl (by cases m <;> rfl)
  | op0FBA r m => exact undefined_op0FBA r m z a h
  | op0F25 mode c r => exact of_raw (w := ⟨true, 0x25, .raw mode c r, .none⟩) rfl rfl
  | op0F b m =>
    cases m with
    | none => exact undefined_two_byte b h
    | some p =>
      have h' : undefTwoByteWf b (some (p.1, p.2)) = true := h
      simp only [undefTwoByteWf, Bool.or_eq_true, Bool.and_eq_true, beq_iff_eq] at h'
      rcases h' with ((⟨e, c⟩ | e) | e) | e <;> subst e
      · exact undefined_0F01 p.1 p.2 c
      · exact undefined_0FB2 p.1 p.2
      · exact undefined_0FB4 p.1 p.2
      · exact undefined_0FB5 p.1 p.2
theorem xlat : Statement .xlat := fun _ _ _ => of_raw (w := ⟨false, 0xD7, .none, .none⟩) rfl rfl
theorem loopne (rel : Byte) : Statement (.loopne rel) := fun _ _ _ => of_raw (w := ⟨false, 0xE0, .none, .ib rel⟩) rfl rfl
theorem loope (rel : Byte) : Statement (.loope rel) := fun _ _ _ => of_raw (w := ⟨false, 0xE1, .none, .ib rel⟩) rfl rfl
theorem loop (rel : Byte) : Statement (.loop rel) := fun _ _ _ => of_raw (w := ⟨false, 0xE2, .none, .ib rel⟩) rfl rfl
theorem jcxz (rel : Byte) : Statement (.jcxz rel) := fun _ _ _ => of_raw (w := ⟨false, 0xE3, .none, .ib rel⟩) rfl rfl
theorem in_ (f : InForm) : Statement (.in_ f) := by
  intro z a h
  cases f with
  | alIb imm => exact of_raw (w := ⟨false, 0xE4, .none, .ib imm⟩) rfl rfl
  | eaxIb imm => exact of_raw (w := ⟨false, 0xE5, .none, .ib imm⟩) rfl rfl
  | alDx => exact of_raw (w := ⟨false, 0xEC, .none, .none⟩) rfl rfl
  | eaxDx => exact of_raw (w := ⟨false, 0xED, .none, .none⟩) rfl rfl
theorem out (f : OutForm) : Statement (.out f) := by
  intro z a h
  cases f with
  | ibAl imm => exact of_raw (w := ⟨false, 0xE6, .none, .ib imm⟩) rfl rfl
  | ibEax imm => exact of_raw (w := ⟨false, 0xE7, .none, .ib imm⟩) rfl rfl
  | dxAl => exact of_raw (w := ⟨false, 0xEE, .none, .none⟩) rfl rfl
  | dxEax => exact of_raw (w := ⟨false, 0xEF, .none, .none⟩) rfl rfl
theorem jmp (f : JmpForm) : Statement (.jmp f) := by
  intro z a h
  cases f with
  | rel rel => exact of_raw (w := ⟨false, 0xE9, .none, .iv rel⟩) rfl rfl
  | far off sel => exact of_raw (w := ⟨false, 0xEA, .none, .cp off sel⟩) rfl rfl
  | rel8 rel => exact of_raw (w := ⟨false, 0xEB, .none, .ib rel⟩) rfl rfl
  | ev m => exact of_raw (w := ⟨false, 0xFF, .rm 4 m, .none⟩) rfl (by cases m <;> rfl)
  | mp m => exact of_raw (w := ⟨false, 0xFF, .rm 5 (.mem m), .none⟩) rfl rfl
theorem hlt : Statement .hlt := fun _ _ _ => of_raw (w := ⟨false, 0xF4, .none, .none⟩) rfl rfl
theorem cmc : Statement .cmc := fun _ _ _ => of_raw (w := ⟨false, 0xF5, .none, .none⟩) rfl rfl
theorem not (f : UnaryForm) : Statement (.not f) := by
  intro z a h
  cases f with
  | eb m => exact of_raw (w := ⟨false, 0xF6, .rm 2 m, .none⟩) rfl rfl
  | ev m => exact of_raw (w := ⟨false, 0xF7, .rm 2 m, .none⟩) rfl rfl
theorem neg (f : UnaryForm) : Statement (.neg f) := by
  intro z a h
  cases f with
  | eb m => exact of_raw (w := ⟨false, 0xF6, .rm 3 m, .none⟩) rfl rfl
  | ev m => exact of_raw (w := ⟨false, 0xF7, .rm 3 m, .none⟩) rfl rfl
theorem mul (f : UnaryForm) : Statement (.mul f) := by
  intro z a h
  cases f with
  | eb m => exact of_raw (w := ⟨false, 0xF6, .rm 4 m, .none⟩) rfl rfl
  | ev m => exact of_raw (w := ⟨false, 0xF7, .rm 4 m, .none⟩) rfl rfl
theorem div (f : UnaryForm) : Statement (.div f) := by
  intro z a h
  cases f with
  | eb m => exact of_raw (w := ⟨false, 0xF6, .rm 6 m, .none⟩) rfl rfl
  | ev m => exact of_raw (w := ⟨false, 0xF7, .rm 6 m, .none⟩) rfl rfl
theorem idiv (f : UnaryForm) : Statement (.idiv f) := by
  intro z a h
  cases f with
  | eb m => exact of_raw (w := ⟨false, 0xF6, .rm 7 m, .none⟩) rfl rfl
  | ev m => exact of_raw (w := ⟨false, 0xF7, .rm 7 m, .none⟩) rfl rfl
theorem clc : Statement .clc := fun _ _ _ => of_raw (w := ⟨false, 0xF8, .none, .none⟩) rfl rfl
theorem stc : Statement .stc := fun _ _ _ => of_raw (w := ⟨false, 0xF9, .none, .none⟩) rfl rfl
theorem cli : Statement .cli := fun _ _ _ => of_raw (w := ⟨false, 0xFA, .none, .none⟩) rfl rfl
theorem sti : Statement .sti := fun _ _ _ => of_raw (w := ⟨false, 0xFB, .none, .none⟩) rfl rfl
theorem cld : Statement .cld := fun _ _ _ => of_raw (w := ⟨false, 0xFC, .none, .none⟩) rfl rfl
theorem std : Statement .std := fun _ _ _ => of_raw (w := ⟨false, 0xFD, .none, .none⟩) rfl rfl
theorem sldt (m : Rm) : Statement (.sldt m) := fun _ _ _ => of_raw (w := ⟨true, 0x00, .rm 0 m, .none⟩) rfl rfl
theorem str (m : Rm) : Statement (.str m) := fun _ _ _ => of_raw (w := ⟨true, 0x00, .rm 1 m, .none⟩) rfl rfl
theorem lldt (m : Rm) : Statement (.lldt m) := fun _ _ _ => of_raw (w := ⟨true, 0x00, .rm 2 m, .none⟩) rfl rfl
theorem ltr (m : Rm) : Statement (.ltr m) := fun _ _ _ => of_raw (w := ⟨true, 0x00, .rm 3 m, .none⟩) rfl rfl
theorem verr (m : Rm) : Statement (.verr m) := fun _ _ _ => of_raw (w := ⟨true, 0x00, .rm 4 m, .none⟩) rfl rfl
theorem verw (m : Rm) : Statement (.verw m) := fun _ _ _ => of_raw (w := ⟨true, 0x00, .rm 5 m, .none⟩) rfl rfl
theorem sgdt (m : Mem) : Statement (.sgdt m) := fun _ _ _ => of_raw (w := ⟨true, 0x01, .rm 0 (.mem m), .none⟩) rfl rfl
theorem sidt (m : Mem) : Statement (.sidt m) := fun _ _ _ => of_raw (w := ⟨true, 0x01, .rm 1 (.mem m), .none⟩) rfl rfl
theorem lgdt (m : Mem) : Statement (.lgdt m) := fun _ _ _ => of_raw (w := ⟨true, 0x01, .rm 2 (.mem m), .none⟩) rfl rfl
theorem lidt (m : Mem) : Statement (.lidt m) := fun _ _ _ => of_raw (w := ⟨true, 0x01, .rm 3 (.mem m), .none⟩) rfl rfl
theorem smsw (m : Rm) : Statement (.smsw m) := fun _ _ _ => of_raw (w := ⟨true, 0x01, .rm 4 m, .none⟩) rfl (by cases m <;> rfl)
theorem lmsw (m : Rm) : Statement (.lmsw m) := fun _ _ _ => of_raw (w := ⟨true, 0x01, .rm 6 m, .none⟩) rfl (by cases m <;> rfl)
theorem invlpg (m : Mem) : Statement (.invlpg m) := fun _ _ _ => of_raw (w := ⟨true, 0x01, .rm 7 (.mem m), .none⟩) rfl rfl
theorem lar (r : RegNum) (m : Rm) : Statement (.lar r m) := fun _ _ _ => of_raw (w := ⟨true, 0x02, .rm r m, .none⟩) rfl rfl
theorem lsl (r : RegNum) (m : Rm) : Statement (.lsl r m) := fun _ _ _ => of_raw (w := ⟨true, 0x03, .rm r m, .none⟩) rfl rfl
theorem clts : Statement .clts := fun _ _ _ => of_raw (w := ⟨true, 0x06, .none, .none⟩) rfl rfl
theorem invd : Statement .invd := fun _ _ _ => of_raw (w := ⟨true, 0x08, .none, .none⟩) rfl rfl
theorem wbinvd : Statement .wbinvd := fun _ _ _ => of_raw (w := ⟨true, 0x09, .none, .none⟩) rfl rfl
theorem bt (f : BitForm) : Statement (.bt f) := by
  intro z a h
  cases f with
  | evGv r m => exact of_raw (w := ⟨true, 0xA3, .rm r m, .none⟩) rfl rfl
  | evIb m imm => exact of_raw (w := ⟨true, 0xBA, .rm 4 m, .ib imm⟩) rfl rfl
theorem shld (f : DshiftForm) : Statement (.shld f) := by
  intro z a h
  cases f with
  | ib r m imm => exact of_raw (w := ⟨true, 0xA4, .rm r m, .ib imm⟩) rfl rfl
  | cl r m => exact of_raw (w := ⟨true, 0xA5, .rm r m, .none⟩) rfl rfl
theorem bts (f : BitForm) : Statement (.bts f) := by
  intro z a h
  cases f with
  | evGv r m => exact of_raw (w := ⟨true, 0xAB, .rm r m, .none⟩) rfl rfl
  | evIb m imm => exact of_raw (w := ⟨true, 0xBA, .rm 5 m, .ib imm⟩) rfl rfl
theorem shrd (f : DshiftForm) : Statement (.shrd f) := by
  intro z a h
  cases f with
  | ib r m imm => exact of_raw (w := ⟨true, 0xAC, .rm r m, .ib imm⟩) rfl rfl
  | cl r m => exact of_raw (w := ⟨true, 0xAD, .rm r m, .none⟩) rfl rfl
theorem cmpxchg (f : XaddForm) : Statement (.cmpxchg f) := by
  intro z a h
  cases f with
  | ebGb r m => exact of_raw (w := ⟨true, 0xB0, .rm r m, .none⟩) rfl rfl
  | evGv r m => exact of_raw (w := ⟨true, 0xB1, .rm r m, .none⟩) rfl rfl
theorem btr (f : BitForm) : Statement (.btr f) := by
  intro z a h
  cases f with
  | evGv r m => exact of_raw (w := ⟨true, 0xB3, .rm r m, .none⟩) rfl rfl
  | evIb m imm => exact of_raw (w := ⟨true, 0xBA, .rm 6 m, .ib imm⟩) rfl rfl
theorem movzx (f : MovxForm) : Statement (.movzx f) := by
  intro z a h
  cases f with
  | gvEb r m => exact of_raw (w := ⟨true, 0xB6, .rm r m, .none⟩) rfl rfl
  | gvEw r m => exact of_raw (w := ⟨true, 0xB7, .rm r m, .none⟩) rfl rfl
theorem btc (f : BitForm) : Statement (.btc f) := by
  intro z a h
  cases f with
  | evIb m imm => exact of_raw (w := ⟨true, 0xBA, .rm 7 m, .ib imm⟩) rfl rfl
  | evGv r m => exact of_raw (w := ⟨true, 0xBB, .rm r m, .none⟩) rfl rfl
theorem bsf (r : RegNum) (m : Rm) : Statement (.bsf r m) := fun _ _ _ => of_raw (w := ⟨true, 0xBC, .rm r m, .none⟩) rfl rfl
theorem bsr (r : RegNum) (m : Rm) : Statement (.bsr r m) := fun _ _ _ => of_raw (w := ⟨true, 0xBD, .rm r m, .none⟩) rfl rfl
theorem movsx (f : MovxForm) : Statement (.movsx f) := by
  intro z a h
  cases f with
  | gvEb r m => exact of_raw (w := ⟨true, 0xBE, .rm r m, .none⟩) rfl rfl
  | gvEw r m => exact of_raw (w := ⟨true, 0xBF, .rm r m, .none⟩) rfl rfl
theorem xadd (f : XaddForm) : Statement (.xadd f) := by
  intro z a h
  cases f with
  | ebGb r m => exact of_raw (w := ⟨true, 0xC0, .rm r m, .none⟩) rfl rfl
  | evGv r m => exact of_raw (w := ⟨true, 0xC1, .rm r m, .none⟩) rfl rfl
theorem bswap (r : RegNum) : Statement (.bswap r) := fun _ _ _ => of_raw (w := ⟨true, 0xC8, .opreg r, .none⟩) rfl rfl
theorem fld (f : FldForm) : Statement (.fld f) := by
  intro z a h
  cases f with
  | m32 m => exact of_raw (w := ⟨false, 0xD9, .rm 0 (.mem m), .none⟩) rfl rfl
  | m64 m => exact of_raw (w := ⟨false, 0xDD, .rm 0 (.mem m), .none⟩) rfl rfl
  | m80 m => exact of_raw (w := ⟨false, 0xDB, .rm 5 (.mem m), .none⟩) rfl rfl
  | st i => exact of_raw (w := ⟨false, 0xD9, .rm 0 (.reg i), .none⟩) rfl rfl
theorem fild (f : FildForm) : Statement (.fild f) := by
  intro z a h
  cases f with
  | m16 m => exact of_raw (w := ⟨false, 0xDF, .rm 0 (.mem m), .none⟩) rfl rfl
  | m32 m => exact of_raw (w := ⟨false, 0xDB, .rm 0 (.mem m), .none⟩) rfl rfl
  | m64 m => exact of_raw (w := ⟨false, 0xDF, .rm 5 (.mem m), .none⟩) rfl rfl
theorem fbld (m : Mem) : Statement (.fbld m) := fun _ _ _ => of_raw (w := ⟨false, 0xDF, .rm 4 (.mem m), .none⟩) rfl rfl
theorem fst (f : FstForm) : Statement (.fst f) := by
  intro z a h
  cases f with
  | m32 m => exact of_raw (w := ⟨false, 0xD9, .rm 2 (.mem m), .none⟩) rfl rfl
  | m64 m => exact of_raw (w := ⟨false, 0xDD, .rm 2 (.mem m), .none⟩) rfl rfl
  | st i => exact of_raw (w := ⟨false, 0xDD, .rm 2 (.reg i), .none⟩) rfl rfl
theorem fist (f : FistForm) : Statement (.fist f) := by
  intro z a h
  cases f with
  | m16 m => exact of_raw (w := ⟨false, 0xDF, .rm 2 (.mem m), .none⟩) rfl rfl
  | m32 m => exact of_raw (w := ⟨false, 0xDB, .rm 2 (.mem m), .none⟩) rfl rfl
theorem fstp (f : FldForm) : Statement (.fstp f) := by
  intro z a h
  cases f with
  | m32 m => exact of_raw (w := ⟨false, 0xD9, .rm 3 (.mem m), .none⟩) rfl rfl
  | m64 m => exact of_raw (w := ⟨false, 0xDD, .rm 3 (.mem m), .none⟩) rfl rfl
  | m80 m => exact of_raw (w := ⟨false, 0xDB, .rm 7 (.mem m), .none⟩) rfl rfl
  | st i => exact of_raw (w := ⟨false, 0xDD, .rm 3 (.reg i), .none⟩) rfl rfl
theorem fistp (f : FildForm) : Statement (.fistp f) := by
  intro z a h
  cases f with
  | m16 m => exact of_raw (w := ⟨false, 0xDF, .rm 3 (.mem m), .none⟩) rfl rfl
  | m32 m => exact of_raw (w := ⟨false, 0xDB, .rm 3 (.mem m), .none⟩) rfl rfl
  | m64 m => exact of_raw (w := ⟨false, 0xDF, .rm 7 (.mem m), .none⟩) rfl rfl
theorem fbstp (m : Mem) : Statement (.fbstp m) := fun _ _ _ => of_raw (w := ⟨false, 0xDF, .rm 6 (.mem m), .none⟩) rfl rfl
theorem fxch (i : RegNum) : Statement (.fxch i) := fun _ _ _ => of_raw (w := ⟨false, 0xD9, .rm 1 (.reg i), .none⟩) rfl rfl
theorem fld1 : Statement .fld1 := fun _ _ _ => of_raw (w := ⟨false, 0xD9, .rm 5 (.reg 0), .none⟩) rfl rfl
theorem fldl2t : Statement .fldl2t := fun _ _ _ => of_raw (w := ⟨false, 0xD9, .rm 5 (.reg 1), .none⟩) rfl rfl
theorem fldl2e : Statement .fldl2e := fun _ _ _ => of_raw (w := ⟨false, 0xD9, .rm 5 (.reg 2), .none⟩) rfl rfl
theorem fldpi : Statement .fldpi := fun _ _ _ => of_raw (w := ⟨false, 0xD9, .rm 5 (.reg 3), .none⟩) rfl rfl
theorem fldlg2 : Statement .fldlg2 := fun _ _ _ => of_raw (w := ⟨false, 0xD9, .rm 5 (.reg 4), .none⟩) rfl rfl
theorem fldln2 : Statement .fldln2 := fun _ _ _ => of_raw (w := ⟨false, 0xD9, .rm 5 (.reg 5), .none⟩) rfl rfl
theorem fldz : Statement .fldz := fun _ _ _ => of_raw (w := ⟨false, 0xD9, .rm 5 (.reg 6), .none⟩) rfl rfl
theorem fadd (f : FarithForm) : Statement (.fadd f) := by
  intro z a h
  cases f with
  | m32 m => exact of_raw (w := ⟨false, 0xD8, .rm 0 (.mem m), .none⟩) rfl rfl
  | m64 m => exact of_raw (w := ⟨false, 0xDC, .rm 0 (.mem m), .none⟩) rfl rfl
  | stSti i => exact of_raw (w := ⟨false, 0xD8, .rm 0 (.reg i), .none⟩) rfl rfl
  | stiSt i => exact of_raw (w := ⟨false, 0xDC, .rm 0 (.reg i), .none⟩) rfl rfl
theorem fiadd (f : FistForm) : Statement (.fiadd f) := by
  intro z a h
  cases f with
  | m32 m => exact of_raw (w := ⟨false, 0xDA, .rm 0 (.mem m), .none⟩) rfl rfl
  | m16 m => exact of_raw (w := ⟨false, 0xDE, .rm 0 (.mem m), .none⟩) rfl rfl
theorem faddp (i : RegNum) : Statement (.faddp i) := fun _ _ _ => of_raw (w := ⟨false, 0xDE, .rm 0 (.reg i), .none⟩) rfl rfl
theorem fmul (f : FarithForm) : Statement (.fmul f) := by
  intro z a h
  cases f with
  | m32 m => exact of_raw (w := ⟨false, 0xD8, .rm 1 (.mem m), .none⟩) rfl rfl
  | m64 m => exact of_raw (w := ⟨false, 0xDC, .rm 1 (.mem m), .none⟩) rfl rfl
  | stSti i => exact of_raw (w := ⟨false, 0xD8, .rm 1 (.reg i), .none⟩) rfl rfl
  | stiSt i => exact of_raw (w := ⟨false, 0xDC, .rm 1 (.reg i), .none⟩) rfl rfl
theorem fimul (f : FistForm) : Statement (.fimul f) := by
  intro z a h
  cases f with
  | m32 m => exact of_raw (w := ⟨false, 0xDA, .rm 1 (.mem m), .none⟩) rfl rfl
  | m16 m => exact of_raw (w := ⟨false, 0xDE, .rm 1 (.mem m), .none⟩) rfl rfl
theorem fmulp (i : RegNum) : Statement (.fmulp i) := fun _ _ _ => of_raw (w := ⟨false, 0xDE, .rm 1 (.reg i), .none⟩) rfl rfl
theorem fsub (f : FarithForm) : Statement (.fsub f) := by
  intro z a h
  cases f with
  | m32 m => exact of_raw (w := ⟨false, 0xD8, .rm 4 (.mem m), .none⟩) rfl rfl
  | m64 m => exact of_raw (w := ⟨false, 0xDC, .rm 4 (.mem m), .none⟩) rfl rfl
  | stSti i => exact of_raw (w := ⟨false, 0xD8, .rm 4 (.reg i), .none⟩) rfl rfl
  | stiSt i => exact of_raw (w := ⟨false, 0xDC, .rm 5 (.reg i), .none⟩) rfl rfl
theorem fisub (f : FistForm) : Statement (.fisub f) := by
  intro z a h
  cases f with
  | m32 m => exact of_raw (w := ⟨false, 0xDA, .rm 4 (.mem m), .none⟩) rfl rfl
  | m16 m => exact of_raw (w := ⟨false, 0xDE, .rm 4 (.mem m), .none⟩) rfl rfl
theorem fsubp (i : RegNum) : Statement (.fsubp i) := fun _ _ _ => of_raw (w := ⟨false, 0xDE, .rm 5 (.reg i), .none⟩) rfl rfl
theorem fsubr (f : FarithForm) : Statement (.fsubr f) := by
  intro z a h
  cases f with
  | m32 m => exact of_raw (w := ⟨false, 0xD8, .rm 5 (.mem m), .none⟩) rfl rfl
  | m64 m => exact of_raw (w := ⟨false, 0xDC, .rm 5 (.mem m), .none⟩) rfl rfl
  | stSti i => exact of_raw (w := ⟨false, 0xD8, .rm 5 (.reg i), .none⟩) rfl rfl
  | stiSt i => exact of_raw (w := ⟨false, 0xDC, .rm 4 (.reg i), .none⟩) rfl rfl
theorem fisubr (f : FistForm) : Statement (.fisubr f) := by
  intro z a h
  cases f with
  | m32 m => exact of_raw (w := ⟨false, 0xDA, .rm 5 (.mem m), .none⟩) rfl rfl
  | m16 m => exact of_raw (w := ⟨false, 0xDE, .rm 5 (.mem m), .none⟩) rfl rfl
theorem fsubrp (i : RegNum) : Statement (.fsubrp i) := fun _ _ _ => of_raw (w := ⟨false, 0xDE, .rm 4 (.reg i), .none⟩) rfl rfl
theorem fdiv (f : FarithForm) : Statement (.fdiv f) := by
  intro z a h
  cases f with
  | m32 m => exact of_raw (w := ⟨false, 0xD8, .rm 6 (.mem m), .none⟩) rfl rfl
  | m64 m => exact of_raw (w := ⟨false, 0xDC, .rm 6 (.mem m), .none⟩) rfl rfl
  | stSti i => exact of_raw (w := ⟨false, 0xD8, .rm 6 (.reg i), .none⟩) rfl rfl
  | stiSt i => exact of_raw (w := ⟨false, 0xDC, .rm 7 (.reg i), .none⟩) rfl rfl
theorem fidiv (f : FistForm) : Statement (.fidiv f) := by
  intro z a h
  cases f with
  | m32 m => exact of_raw (w := ⟨false, 0xDA, .rm 6 (.mem m), .none⟩) rfl rfl
  | m16 m => exact of_raw (w := ⟨false, 0xDE, .rm 6 (.mem m), .none⟩) rfl rfl
theorem fdivp (i : RegNum) : Statement (.fdivp i) := fun _ _ _ => of_raw (w := ⟨false, 0xDE, .rm 7 (.reg i), .none⟩) rfl rfl
theorem fdivr (f : FarithForm) : Statement (.fdivr f) := by
  intro z a h
  cases f with
  | m32 m => exact of_raw (w := ⟨false, 0xD8, .rm 7 (.mem m), .none⟩) rfl rfl
  | m64 m => exact of_raw (w := ⟨false, 0xDC, .rm 7 (.mem m), .none⟩) rfl rfl
  | stSti i => exact of_raw (w := ⟨false, 0xD8, .rm 7 (.reg i), .none⟩) rfl rfl
  | stiSt i => exact of_raw (w := ⟨false, 0xDC, .rm 6 (.reg i), .none⟩) rfl rfl
theorem fidivr (f : FistForm) : Statement (.fidivr f) := by
  intro z a h
  cases f with
  | m32 m => exact of_raw (w := ⟨false, 0xDA, .rm 7 (.mem m), .none⟩) rfl rfl
  | m16 m => exact of_raw (w := ⟨false, 0xDE, .rm 7 (.mem m), .none⟩) rfl rfl
theorem fdivrp (i : RegNum) : Statement (.fdivrp i) := fun _ _ _ => of_raw (w := ⟨false, 0xDE, .rm 6 (.reg i), .none⟩) rfl rfl
theorem fsqrt : Statement .fsqrt := fun _ _ _ => of_raw (w := ⟨false, 0xD9, .rm 7 (.reg 2), .none⟩) rfl rfl
theorem fscale : Statement .fscale := fun _ _ _ => of_raw (w := ⟨false, 0xD9, .rm 7 (.reg 5), .none⟩) rfl rfl
theorem fprem : Statement .fprem := fun _ _ _ => of_raw (w := ⟨false, 0xD9, .rm 7 (.reg 0), .none⟩) rfl rfl
theorem fprem1 : Statement .fprem1 := fun _ _ _ => of_raw (w := ⟨false, 0xD9, .rm 6 (.reg 5), .none⟩) rfl rfl
theorem frndint : Statement .frndint := fun _ _ _ => of_raw (w := ⟨false, 0xD9, .rm 7 (.reg 4), .none⟩) rfl rfl
theorem fxtract : Statement .fxtract := fun _ _ _ => of_raw (w := ⟨false, 0xD9, .rm 6 (.reg 4), .none⟩) rfl rfl
theorem fabs : Statement .fabs := fun _ _ _ => of_raw (w := ⟨false, 0xD9, .rm 4 (.reg 1), .none⟩) rfl rfl
theorem fchs : Statement .fchs := fun _ _ _ => of_raw (w := ⟨false, 0xD9, .rm 4 (.reg 0), .none⟩) rfl rfl
theorem fcom (f : FstForm) : Statement (.fcom f) := by
  intro z a h
  cases f with
  | m32 m => exact of_raw (w := ⟨false, 0xD8, .rm 2 (.mem m), .none⟩) rfl rfl
  | m64 m => exact of_raw (w := ⟨false, 0xDC, .rm 2 (.mem m), .none⟩) rfl rfl
  | st i => exact of_raw (w := ⟨false, 0xD8, .rm 2 (.reg i), .none⟩) rfl rfl
theorem fcomp (f : FstForm) : Statement (.fcomp f) := by
  intro z a h
  cases f with
  | m32 m => exact of_raw (w := ⟨false, 0xD8, .rm 3 (.mem m), .none⟩) rfl rfl
  | m64 m => exact of_raw (w := ⟨false, 0xDC, .rm 3 (.mem m), .none⟩) rfl rfl
  | st i => exact of_raw (w := ⟨false, 0xD8, .rm 3 (.reg i), .none⟩) rfl rfl
theorem fcompp : Statement .fcompp := fun _ _ _ => of_raw (w := ⟨false, 0xDE, .rm 3 (.reg 1), .none⟩) rfl rfl
theorem ficom (f : FistForm) : Statement (.ficom f) := by
  intro z a h
  cases f with
  | m16 m => exact of_raw (w := ⟨false, 0xDE, .rm 2 (.mem m), .none⟩) rfl rfl
  | m32 m => exact of_raw (w := ⟨false, 0xDA, .rm 2 (.mem m), .none⟩) rfl rfl
theorem ficomp (f : FistForm) : Statement (.ficomp f) := by
  intro z a h
  cases f with
  | m16 m => exact of_raw (w := ⟨false, 0xDE, .rm 3 (.mem m), .none⟩) rfl rfl
  | m32 m => exact of_raw (w := ⟨false, 0xDA, .rm 3 (.mem m), .none⟩) rfl rfl
theorem fucom (i : RegNum) : Statement (.fucom i) := fun _ _ _ => of_raw (w := ⟨false, 0xDD, .rm 4 (.reg i), .none⟩) rfl rfl
theorem fucomp (i : RegNum) : Statement (.fucomp i) := fun _ _ _ => of_raw (w := ⟨false, 0xDD, .rm 5 (.reg i), .none⟩) rfl rfl
theorem fucompp : Statement .fucompp := fun _ _ _ => of_raw (w := ⟨false, 0xDA, .rm 5 (.reg 1), .none⟩) rfl rfl
theorem ftst : Statement .ftst := fun _ _ _ => of_raw (w := ⟨false, 0xD9, .rm 4 (.reg 4), .none⟩) rfl rfl
theorem fxam : Statement .fxam := fun _ _ _ => of_raw (w := ⟨false, 0xD9, .rm 4 (.reg 5), .none⟩) rfl rfl
theorem fptan : Statement .fptan := fun _ _ _ => of_raw (w := ⟨false, 0xD9, .rm 6 (.reg 2), .none⟩) rfl rfl
theorem fpatan : Statement .fpatan := fun _ _ _ => of_raw (w := ⟨false, 0xD9, .rm 6 (.reg 3), .none⟩) rfl rfl
theorem fsin : Statement .fsin := fun _ _ _ => of_raw (w := ⟨false, 0xD9, .rm 7 (.reg 6), .none⟩) rfl rfl
theorem fcos : Statement .fcos := fun _ _ _ => of_raw (w := ⟨false, 0xD9, .rm 7 (.reg 7), .none⟩) rfl rfl
theorem fsincos : Statement .fsincos := fun _ _ _ => of_raw (w := ⟨false, 0xD9, .rm 7 (.reg 3), .none⟩) rfl rfl
theorem f2xm1 : Statement .f2xm1 := fun _ _ _ => of_raw (w := ⟨false, 0xD9, .rm 6 (.reg 0), .none⟩) rfl rfl
theorem fyl2x : Statement .fyl2x := fun _ _ _ => of_raw (w := ⟨false, 0xD9, .rm 6 (.reg 1), .none⟩) rfl rfl
theorem fyl2xp1 : Statement .fyl2xp1 := fun _ _ _ => of_raw (w := ⟨false, 0xD9, .rm 7 (.reg 1), .none⟩) rfl rfl
theorem fninit : Statement .fninit := fun _ _ _ => of_raw (w := ⟨false, 0xDB, .rm 4 (.reg 3), .none⟩) rfl rfl
theorem fldcw (m : Mem) : Statement (.fldcw m) := fun _ _ _ => of_raw (w := ⟨false, 0xD9, .rm 5 (.mem m), .none⟩) rfl rfl
theorem fnstcw (m : Mem) : Statement (.fnstcw m) := fun _ _ _ => of_raw (w := ⟨false, 0xD9, .rm 7 (.mem m), .none⟩) rfl rfl
theorem fnstsw (f : FnstswForm) : Statement (.fnstsw f) := by
  intro z a h
  cases f with
  | mem m => exact of_raw (w := ⟨false, 0xDD, .rm 7 (.mem m), .none⟩) rfl rfl
  | ax => exact of_raw (w := ⟨false, 0xDF, .rm 4 (.reg 0), .none⟩) rfl rfl
theorem fnclex : Statement .fnclex := fun _ _ _ => of_raw (w := ⟨false, 0xDB, .rm 4 (.reg 2), .none⟩) rfl rfl
theorem fincstp : Statement .fincstp := fun _ _ _ => of_raw (w := ⟨false, 0xD9, .rm 6 (.reg 7), .none⟩) rfl rfl
theorem fdecstp : Statement .fdecstp := fun _ _ _ => of_raw (w := ⟨false, 0xD9, .rm 6 (.reg 6), .none⟩) rfl rfl
theorem ffree (i : RegNum) : Statement (.ffree i) := fun _ _ _ => of_raw (w := ⟨false, 0xDD, .rm 0 (.reg i), .none⟩) rfl rfl
theorem fnop : Statement .fnop := fun _ _ _ => of_raw (w := ⟨false, 0xD9, .rm 2 (.reg 0), .none⟩) rfl rfl
theorem feni : Statement .feni := fun _ _ _ => of_raw (w := ⟨false, 0xDB, .rm 4 (.reg 0), .none⟩) rfl rfl
theorem fdisi : Statement .fdisi := fun _ _ _ => of_raw (w := ⟨false, 0xDB, .rm 4 (.reg 1), .none⟩) rfl rfl
theorem fsetpm : Statement .fsetpm := fun _ _ _ => of_raw (w := ⟨false, 0xDB, .rm 4 (.reg 4), .none⟩) rfl rfl
theorem fnstenv (m : Mem) : Statement (.fnstenv m) := fun _ _ _ => of_raw (w := ⟨false, 0xD9, .rm 6 (.mem m), .none⟩) rfl rfl
theorem fldenv (m : Mem) : Statement (.fldenv m) := fun _ _ _ => of_raw (w := ⟨false, 0xD9, .rm 4 (.mem m), .none⟩) rfl rfl
theorem fnsave (m : Mem) : Statement (.fnsave m) := fun _ _ _ => of_raw (w := ⟨false, 0xDD, .rm 6 (.mem m), .none⟩) rfl rfl
theorem frstor (m : Mem) : Statement (.frstor m) := fun _ _ _ => of_raw (w := ⟨false, 0xDD, .rm 4 (.mem m), .none⟩) rfl rfl
theorem undefinedEsc (f : EscForm) : Statement (.undefinedEsc f) := by
  intro z a h
  cases f with
  | d8 r m =>
    cases m with
    | mem m => exact esc_memory_d8 r m z a h
    | reg i => exact esc_register_d8 r i ((Bool.not_eq_true' _).mp h)
  | d9 r m =>
    cases m with
    | mem m => exact esc_memory_d9 r m z a h
    | reg i => exact esc_register_d9 r i ((Bool.not_eq_true' _).mp h)
  | da r m =>
    cases m with
    | mem m => exact esc_memory_da r m z a h
    | reg i => exact esc_register_da r i ((Bool.not_eq_true' _).mp h)
  | db r m =>
    cases m with
    | mem m => exact esc_memory_db r m z a h
    | reg i => exact esc_register_db r i ((Bool.not_eq_true' _).mp h)
  | dc r m =>
    cases m with
    | mem m => exact esc_memory_dc r m z a h
    | reg i => exact esc_register_dc r i ((Bool.not_eq_true' _).mp h)
  | dd r m =>
    cases m with
    | mem m => exact esc_memory_dd r m z a h
    | reg i => exact esc_register_dd r i ((Bool.not_eq_true' _).mp h)
  | de r m =>
    cases m with
    | mem m => exact esc_memory_de r m z a h
    | reg i => exact esc_register_de r i ((Bool.not_eq_true' _).mp h)
  | df r m =>
    cases m with
    | mem m => exact esc_memory_df r m z a h
    | reg i => exact esc_register_df r i ((Bool.not_eq_true' _).mp h)

end Sys2Proof.Laws.RawRoundTrip
end

