-- ==== Sys2Proof/Laws/Run.lean ====
section
/-! SUPPORT. What the envelope of an instruction, a store and a push do, said once for the proofs about instructions. -/
namespace Sys2Proof.Machine

/-! ### Memory that an instruction leaves -/

theorem keeps_of_mem {s t : State} (h : t.mem = s.mem) : s.KeepsMemory t [] := by
  intro _ a _
  rw [h]

theorem keeps_of_reads {s s1 t : State} (h : s.begin.Reads s1) (ht : t.mem = s1.mem) : s.KeepsMemory t [] := by
  intro hp a _
  rw [ht, (h.2 hp).1]
  rfl

theorem keeps_of_wrote {s s1 s2 t : State} {ps : List BytePlace} {v : Nat} (h : s.begin.Reads s1) (hm : s2.mem = s1.mem)
    (hp : s2.pins = s1.pins) (ht : t.mem = (s2.wrote ps v).mem) : s.KeepsMemory t ps := by
  intro hg a ha
  rw [ht, wrote_mem, hm, (h.2 hg).1]
  · rfl
  · intro p hpp
    have e : s2.a20 p.1 = s.a20 p.1 := by
      unfold State.a20
      rw [hp, h.1]
      rfl
    rw [e]
    exact ha p hpp

/-! ### From the body of an instruction to what it answers -/

theorem completes_of_ok {i : Instr} {l k : Bool} {body : M Unit} {s t u : State} {ps : List BytePlace}
    (hi : exec i s = runInstr l k body s) (hr : s.Ready l) (hb : body s.begin = .ok () t) (hu : u = t.complete k)
    (hk : s.KeepsMemory t ps) : Completes i s u ps := by
  subst hu
  exact ⟨by rw [hi]; exact runInstr_ok hr hb, hk⟩

theorem raises_of_error {i : Instr} {l k : Bool} {body : M Unit} {s u : State} {v : Byte} {c : Option Word}
    (hi : exec i s = runInstr l k body s) (hr : s.Ready l)
    (hb : body s.begin = .error (.exn { vector := v, code := c, cls := .fault }) u) : Raises i s u v c := by
  unfold Raises
  rw [hi]
  exact runInstr_exn hr hb

theorem runInstr_shutdown {l k : Bool} {body : M Unit} {s t : State} (h : s.Ready l) (hb : body s.begin = .error .shutdown t) :
    runInstr l k body s = .next (rollback s t).abandon.shutdown := by
  simp [runInstr, h.1, h.2, hb]

theorem runInstr_freeze {l k : Bool} {body : M Unit} {s t : State} (h : s.Ready l) (hb : body s.begin = .error .freeze t) :
    runInstr l k body s = .next { (rollback s t).abandon with run := .fpWait } := by
  simp [runInstr, h.1, h.2, hb]

theorem runInstr_refuse {l k : Bool} {body : M Unit} {s t : State} {r : Refusal} (h : s.Ready l)
    (hb : body s.begin = .error (.refuse r) t) : runInstr l k body s = .refused r := by
  simp [runInstr, h.1, h.2, hb]

/-! ### Stores and pushes -/

/-- A store whose checks pass is what it writes at its places. -/
theorem storeWith_run {sr : SegName} {off n al v : Nat} {write : List BytePlace → M Unit} {ps : List BytePlace} {s s1 : State}
    (h : locate sr off n al true s = .ok ps s1) : storeWith sr off n al v write s = write ps s1 := by
  simp [storeWith, h]

theorem store_run {sr : SegName} {off n al v : Nat} {ps : List BytePlace} {s s1 : State} (h : locate sr off n al true s = .ok ps s1) :
    store sr off n al v s = .ok () (s1.wrote ps v) := by
  rw [store, storeWith_run h, writeBytes_run]

theorem storeMem_run {m : Mem} {n al v : Nat} {ps : List BytePlace} {s s1 : State} (h : locateMem m n al true s = .ok ps s1) :
    storeMem m n al v s = .ok () (s1.wrote ps v) := store_run (h := h)

theorem wrote_spMinus (s : State) (ps : List BytePlace) (v n : Nat) : (s.wrote ps v).spMinus n = s.spMinus n := by
  rw [wrote_touches s ps v]
  rfl

theorem wroteAll_spMinus (s : State) (pss : List (List BytePlace)) (vs : List Nat) (n : Nat) :
    (s.wroteAll pss vs).spMinus n = s.spMinus n := by
  rw [wroteAll_touches s pss vs]
  rfl

theorem State.Reads.spMinus {s t : State} (h : s.Reads t) (n : Nat) : t.spMinus n = s.spMinus n := by
  rw [h.1]
  rfl

/-- The places of pushes are located by reading only. -/
theorem pushPlaces_reads {n al k x : Nat} {s t : State} {pss : List (List BytePlace)} (h : pushPlaces n al k x s = .ok pss t) :
    s.Reads t := by
  induction k generalizing x s t pss with
  | zero =>
    simp only [pushPlaces, M.pure_run, EStateM.Result.ok.injEq] at h
    rw [← h.2]
    exact State.Reads.refl s
  | succ k ih =>
    simp only [pushPlaces] at h
    obtain ⟨a, u, h1, h⟩ := M.bind_ok.mp h
    cases h1
    obtain ⟨ps, u1, h2, h⟩ := M.bind_ok.mp h
    obtain ⟨rest, u2, h3, h⟩ := M.bind_ok.mp h
    simp only [M.pure_run, EStateM.Result.ok.injEq] at h
    rw [← h.2]
    exact (locate_reads h2).trans (ih h3)

/-- Pushes of `vs` write them at their places, and eSP drops by their size. -/
theorem pushList_run {n al : Nat} {vs : List Nat} {pss : List (List BytePlace)} {s t : State}
    (h : pushPlaces n al vs.length 0 s = .ok pss t) :
    pushList n al vs s = .ok () ((t.wroteAll pss vs).withSP (s.spMinus (n * vs.length))) := by
  have e : t.spMinus (n * vs.length) = s.spMinus (n * vs.length) := (pushPlaces_reads h).spMinus _
  simp only [pushList, M.bind_run, h, writeAll_run, M.get_run, setSP_run, wroteAll_spMinus, e]

/-- A push of one value. -/
theorem push_run {n v : Nat} {ps : List BytePlace} {s t : State} (h : locate .ss (s.spMinus n) n n true s = .ok ps t) :
    push n v s = .ok () ((t.wrote ps v).withSP (s.spMinus n)) := by
  have h' : pushPlaces n n 1 0 s = .ok [ps] t := by
    simp only [pushPlaces, M.bind_run, M.get_run, Nat.zero_add, h, M.pure_run]
  have e := pushList_run (vs := [v]) h'
  simpa [push, State.wroteAll] using e

end Sys2Proof.Machine
end

