-- ==== Sys2Proof/Tests/Slice0.lean ====
section
/-! SUPPORT. Tests: ill-formed terms that WellFormed refuses, words written out from the encoding tables of 30_encoding,
single steps whose outcome 95_test_vectors, 96_test_vectors_derived and 97_test_vectors_fpu give, and, for every statement
with hypotheses, a concrete state and operands that meet them. -/
set_option Elab.async false

namespace Sys2Proof.Tests
open Sys2Proof Sys2Proof.Machine

/-! ### Helpers -/

/-- Bytes stored from an address on. -/
def put (a : Nat) (bs : List Nat) (s : State) : State :=
  match bs with
  | [] => s
  | b :: bs => put (a + 1) bs { s with mem := memWrite s.mem a (BitVec.ofNat 8 b) }

/-- The bytes of a number, the least significant first. -/
def le : Nat → Nat → List Nat
  | 0, _ => []
  | n + 1, v => v % 256 :: le n (v / 256)

/-- The number in memory at an address. -/
def bytesAt (a n : Nat) (s : State) : Nat :=
  match n with
  | 0 => 0
  | n + 1 => (memRead s.mem a).toNat + 256 * bytesAt (a + 1) n s

/-- A step from a state with these bytes at CS:EIP ends in a next state that meets a condition. -/
def after (bs : List Nat) (s : State) (p : State → Bool) : Bool :=
  match step (put (s.segs.cs.hid.base + s.eip).toNat bs s) with
  | .next t => p t
  | .fault _ => false
  | .refused _ => false

/-- `k` steps. -/
def afterSteps (k : Nat) (s : State) (p : State → Bool) : Bool :=
  match k with
  | 0 => p s
  | k + 1 =>
    match step s with
    | .next t => afterSteps k t p
    | .fault _ => false
    | .refused _ => false

/-- A 4-Gbyte segment, 32-bit, of privilege level `dpl`. -/
def flatSeg (sel : Word) (type : BitVec 4) (dpl : BitVec 2) : SegReg :=
  ⟨sel, { base := 0, limit := 0xFFFFFFFF, valid := true, present := true, dpl := dpl, s := true, type := type, db := true, g := true }⟩

/-- FLAT32 of 95_test_vectors: protected mode, privilege level 0, flat 32-bit segments, EIP = 1000H. -/
def flat : State :=
  { State.reset with
    cr0 := 0x60000021, eip := 0x1000
    latch := { Latches.atReset with shadow := .none }
    regs := { State.reset.regs with edx := 0, ebx := 0x3000, esp := 0x8000 }
    segs := { es := flatSeg 0x10 3 0, cs := flatSeg 8 11 0, ss := flatSeg 0x10 3 0, ds := flatSeg 0x10 3 0, fs := flatSeg 0x10 3 0, gs := flatSeg 0x10 3 0 } }

/-- REAL16: real mode, CS = DS = ES = 0, SS = 3000H, IP = 1000H. -/
def real : State :=
  { State.reset with
    eip := 0x1000
    regs := { State.reset.regs with edx := 0 }
    latch := { Latches.atReset with shadow := .none }
    segs := { es := ⟨0, Hidden.atReset 0 3⟩, cs := ⟨0, Hidden.atReset 0 11⟩, ss := ⟨0x3000, Hidden.atReset 0x30000 3⟩, ds := ⟨0, Hidden.atReset 0 3⟩, fs := ⟨0, Hidden.atReset 0 3⟩, gs := ⟨0, Hidden.atReset 0 3⟩ } }

/-- A segment register loaded as in real mode. -/
def inReal (n : SegName) (sel : Word) (s : State) : State := { s with segs := s.segs.set n ((s.segs.get n).realLoad sel) }

/-- FLAT32 with a 32-bit interrupt gate for vector `v`, to 0008H:F000H + v, and descriptors 8 (code) and 10H (data). -/
def flatGate (v : Nat) : State :=
  put (0x80000 + 8 * v) [v, 0xF0, 8, 0, 0, 0x8E, 0, 0] <|
  put 0x90008 [0xFF, 0xFF, 0, 0, 0, 0x9B, 0xCF, 0, 0xFF, 0xFF, 0, 0, 0, 0x93, 0xCF, 0]
    { flat with idtr := ⟨0x80000, 0x7FF⟩, gdtr := ⟨0x90000, 0x3F⟩ }

/-- REAL16 with the vector `v` at 0000H:F000H + v. -/
def realGate (v : Nat) : State := put (4 * v) [v, 0xF0, 0, 0] real

/-- FLAT32 after FNINIT with control word `cw` and the numbers pushed in turn. -/
def fpu (cw : Word) (xs : List Ext) : State :=
  { flat with fpu := xs.foldl Fpu.push { Fpu.initialised FpuRegs.zero with cw := cw } }

/-- The exception flags and ES of the status word, as its bits 7 to 0. -/
def flagsAre (v : Nat) (t : State) : Bool :=
  let f := t.fpu.st
  [f.ie, f.de, f.ze, f.oe, f.ue, f.pe, f.sf, t.fpu.es] == (List.range 8).map v.testBit

/-! ### Well-formedness: for each check an ill-formed term, refused -/

theorem test_wf_disp16 : Instr.wf .s16 .s16 (.lea 0 (.a16 0 (.d32 1))) = false := rfl
theorem test_wf_disp32 : Instr.wf .s32 .s32 (.lea 0 (.a32 0 (.d16 1))) = false := rfl
theorem test_wf_a16_size : Instr.wf .s16 .s32 (.lea 0 (.a16 0 .none)) = false := rfl
theorem test_wf_a16_bp : Instr.wf .s16 .s16 (.lea 0 (.a16 6 .none)) = false := rfl
theorem test_wf_abs16 : Instr.wf .s16 .s32 (.lea 0 (.abs16 1)) = false := rfl
theorem test_wf_a32_size : Instr.wf .s16 .s16 (.lea 0 (.a32 0 .none)) = false := rfl
theorem test_wf_a32_esp : Instr.wf .s16 .s32 (.lea 0 (.a32 4 .none)) = false := rfl
theorem test_wf_a32_ebp : Instr.wf .s16 .s32 (.lea 0 (.a32 5 .none)) = false := rfl
theorem test_wf_abs32 : Instr.wf .s16 .s16 (.lea 0 (.abs32 1)) = false := rfl
theorem test_wf_sib_size : Instr.wf .s16 .s16 (.lea 0 (.sib 0 1 0 .none)) = false := rfl
theorem test_wf_sib_base : Instr.wf .s16 .s32 (.lea 0 (.sib 0 1 5 .none)) = false := rfl
theorem test_wf_sib_disp : Instr.wf .s16 .s32 (.lea 0 (.sib 0 1 0 (.d16 1))) = false := rfl
theorem test_wf_sibAbs : Instr.wf .s16 .s16 (.lea 0 (.sibAbs 0 1 1)) = false := rfl
theorem test_wf_rm : Instr.wf .s16 .s32 (.add (.ebGb 0 (.mem (.abs16 1)))) = false := rfl
theorem test_wf_immediate : Instr.wf .s16 .s16 (.add (.eaxIv 0x10000)) = false := rfl
theorem test_wf_rm_immediate : Instr.wf .s16 .s16 (.add (.ev81 (.reg 0) 0x10000)) = false := rfl
theorem test_wf_near : Instr.wf .s16 .s16 (.jO (.near 0x10000)) = false := rfl
theorem test_wf_moffs : Instr.wf .s32 .s16 (.mov (.alOb 0x10000)) = false := rfl
theorem test_wf_far : Instr.wf .s16 .s32 (.call (.far 0x10000 0)) = false := rfl
theorem test_wf_xchg : Instr.wf .s16 .s16 (.xchg (.eaxReg 0)) = false := rfl
theorem test_wf_fe : Instr.wf .s16 .s16 (.undefined (.opFE 1 (.reg 0))) = false := rfl
theorem test_wf_8f : Instr.wf .s16 .s16 (.undefined (.op8F 0 (.reg 0))) = false := rfl
theorem test_wf_ba : Instr.wf .s16 .s16 (.undefined (.op0FBA 4 (.reg 0))) = false := rfl
theorem test_wf_two_byte_known : Instr.wf .s16 .s16 (.undefined (.op0F 0xA2 none)) = true := rfl
theorem test_wf_two_byte : Instr.wf .s16 .s16 (.undefined (.op0F 0x06 none)) = false := rfl
theorem test_wf_two_byte_memory : Instr.wf .s16 .s16 (.undefined (.op0F 0x01 (some (4, 0)))) = false := rfl
theorem test_wf_esc_memory : Instr.wf .s16 .s16 (.undefinedEsc (.d9 0 (.mem (.abs16 1)))) = false := rfl
theorem test_wf_esc_register : Instr.wf .s16 .s16 (.undefinedEsc (.d9 2 (.reg 0))) = false := rfl

/-! ### Words written out from the encoding tables (30_encoding R310 to R314) -/

theorem test_decode_opsizePrefix : decodeTableWord 8 0x66 = some (.opsizePrefix) := rfl
theorem test_decode_add : decodeTableWord 16 0xC301 = some (.add (.evGv 0 (.reg 3))) := rfl
theorem test_decode_adc_imm8 : decodeTableWord 24 0xFFD183 = some (.adc (.ev83 (.reg 1) 0xFF)) := rfl
theorem test_decode_sub_disp8 : decodeTableWord 24 0xFE462A = some (.sub (.gbEb 0 (.mem (.a16 6 (.d8 0xFE))))) := rfl
theorem test_decode_cmp_disp16 : decodeTableWord 32 0x12349739 = some (.cmp (.evGv 2 (.mem (.a16 7 (.d16 0x1234))))) := rfl
theorem test_decode_or_direct : decodeTableWord 40 0x5512340E80 = some (.or (.eb80 (.mem (.abs16 0x1234)) 0x55)) := rfl
theorem test_decode_inc : decodeTableWord 8 0x42 = some (.inc (.reg 2)) := rfl
theorem test_decode_imul : decodeTableWord 40 0x1234C369 = some (.imul (.gvEvIv 0 (.reg 3) 0x1234)) := rfl
theorem test_decode_aam : decodeTableWord 16 0xAD4 = some (.aam 10) := rfl
theorem test_decode_shl6 : decodeTableWord 24 0x5F0C1 = some (.shl (.evIb6 (.reg 0) 5)) := rfl
theorem test_decode_sar_cl : decodeTableWord 16 0xFAD3 = some (.sar (.evCl (.reg 2))) := rfl
theorem test_decode_shld : decodeTableWord 32 0x8D8A40F = some (.shld (.ib 3 (.reg 0) 8)) := rfl
theorem test_decode_bts : decodeTableWord 32 0x7EBBA0F = some (.bts (.evIb (.reg 3) 7)) := rfl
theorem test_decode_bsf : decodeTableWord 24 0xC3BC0F = some (.bsf 0 (.reg 3)) := rfl
theorem test_decode_mov_imm : decodeTableWord 24 0x1234B8 = some (.mov (.regIv 0 0x1234)) := rfl
theorem test_decode_mov_cr : decodeTableWord 24 0xC0220F = some (.mov (.toCr 3 0 0)) := rfl
theorem test_decode_mov_seg : decodeTableWord 16 0xD88E = some (.mov (.swEw 3 (.reg 0))) := rfl
theorem test_decode_movzx : decodeTableWord 24 0xC3B60F = some (.movzx (.gvEb 0 (.reg 3))) := rfl
theorem test_decode_push_imm8 : decodeTableWord 16 0xFF6A = some (.push (.ib 0xFF)) := rfl
theorem test_decode_pop_mem : decodeTableWord 24 0x4478F = some (.pop (.ev (.mem (.a16 7 (.d8 4))))) := rfl
theorem test_decode_xchg : decodeTableWord 8 0x93 = some (.xchg (.eaxReg 3)) := rfl
theorem test_decode_lea : decodeTableWord 24 0x2408D = some (.lea 0 (.a16 0 (.d8 2))) := rfl
theorem test_decode_lds : decodeTableWord 32 0x123406C5 = some (.lds 0 (.abs16 0x1234)) := rfl
theorem test_decode_enter : decodeTableWord 32 0x10008C8 = some (.enter 8 1) := rfl
theorem test_decode_jE : decodeTableWord 16 0xFE74 = some (.jE (.short 0xFE)) := rfl
theorem test_decode_jG_near : decodeTableWord 32 0x1008F0F = some (.jG (.near 0x100)) := rfl
theorem test_decode_call_far : decodeTableWord 40 0x200012349A = some (.call (.far 0x1234 0x2000)) := rfl
theorem test_decode_retn : decodeTableWord 24 0x8C2 = some (.ret (.iw 8)) := rfl
theorem test_decode_jmp_far_mem : decodeTableWord 16 0x28FF = some (.jmp (.mp (.a16 0 .none))) := rfl
theorem test_decode_intIb : decodeTableWord 16 0x21CD = some (.intIb 0x21) := rfl
theorem test_decode_setL : decodeTableWord 24 0xC09C0F = some (.setL 0 (.reg 0)) := rfl
theorem test_decode_in : decodeTableWord 16 0x60E4 = some (.in_ (.alIb 0x60)) := rfl
theorem test_decode_movs : decodeTableWord 8 0xA5 = some (.movsv) := rfl
theorem test_decode_lgdt : decodeTableWord 24 0x17010F = some (.lgdt (.a16 7 .none)) := rfl
theorem test_decode_lar : decodeTableWord 24 0xC3020F = some (.lar 0 (.reg 3)) := rfl
theorem test_decode_hlt : decodeTableWord 8 0xF4 = some (.hlt) := rfl
theorem test_decode_fadd_m64 : decodeTableWord 16 0x7DC = some (.fadd (.m64 (.a16 7 .none))) := rfl
theorem test_decode_fdivrp : decodeTableWord 16 0xF1DE = some (.fdivrp 1) := rfl
theorem test_decode_fld_m80 : decodeTableWord 16 0x2FDB = some (.fld (.m80 (.a16 7 .none))) := rfl
theorem test_decode_fistp_m64 : decodeTableWord 16 0x3FDF = some (.fistp (.m64 (.a16 7 .none))) := rfl
theorem test_decode_fldz : decodeTableWord 16 0xEED9 = some (.fldz) := rfl
theorem test_decode_fcompp : decodeTableWord 16 0xD9DE = some (.fcompp) := rfl
theorem test_decode_fsincos : decodeTableWord 16 0xFBD9 = some (.fsincos) := rfl
theorem test_decode_fnstenv : decodeTableWord 16 0x37D9 = some (.fnstenv (.a16 7 .none)) := rfl
theorem test_decode_undefined : decodeTableWord 16 0xA20F = some (.undefined (.op0F 0xA2 none)) := rfl
theorem test_decode_op0F25 : decodeTableWord 24 0xC3250F = some (.undefined (.op0F25 3 0 3)) := rfl
theorem test_decode_undefinedEsc : decodeTableWord 16 0xD1D9 = some (.undefinedEsc (.d9 2 (.reg 1))) := rfl

/-! ### 32-bit addressing with SIB, and LOCK only where it may stand -/

theorem test_decode_sib : decode .s32 .s32 [0x8B, 0x84, 0x8B, 0, 1, 0, 0] = .ok (.mov (.gvEv 0 (.mem (.sib 2 1 3 (.d32 0x100)))), []) := rfl
theorem test_decode_sib_absolute : decode .s32 .s32 [0x8B, 0x04, 0x25, 0, 0x20, 0, 0] = .ok (.mov (.gvEv 0 (.mem (.sibAbs 0 4 0x2000))), []) := rfl
theorem test_decode_truncated : decode .s32 .s32 [0x8B, 0x84, 0x8B, 0] = .error .truncated := rfl
theorem test_encode : encode .s16 .s16 (.cmp (.evGv 2 (.mem (.a16 7 (.d16 0x1234))))) = [0x39, 0x97, 0x34, 0x12] := rfl

/-! ### Single steps: 95_test_vectors and 96_test_vectors_derived, V1 to V10 -/

theorem test_undefined_1 : after [0xF6, 0xC8, 0x01] ({ (flatGate 6) with regs := { (flatGate 6).regs with ebx := 0x3000 } }) (fun t => t.eip == 0xF006) = true := by decide +kernel
theorem test_lldt_1 : after [0x0F, 0x00, 0xD0] ((realGate 6)) (fun t => t.eip == 0xF006) = true := by decide +kernel
theorem test_aaa_1 : after [0x37] ({ flat with regs := { flat.regs with eax := 0xFF09 }, flags := { flat.flags with af := true } }) (fun t => t.regs.eax == 0xF && t.flags.af && t.flags.cf) = true := by decide +kernel
theorem test_aaa_2 : after [0x37] ({ flat with regs := { flat.regs with eax := 0x1234 }, flags := { flat.flags with af := false } }) (fun t => t.regs.eax == 0x1204 && !t.flags.af && !t.flags.cf) = true := by decide +kernel
theorem test_aad_1 : after [0xD5, 0x0A] ({ flat with regs := { flat.regs with eax := 0x0 } }) (fun t => t.regs.eax == 0x0 && t.flags.zf && t.flags.pf && !t.flags.sf) = true := by decide +kernel
theorem test_aad_2 : after [0xD5, 0x10] ({ flat with regs := { flat.regs with eax := 0x102 } }) (fun t => t.regs.eax == 0x12 && t.flags.pf) = true := by decide +kernel
theorem test_aam_1 : after [0xD4, 0x10] ({ flat with regs := { flat.regs with eax := 0xAB } }) (fun t => t.regs.eax == 0xA0B) = true := by decide +kernel
theorem test_aam_2 : after [0xD4, 0x00] ({ (flatGate 0) with regs := { (flatGate 0).regs with eax := 0x1 } }) (fun t => t.eip == 0xF000 && t.regs.eax == 0x1) = true := by decide +kernel
theorem test_aas_1 : after [0x3F] ({ flat with regs := { flat.regs with eax := 0xFF }, flags := { flat.flags with af := true } }) (fun t => t.regs.eax == 0xFF09 && t.flags.af && t.flags.cf) = true := by decide +kernel
theorem test_aas_2 : after [0x3F] ({ flat with regs := { flat.regs with eax := 0x235 }, flags := { flat.flags with af := false } }) (fun t => t.regs.eax == 0x205 && !t.flags.af && !t.flags.cf) = true := by decide +kernel
theorem test_adc_1 : after [0x10, 0xD8] ({ flat with regs := { flat.regs with eax := 0xFF, ebx := 0xFF }, flags := { flat.flags with cf := true } }) (fun t => t.regs.eax == 0xFF && t.flags.cf && t.flags.sf && t.flags.pf && t.flags.af && !t.flags.ovf && !t.flags.zf) = true := by decide +kernel
theorem test_adc_2 : after [0x83, 0xD0, 0x00] ({ flat with regs := { flat.regs with eax := 0xFFFFFFFF }, flags := { flat.flags with cf := true } }) (fun t => t.regs.eax == 0x0 && t.flags.cf && t.flags.zf && t.flags.pf && t.flags.af && !t.flags.ovf && !t.flags.sf) = true := by decide +kernel
theorem test_add_1 : after [0x83, 0xC3, 0xFF] ({ flat with regs := { flat.regs with ebx := 0x1 } }) (fun t => t.regs.ebx == 0x0 && t.flags.cf && t.flags.zf && t.flags.pf && t.flags.af && !t.flags.ovf) = true := by decide +kernel
theorem test_add_2 : after [0x01, 0x03] (put 0x2000 [0xFF, 0xFF, 0xFF, 0xFF] ({ flat with regs := { flat.regs with ebx := 0x2000, eax := 0x1 } })) (fun t => bytesAt 0x2000 4 t == 0x0 && t.flags.cf && t.flags.zf) = true := by decide +kernel
theorem test_and_1 : after [0x83, 0xE0, 0xF0] ({ flat with regs := { flat.regs with eax := 0x8000001F } }) (fun t => t.regs.eax == 0x80000010 && t.flags.sf && !t.flags.zf && !t.flags.pf && !t.flags.cf && !t.flags.ovf) = true := by decide +kernel
theorem test_and_2 : after [0x25, 0x00, 0xFF, 0x00, 0xFF] ({ flat with regs := { flat.regs with eax := 0x12345678 } }) (fun t => t.regs.eax == 0x12005600 && t.flags.pf && !t.flags.sf) = true := by decide +kernel
theorem test_arpl_1 : after [0x63, 0xC3] ({ flat with regs := { flat.regs with ebx := 0x12, eax := 0x12 } }) (fun t => t.regs.ebx == 0x12 && !t.flags.zf) = true := by decide +kernel
theorem test_arpl_2 : after [0x63, 0x03] (put 0x3000 [0x08, 0x00] ({ flat with regs := { flat.regs with ebx := 0x3000, eax := 0x1B } })) (fun t => bytesAt 0x3000 2 t == 0xB && t.flags.zf) = true := by decide +kernel
theorem test_bound_1 : after [0x66, 0x62, 0x03] (put 0x3000 [0x00, 0x00, 0x09, 0x00] ({ flat with regs := { flat.regs with ebx := 0x3000, eax := 0x9 } })) (fun t => t.eip == 0x1003) = true := by decide +kernel
theorem test_bound_2 : after [0x66, 0x62, 0x03] (put 0x3000 [0x00, 0x00, 0x09, 0x00] ({ (flatGate 5) with regs := { (flatGate 5).regs with ebx := 0x3000, eax := 0xA } })) (fun t => t.eip == 0xF005) = true := by decide +kernel
theorem test_bsf_1 : after [0x0F, 0xBC, 0xC3] ({ flat with regs := { flat.regs with ebx := 0x0, eax := 0x55 } }) (fun t => t.flags.zf) = true := by decide +kernel
theorem test_bsf_2 : after [0x66, 0x0F, 0xBC, 0xC3] ({ flat with regs := { flat.regs with ebx := 0x18000 } }) (fun t => t.regs.eax == 0xF && !t.flags.zf) = true := by decide +kernel
theorem test_bsr_1 : after [0x0F, 0xBD, 0xC3] ({ flat with regs := { flat.regs with ebx := 0x1 } }) (fun t => t.regs.eax == 0x0 && !t.flags.zf) = true := by decide +kernel
theorem test_bsr_2 : after [0x0F, 0xBD, 0xC3] ({ flat with regs := { flat.regs with ebx := 0xFFFFFFFF } }) (fun t => t.regs.eax == 0x1F) = true := by decide +kernel
theorem test_bswap_1 : after [0x0F, 0xC8] ({ flat with regs := { flat.regs with eax := 0x12345678 } }) (fun t => t.regs.eax == 0x78563412) = true := by decide +kernel
theorem test_bswap_2 : after [0x0F, 0xCF] ({ flat with regs := { flat.regs with edi := 0x1 } }) (fun t => t.regs.edi == 0x1000000) = true := by decide +kernel
theorem test_bt_1 : after [0x66, 0x0F, 0xA3, 0x0B] (put 0x2FFF [0x80] ({ flat with regs := { flat.regs with ebx := 0x3000, ecx := 0xFFFF } })) (fun t => t.flags.cf) = true := by decide +kernel
theorem test_bt_2 : after [0x0F, 0xBA, 0x23, 0x25] (put 0x3000 [0x20] ({ flat with regs := { flat.regs with ebx := 0x3000 } })) (fun t => t.flags.cf) = true := by decide +kernel
theorem test_sub_1 : after [0x28, 0xD8] ({ flat with regs := { flat.regs with eax := 0x0, ebx := 0x80 } }) (fun t => t.regs.eax == 0x80 && t.flags.cf && t.flags.ovf && t.flags.sf && !t.flags.pf && !t.flags.af) = true := by decide +kernel
theorem test_sub_2 : after [0x29, 0xC0] ({ flat with regs := { flat.regs with eax := 0x5 } }) (fun t => t.regs.eax == 0x0 && t.flags.zf && t.flags.pf && !t.flags.cf && !t.flags.ovf && !t.flags.sf && !t.flags.af) = true := by decide +kernel
theorem test_sbb_1 : after [0x19, 0xD8] ({ flat with regs := { flat.regs with eax := 0x0, ebx := 0x0 }, flags := { flat.flags with cf := true } }) (fun t => t.regs.eax == 0xFFFFFFFF && t.flags.cf && t.flags.sf && t.flags.pf && t.flags.af && !t.flags.ovf) = true := by decide +kernel
theorem test_sbb_2 : after [0x18, 0xD8] ({ flat with regs := { flat.regs with eax := 0x80, ebx := 0x7F }, flags := { flat.flags with cf := true } }) (fun t => t.regs.eax == 0x0 && t.flags.zf && t.flags.pf && t.flags.af && t.flags.ovf && !t.flags.cf) = true := by decide +kernel
theorem test_cmp_1 : after [0x83, 0xF8, 0x01] ({ flat with regs := { flat.regs with eax := 0xFFFFFFFF } }) (fun t => t.flags.sf && !t.flags.pf && !t.flags.af && !t.flags.cf && !t.flags.ovf) = true := by decide +kernel
theorem test_cmp_2 : after [0x38, 0xD8] ({ flat with regs := { flat.regs with eax := 0x7F, ebx := 0x80 } }) (fun t => t.flags.cf && t.flags.ovf && t.flags.sf && t.flags.pf && !t.flags.af) = true := by decide +kernel
theorem test_inc_1 : after [0x40] ({ flat with regs := { flat.regs with eax := 0x7FFFFFFF } }) (fun t => t.regs.eax == 0x80000000 && t.flags.ovf && t.flags.sf && t.flags.pf && t.flags.af) = true := by decide +kernel
theorem test_inc_2 : after [0xFE, 0xC0] ({ flat with regs := { flat.regs with eax := 0x123456FF } }) (fun t => t.regs.eax == 0x12345600 && t.flags.zf && t.flags.af && t.flags.pf) = true := by decide +kernel
theorem test_dec_1 : after [0x48] ({ flat with regs := { flat.regs with eax := 0x80000000 } }) (fun t => t.regs.eax == 0x7FFFFFFF && t.flags.ovf && t.flags.pf && t.flags.af && !t.flags.sf) = true := by decide +kernel
theorem test_dec_2 : after [0x66, 0x48] ({ flat with regs := { flat.regs with eax := 0x10000 } }) (fun t => t.regs.eax == 0x1FFFF && t.flags.sf && t.flags.pf && t.flags.af) = true := by decide +kernel
theorem test_neg_1 : after [0xF6, 0xD8] ({ flat with regs := { flat.regs with eax := 0x1 } }) (fun t => t.regs.eax == 0xFF && t.flags.cf && t.flags.sf && t.flags.pf && t.flags.af && !t.flags.ovf) = true := by decide +kernel
theorem test_neg_2 : after [0xF7, 0xD8] ({ flat with regs := { flat.regs with eax := 0x0 } }) (fun t => t.regs.eax == 0x0 && !t.flags.cf && t.flags.zf && t.flags.pf && !t.flags.ovf) = true := by decide +kernel
theorem test_or_1 : after [0x0D, 0x01, 0x00, 0x00, 0x00] ({ flat with regs := { flat.regs with eax := 0x80000000 } }) (fun t => t.regs.eax == 0x80000001 && t.flags.sf && !t.flags.zf && !t.flags.pf && !t.flags.cf && !t.flags.ovf) = true := by decide +kernel
theorem test_or_2 : after [0x0C, 0x00] ({ flat with regs := { flat.regs with eax := 0x0 } }) (fun t => t.flags.zf && t.flags.pf && !t.flags.sf && !t.flags.cf && !t.flags.ovf) = true := by decide +kernel
theorem test_xor_1 : after [0x31, 0xC0] ({ flat with regs := { flat.regs with eax := 0x7 } }) (fun t => t.regs.eax == 0x0 && t.flags.zf && t.flags.pf) = true := by decide +kernel
theorem test_xor_2 : after [0x34, 0xFF] ({ flat with regs := { flat.regs with eax := 0x55 } }) (fun t => t.regs.eax == 0xAA && t.flags.sf && t.flags.pf && !t.flags.zf && !t.flags.cf && !t.flags.ovf) = true := by decide +kernel
theorem test_not_1 : after [0xF6, 0xD0] ({ flat with regs := { flat.regs with eax := 0x55 }, flags := { flat.flags with cf := true, zf := true } }) (fun t => t.regs.eax == 0xAA && t.flags.cf && t.flags.zf) = true := by decide +kernel
theorem test_not_2 : after [0xF7, 0xD0] ({ flat with regs := { flat.regs with eax := 0x0 } }) (fun t => t.regs.eax == 0xFFFFFFFF) = true := by decide +kernel
theorem test_test_1 : after [0x85, 0xC0] ({ flat with regs := { flat.regs with eax := 0x0 } }) (fun t => t.flags.zf && t.flags.pf) = true := by decide +kernel
theorem test_test_2 : after [0xF6, 0xC3, 0x01] ({ flat with regs := { flat.regs with ebx := 0xFE } }) (fun t => t.flags.zf && t.flags.pf) = true := by decide +kernel
theorem test_daa_1 : after [0x27] ({ flat with regs := { flat.regs with eax := 0x99 } }) (fun t => t.regs.eax == 0x99 && !t.flags.af && !t.flags.cf) = true := by decide +kernel
theorem test_daa_2 : after [0x27] ({ flat with regs := { flat.regs with eax := 0x9A } }) (fun t => t.regs.eax == 0x0 && t.flags.cf && t.flags.zf && t.flags.pf) = true := by decide +kernel
theorem test_das_1 : after [0x2F] ({ flat with regs := { flat.regs with eax := 0xEE }, flags := { flat.flags with af := true, cf := true } }) (fun t => t.regs.eax == 0x88 && t.flags.cf && t.flags.af) = true := by decide +kernel
theorem test_das_2 : after [0x2F] ({ flat with regs := { flat.regs with eax := 0x1F }, flags := { flat.flags with af := true } }) (fun t => t.regs.eax == 0x19 && t.flags.af && !t.flags.cf) = true := by decide +kernel
theorem test_clc_1 : after [0xF8] ({ flat with flags := { flat.flags with cf := true } }) (fun t => !t.flags.cf) = true := by decide +kernel
theorem test_stc_1 : after [0xF9] (flat) (fun t => t.flags.cf) = true := by decide +kernel
theorem test_cmc_1 : after [0xF5] ({ flat with flags := { flat.flags with cf := true } }) (fun t => !t.flags.cf) = true := by decide +kernel
theorem test_std_1 : after [0xFD] (flat) (fun t => t.flags.df) = true := by decide +kernel
theorem test_cli_1 : after [0xFA] ({ flat with flags := { flat.flags with intf := true } }) (fun t => !t.flags.intf) = true := by decide +kernel
theorem test_sti_1 : after [0xFB] (flat) (fun t => t.flags.intf) = true := by decide +kernel
theorem test_setL_1 : after [0x0F, 0x9C, 0xC0] ({ flat with flags := { flat.flags with ovf := true, sf := false } }) (fun t => t.regs.eax == 0x1) = true := by decide +kernel
theorem test_setB_1 : after [0x0F, 0x92, 0xC0] ({ flat with regs := { flat.regs with eax := 0xFF } }) (fun t => t.regs.eax == 0x0) = true := by decide +kernel
theorem test_setG_1 : after [0x0F, 0x9F, 0xC0] ({ flat with regs := { flat.regs with eax := 0xFF }, flags := { flat.flags with ovf := true } }) (fun t => t.regs.eax == 0x0) = true := by decide +kernel
theorem test_setBe_1 : after [0x0F, 0x96, 0xC1] ({ flat with flags := { flat.flags with cf := true, sf := true } }) (fun t => t.regs.ecx == 0x1) = true := by decide +kernel
theorem test_setGe_1 : after [0x0F, 0x9D, 0xC1] ({ flat with regs := { flat.regs with ecx := 0x5 }, flags := { flat.flags with sf := true } }) (fun t => t.regs.ecx == 0x0) = true := by decide +kernel
theorem test_setP_1 : after [0x0F, 0x9A, 0xC2] ({ flat with flags := { flat.flags with pf := true } }) (fun t => t.regs.edx == 0x1) = true := by decide +kernel
theorem test_setNp_1 : after [0x0F, 0x9B, 0xC2] ({ flat with regs := { flat.regs with edx := 0x1 }, flags := { flat.flags with pf := true } }) (fun t => t.regs.edx == 0x0) = true := by decide +kernel
theorem test_rol_1 : after [0xC0, 0xC0, 0x08] ({ flat with regs := { flat.regs with eax := 0x81 } }) (fun t => t.regs.eax == 0x81 && t.flags.cf) = true := by decide +kernel
theorem test_rol_2 : after [0xC0, 0xC0, 0x09] ({ flat with regs := { flat.regs with eax := 0x81 } }) (fun t => t.regs.eax == 0x3 && t.flags.cf) = true := by decide +kernel
theorem test_ror_1 : after [0xC1, 0xC8, 0x08] ({ flat with regs := { flat.regs with eax := 0x12345678 } }) (fun t => t.regs.eax == 0x78123456 && !t.flags.cf) = true := by decide +kernel
theorem test_ror_2 : after [0x66, 0xC1, 0xC8, 0x10] ({ flat with regs := { flat.regs with eax := 0x1 } }) (fun t => t.regs.eax == 0x1 && !t.flags.cf) = true := by decide +kernel
theorem test_rcl_1 : after [0xD1, 0xD0] ({ flat with regs := { flat.regs with eax := 0x80000000 }, flags := { flat.flags with cf := true } }) (fun t => t.regs.eax == 0x1 && t.flags.cf && t.flags.ovf) = true := by decide +kernel
theorem test_rcl_2 : after [0x66, 0xC1, 0xD0, 0x11] ({ flat with regs := { flat.regs with eax := 0x8000 } }) (fun t => t.regs.eax == 0x8000 && !t.flags.cf) = true := by decide +kernel
theorem test_rcr_1 : after [0xD0, 0xD8] ({ flat with regs := { flat.regs with eax := 0x0 }, flags := { flat.flags with cf := true } }) (fun t => t.regs.eax == 0x80 && !t.flags.cf && t.flags.ovf) = true := by decide +kernel
theorem test_rcr_2 : after [0xC1, 0xD8, 0x02] ({ flat with regs := { flat.regs with eax := 0x1 }, flags := { flat.flags with cf := true } }) (fun t => t.regs.eax == 0xC0000000 && !t.flags.cf) = true := by decide +kernel
theorem test_shl_1 : after [0xC0, 0xE0, 0x09] ({ flat with regs := { flat.regs with eax := 0xFF } }) (fun t => t.regs.eax == 0x0 && t.flags.zf) = true := by decide +kernel
theorem test_shl_2 : after [0x66, 0xC1, 0xE0, 0x10] ({ flat with regs := { flat.regs with eax := 0x1 } }) (fun t => t.regs.eax == 0x0 && t.flags.cf && t.flags.zf) = true := by decide +kernel
theorem test_shr_1 : after [0xC1, 0xE8, 0x1F] ({ flat with regs := { flat.regs with eax := 0x80000000 } }) (fun t => t.regs.eax == 0x1 && !t.flags.cf && !t.flags.pf && !t.flags.zf) = true := by decide +kernel
theorem test_shr_2 : after [0xC0, 0xE8, 0x08] ({ flat with regs := { flat.regs with eax := 0x80 } }) (fun t => t.regs.eax == 0x0 && t.flags.cf && t.flags.zf) = true := by decide +kernel
theorem test_sar_1 : after [0xC0, 0xF8, 0x09] ({ flat with regs := { flat.regs with eax := 0x7F } }) (fun t => t.regs.eax == 0x0 && !t.flags.cf && t.flags.zf) = true := by decide +kernel
theorem test_sar_2 : after [0xD1, 0xF8] ({ flat with regs := { flat.regs with eax := 0xFFFFFFF9 } }) (fun t => t.regs.eax == 0xFFFFFFFC && t.flags.cf && t.flags.sf && t.flags.pf) = true := by decide +kernel
theorem test_shrd_1 : after [0x0F, 0xAC, 0xD8, 0x08] ({ flat with regs := { flat.regs with eax := 0x12345678, ebx := 0x9ABCDEF0 } }) (fun t => t.regs.eax == 0xF0123456 && !t.flags.cf && t.flags.sf && t.flags.pf) = true := by decide +kernel
theorem test_shrd_2 : after [0x0F, 0xAC, 0xD8, 0x01] ({ flat with regs := { flat.regs with eax := 0x1, ebx := 0x1 } }) (fun t => t.regs.eax == 0x80000000 && t.flags.cf && t.flags.ovf && t.flags.sf && t.flags.pf) = true := by decide +kernel
theorem test_shld_1 : after [0x66, 0x0F, 0xA4, 0xD8, 0x10] ({ flat with regs := { flat.regs with eax := 0x1234, ebx := 0xABCD } }) (fun t => t.regs.eax == 0xABCD && !t.flags.cf && t.flags.sf && !t.flags.pf) = true := by decide +kernel
theorem test_shld_2 : after [0x0F, 0xA5, 0xD8] ({ flat with regs := { flat.regs with ecx := 0x20, eax := 0x5 } }) (fun t => t.regs.eax == 0x5) = true := by decide +kernel
theorem test_mul_1 : after [0xF6, 0xE3] ({ flat with regs := { flat.regs with eax := 0x10, ebx := 0x10 } }) (fun t => t.regs.eax == 0x100 && t.flags.cf && t.flags.ovf) = true := by decide +kernel
theorem test_mul_2 : after [0x66, 0xF7, 0xE3] ({ flat with regs := { flat.regs with eax := 0x100, ebx := 0x100, edx := 0xAAAAAAAA } }) (fun t => t.regs.edx == 0xAAAA0001 && t.regs.eax == 0x0 && t.flags.cf && t.flags.ovf) = true := by decide +kernel
theorem test_imul_1 : after [0x69, 0xC3, 0x00, 0x00, 0x01, 0x00] ({ flat with regs := { flat.regs with ebx := 0x7FFF } }) (fun t => t.regs.eax == 0x7FFF0000 && !t.flags.cf) = true := by decide +kernel
theorem test_imul_2 : after [0x69, 0xC3, 0x00, 0x00, 0x01, 0x00] ({ flat with regs := { flat.regs with ebx := 0x8000 } }) (fun t => t.regs.eax == 0x80000000 && t.flags.cf && t.flags.ovf) = true := by decide +kernel
theorem test_div_1 : after [0xF7, 0xF3] ({ (flatGate 0) with regs := { (flatGate 0).regs with ebx := 0x0 } }) (fun t => t.eip == 0xF000) = true := by decide +kernel
theorem test_div_2 : after [0xF6, 0xF3] ({ flat with regs := { flat.regs with eax := 0xFF, ebx := 0x10 } }) (fun t => t.regs.eax == 0xF0F) = true := by decide +kernel
theorem test_idiv_1 : after [0xF6, 0xFB] ({ (flatGate 0) with regs := { (flatGate 0).regs with eax := 0xFF80, ebx := 0xFF } }) (fun t => t.eip == 0xF000) = true := by decide +kernel
theorem test_idiv_2 : after [0xF7, 0xFB] ({ (flatGate 0) with regs := { (flatGate 0).regs with edx := 0xFFFFFFFF, eax := 0x80000000, ebx := 0xFFFFFFFF } }) (fun t => t.eip == 0xF000) = true := by decide +kernel
theorem test_movsx_1 : after [0x66, 0x0F, 0xBE, 0xC3] ({ flat with regs := { flat.regs with ebx := 0x7F, eax := 0xFFFFFFFF } }) (fun t => t.regs.eax == 0xFFFF007F) = true := by decide +kernel
theorem test_movsx_2 : after [0x0F, 0xBF, 0xC3] ({ flat with regs := { flat.regs with ebx := 0x8000 } }) (fun t => t.regs.eax == 0xFFFF8000) = true := by decide +kernel
theorem test_movzx_1 : after [0x0F, 0xB6, 0xC3] ({ flat with regs := { flat.regs with ebx := 0xFF } }) (fun t => t.regs.eax == 0xFF) = true := by decide +kernel
theorem test_movzx_2 : after [0x0F, 0xB7, 0xC3] ({ flat with regs := { flat.regs with ebx := 0x8000 } }) (fun t => t.regs.eax == 0x8000) = true := by decide +kernel
theorem test_xchg_1 : after [0x86, 0xE0] ({ flat with regs := { flat.regs with eax := 0x1234 } }) (fun t => t.regs.eax == 0x3412) = true := by decide +kernel
theorem test_xchg_2 : after [0x87, 0x03] (put 0x3000 [0x05] ({ flat with regs := { flat.regs with ebx := 0x3000, eax := 0x9 } })) (fun t => bytesAt 0x3000 1 t == 0x9 && t.regs.eax == 0x5) = true := by decide +kernel
theorem test_push_1 : after [0x50] ({ real with regs := { real.regs with esp := 0x12340000, eax := 0x77 } }) (fun t => t.regs.esp == 0x1234FFFE && bytesAt 0x3FFFE 2 t == 0x77) = true := by decide +kernel
theorem test_push_2 : after [0x50] ({ real with regs := { real.regs with esp := 0x1 } }) (fun t => t.run == .shutdown) = true := by decide +kernel
theorem test_pop_1 : after [0x5C] (put 0x2FFC [0x00, 0x20, 0x00, 0x00] ({ flat with regs := { flat.regs with esp := 0x2FFC } })) (fun t => t.regs.esp == 0x2000) = true := by decide +kernel
theorem test_pop_2 : after [0x8F, 0x04, 0x24] (put 0x2FFC [0x09] ({ flat with regs := { flat.regs with esp := 0x2FFC } })) (fun t => bytesAt 0x3000 1 t == 0x9 && t.regs.esp == 0x3000) = true := by decide +kernel
theorem test_pusha_1 : after [0x60] ({ flat with regs := { flat.regs with esp := 0x3000, eax := 0x1, ecx := 0x2, edx := 0x3, ebx := 0x4, ebp := 0x5, esi := 0x6, edi := 0x7 } }) (fun t => t.regs.esp == 0x2FE0 && bytesAt 0x2FE0 32 t == 0x100000002000000030000000400003000000000050000000600000007) = true := by decide +kernel
theorem test_lea_1 : after [0x66, 0x8D, 0x03] ({ flat with regs := { flat.regs with ebx := 0x12345678 } }) (fun t => t.regs.eax == 0x5678) = true := by decide +kernel
theorem test_lea_2 : after [0x67, 0x8D, 0x07] ({ flat with regs := { flat.regs with ebx := 0x12345678 } }) (fun t => t.regs.eax == 0x5678) = true := by decide +kernel
theorem test_xlat_1 : after [0xD7] (put 0x2005 [0x99] ({ flat with regs := { flat.regs with ebx := 0x2000, eax := 0x5 } })) (fun t => t.regs.eax == 0x99) = true := by decide +kernel
theorem test_xlat_2 : after [0x67, 0xD7] (put 0x1 [0x99] ({ flat with regs := { flat.regs with ebx := 0xFFFF, eax := 0x2 } })) (fun t => t.regs.eax == 0x99) = true := by decide +kernel
theorem test_cbw_1 : after [0x66, 0x98] ({ flat with regs := { flat.regs with eax := 0x80 } }) (fun t => t.regs.eax == 0xFF80) = true := by decide +kernel
theorem test_cbw_2 : after [0x98] ({ flat with regs := { flat.regs with eax := 0x8000 } }) (fun t => t.regs.eax == 0xFFFF8000) = true := by decide +kernel
theorem test_cwd_1 : after [0x99] ({ flat with regs := { flat.regs with eax := 0x7FFFFFFF, edx := 0x5 } }) (fun t => t.regs.edx == 0x0) = true := by decide +kernel
theorem test_cwd_2 : after [0x66, 0x99] ({ flat with regs := { flat.regs with eax := 0x8000 } }) (fun t => t.regs.edx == 0xFFFF) = true := by decide +kernel
theorem test_les_1 : after [0xC4, 0x1E, 0x00, 0x01] (put 0x20100 [0x34, 0x12, 0x00, 0xB8] (inReal .ds 0x2000 (real))) (fun t => t.regs.ebx == 0x1234 && t.segs.es.sel == 0xB800 && t.segs.es.hid.base == 0xB8000) = true := by decide +kernel
theorem test_lahf_1 : after [0x9F] ({ flat with flags := { flat.flags with sf := true, af := true, cf := true, zf := true } }) (fun t => t.regs.read .w8 4 == 0xD3) = true := by decide +kernel
theorem test_lahf_2 : after [0x9F] ({ flat with flags := { flat.flags with sf := true, af := true, cf := true } }) (fun t => t.regs.read .w8 4 == 0x93) = true := by decide +kernel
theorem test_sahf_1 : after [0x9E] ({ flat with regs := { flat.regs with eax := 0x4100 }, flags := { flat.flags with ovf := true } }) (fun t => t.flags.zf && t.flags.cf && !t.flags.pf && !t.flags.af && !t.flags.sf && t.flags.ovf) = true := by decide +kernel
theorem test_pushf_1 : after [0x9C] ({ flat with regs := { flat.regs with esp := 0x3000 }, flags := { flat.flags with rf := true, intf := true, pf := true, zf := true } }) (fun t => bytesAt 0x2FFC 4 t == 0x246) = true := by decide +kernel
theorem test_popf_1 : after [0x9D] (put 0x2FFC [0xD7, 0x3F, 0x24, 0x00] ({ flat with regs := { flat.regs with esp := 0x2FFC } })) (fun t => t.flags.cf && t.flags.ovf && t.flags.iopl == 3 && t.flags.ac && t.flags.tf && t.flags.intf && !t.flags.nt) = true := by decide +kernel
theorem test_popf_2 : after [0x66, 0x9D] ({ flat with regs := { flat.regs with esp := 0x2FFE }, flags := { flat.flags with ac := true } }) (fun t => t.flags.ac) = true := by decide +kernel
theorem test_xadd_1 : after [0x0F, 0xC1, 0xC3] ({ flat with regs := { flat.regs with ebx := 0x7FFFFFFF, eax := 0x1 } }) (fun t => t.regs.ebx == 0x80000000 && t.regs.eax == 0x7FFFFFFF && t.flags.ovf && t.flags.sf && t.flags.af && t.flags.pf && !t.flags.cf) = true := by decide +kernel
theorem test_xadd_2 : after [0x0F, 0xC1, 0xC0] ({ flat with regs := { flat.regs with eax := 0x3 } }) (fun t => t.regs.eax == 0x6) = true := by decide +kernel
theorem test_cmpxchg_1 : after [0x0F, 0xB1, 0x0B] (put 0x3000 [0x07] ({ flat with regs := { flat.regs with ebx := 0x3000, eax := 0x5, ecx := 0x9 } })) (fun t => bytesAt 0x3000 1 t == 0x7 && t.regs.eax == 0x7 && !t.flags.zf && t.flags.cf && t.flags.sf) = true := by decide +kernel
theorem test_cmpxchg_2 : after [0x0F, 0xB0, 0xCB] ({ flat with regs := { flat.regs with eax := 0x10, ebx := 0x20, ecx := 0x30 } }) (fun t => t.regs.eax == 0x20 && t.regs.ebx == 0x20 && !t.flags.zf && t.flags.cf && t.flags.sf && t.flags.pf && !t.flags.af && !t.flags.ovf) = true := by decide +kernel
theorem test_bts_1 : after [0x0F, 0xAB, 0x0B] ({ flat with regs := { flat.regs with ebx := 0x3000, ecx := 0xFFFFFFFF } }) (fun t => bytesAt 0x2FFC 4 t == 0x80000000 && !t.flags.cf) = true := by decide +kernel
theorem test_btr_1 : after [0x0F, 0xBA, 0xF0, 0x00] ({ flat with regs := { flat.regs with eax := 0xFF } }) (fun t => t.regs.eax == 0xFE && t.flags.cf) = true := by decide +kernel
theorem test_btr_2 : after [0x0F, 0xB3, 0xC8] ({ flat with regs := { flat.regs with eax := 0xFFFFFFFF, ecx := 0x28 } }) (fun t => t.regs.eax == 0xFFFFFEFF && t.flags.cf) = true := by decide +kernel
theorem test_btc_1 : after [0x0F, 0xBA, 0xF8, 0x00] ({ flat with regs := { flat.regs with eax := 0x1 } }) (fun t => t.regs.eax == 0x0 && t.flags.cf) = true := by decide +kernel
theorem test_bts_2 : after [0xF0, 0x0F, 0xAB, 0x03] ({ flat with regs := { flat.regs with ebx := 0x3000, eax := 0x1 } }) (fun t => bytesAt 0x3000 1 t == 0x2) = true := by decide +kernel
theorem test_movsb_1 : after [0xA4] (put 0x3000 [0x41] ({ flat with regs := { flat.regs with esi := 0x3000, edi := 0x2000 } })) (fun t => bytesAt 0x2000 1 t == 0x41 && t.regs.esi == 0x3001 && t.regs.edi == 0x2001) = true := by decide +kernel
theorem test_movsv_1 : after [0xA5] (put 0x3000 [0x41, 0x42, 0x43, 0x44] ({ flat with regs := { flat.regs with esi := 0x3000, edi := 0x2000 }, flags := { flat.flags with df := true } })) (fun t => bytesAt 0x2000 4 t == 0x44434241 && t.regs.esi == 0x2FFC && t.regs.edi == 0x1FFC) = true := by decide +kernel
theorem test_movsv_2 : after [0xF3, 0xA5] ({ flat with regs := { flat.regs with ecx := 0x0, esi := 0x5 } }) (fun t => t.regs.ecx == 0x0 && t.regs.esi == 0x5 && t.eip == 0x1002) = true := by decide +kernel
theorem test_cmpsb_1 : after [0xA6] (put 0x3100 [0x44] (put 0x3000 [0x43] ({ flat with regs := { flat.regs with esi := 0x3000, edi := 0x3100 } }))) (fun t => !t.flags.zf && t.flags.cf && t.flags.sf && t.flags.pf && t.flags.af && !t.flags.ovf) = true := by decide +kernel
theorem test_lodsb_1 : after [0xAC] (put 0x3000 [0x7F] ({ flat with regs := { flat.regs with esi := 0x3000, eax := 0xFFFFFFFF } })) (fun t => t.regs.eax == 0xFFFFFF7F && t.regs.esi == 0x3001) = true := by decide +kernel
theorem test_jmp_1 : after [0xFF, 0x23] (put 0x3000 [0x00, 0x60, 0x00, 0x00] ({ flat with regs := { flat.regs with ebx := 0x3000 } })) (fun t => t.eip == 0x6000) = true := by decide +kernel
theorem test_jmp_2 : after [0xEA, 0x00, 0x00, 0xFF, 0xFF] (real) (fun t => t.segs.cs.sel == 0xFFFF && t.segs.cs.hid.base == 0xFFFF0 && t.eip == 0x0) = true := by decide +kernel
theorem test_jE_1 : after [0x74, 0x10] (flat) (fun t => t.eip == 0x1002) = true := by decide +kernel
theorem test_jE_2 : after [0x0F, 0x84, 0x00, 0x01, 0x00, 0x00] ({ flat with flags := { flat.flags with zf := true } }) (fun t => t.eip == 0x1106) = true := by decide +kernel
theorem test_jL_1 : after [0x7C, 0x02] ({ flat with flags := { flat.flags with ovf := true } }) (fun t => t.eip == 0x1004) = true := by decide +kernel
theorem test_jB_1 : after [0x72, 0x02] ({ flat with flags := { flat.flags with ovf := true } }) (fun t => t.eip == 0x1002) = true := by decide +kernel
theorem test_jcxz_1 : after [0xE3, 0x02] ({ flat with regs := { flat.regs with ecx := 0x10000 } }) (fun t => t.eip == 0x1002) = true := by decide +kernel
theorem test_jcxz_2 : after [0x67, 0xE3, 0x02] ({ flat with regs := { flat.regs with ecx := 0x10000 } }) (fun t => t.eip == 0x1005) = true := by decide +kernel
theorem test_loop_1 : after [0xE2, 0xFE] ({ flat with regs := { flat.regs with ecx := 0x1 } }) (fun t => t.regs.ecx == 0x0 && t.eip == 0x1002) = true := by decide +kernel
theorem test_loop_2 : after [0xE2, 0xFE] (flat) (fun t => t.regs.ecx == 0xFFFFFFFF && t.eip == 0x1000) = true := by decide +kernel
theorem test_loope_1 : after [0xE1, 0xFE] ({ flat with regs := { flat.regs with ecx := 0x2 } }) (fun t => t.regs.ecx == 0x1 && t.eip == 0x1002) = true := by decide +kernel
theorem test_loopne_1 : after [0xE0, 0xFE] ({ flat with regs := { flat.regs with ecx := 0x2 } }) (fun t => t.regs.ecx == 0x1 && t.eip == 0x1000) = true := by decide +kernel
theorem test_call_1 : after [0xFF, 0xD0] ({ flat with regs := { flat.regs with eax := 0x3000, esp := 0x2000 } }) (fun t => bytesAt 0x1FFC 4 t == 0x1002 && t.eip == 0x3000) = true := by decide +kernel
theorem test_ret_1 : after [0xC3] (put 0x1FFC [0x05, 0x10, 0x00, 0x00] ({ flat with regs := { flat.regs with esp := 0x1FFC } })) (fun t => t.eip == 0x1005 && t.regs.esp == 0x2000) = true := by decide +kernel
theorem test_ret_2 : after [0xC2, 0x08, 0x00] (put 0x1FFC [0x05, 0x10, 0x00, 0x00] ({ flat with regs := { flat.regs with esp := 0x1FFC } })) (fun t => t.eip == 0x1005 && t.regs.esp == 0x2008) = true := by decide +kernel
theorem test_call_2 : after [0x9A, 0x34, 0x12, 0x00, 0x20] (inReal .cs 0x1000 ({ real with regs := { real.regs with esp := 0x100 }, eip := 0x100 })) (fun t => bytesAt 0x300FE 2 t == 0x1000 && bytesAt 0x300FC 2 t == 0x105 && t.regs.esp == 0xFC && t.segs.cs.sel == 0x2000 && t.segs.cs.hid.base == 0x20000 && t.eip == 0x1234) = true := by decide +kernel
theorem test_enter_1 : after [0xC8, 0x04, 0x00, 0x01] ({ flat with regs := { flat.regs with esp := 0x3000, ebp := 0x5555 } }) (fun t => bytesAt 0x2FFC 4 t == 0x5555 && bytesAt 0x2FF8 4 t == 0x2FFC && t.regs.ebp == 0x2FFC && t.regs.esp == 0x2FF4) = true := by decide +kernel
theorem test_enter_2 : after [0xC8, 0x00, 0x00, 0x02] (put 0x1FFC [0x01, 0x00, 0x00, 0xAA] ({ flat with regs := { flat.regs with esp := 0x3000, ebp := 0x2000 } })) (fun t => bytesAt 0x2FFC 4 t == 0x2000 && bytesAt 0x2FF8 4 t == 0xAA000001 && bytesAt 0x2FF4 4 t == 0x2FFC && t.regs.ebp == 0x2FFC && t.regs.esp == 0x2FF4) = true := by decide +kernel
theorem test_hlt_1 : after [0xF4] (flat) (fun t => t.eip == 0x1001 && t.run == .halted) = true := by decide +kernel
theorem test_into_1 : after [0xCE] (flat) (fun t => t.eip == 0x1001) = true := by decide +kernel
theorem test_lgdt_1 : after [0x0F, 0x01, 0x10] (put 0x3000 [0xFF, 0x03, 0x00, 0x10, 0x20, 0x00] ({ flat with regs := { flat.regs with eax := 0x3000 } })) (fun t => t.gdtr == ⟨0x201000, 0x3FF⟩) = true := by decide +kernel
theorem test_lgdt_2 : after [0x0F, 0x01, 0x16, 0x00, 0x05] (put 0x500 [0x17, 0x00, 0x00, 0x10, 0x20, 0xFF] (real)) (fun t => t.gdtr == ⟨0x201000, 0x17⟩) = true := by decide +kernel
theorem test_sidt_1 : after [0x0F, 0x01, 0x08] ({ flat with regs := { flat.regs with eax := 0x3000 } }) (fun t => bytesAt 0x3000 6 t == 0x3FF) = true := by decide +kernel
theorem test_undefined_2 : after [0x0F, 0x01, 0xD0] ((flatGate 6)) (fun t => t.eip == 0xF006) = true := by decide +kernel
theorem test_lmsw_1 : after [0x0F, 0x01, 0xF0] ({ real with regs := { real.regs with eax := 0xF } }) (fun t => t.cr0 == 0x6000000F) = true := by decide +kernel
theorem test_lmsw_2 : after [0x0F, 0x01, 0xF0] ({ flat with regs := { flat.regs with eax := 0x0 } }) (fun t => t.cr0 == 0x60000021) = true := by decide +kernel
theorem test_smsw_1 : after [0x66, 0x0F, 0x01, 0xE0] ({ flat with cr0 := 0x6000000F }) (fun t => t.regs.read .w16 0 == 0xF) = true := by decide +kernel
theorem test_clts_1 : after [0x0F, 0x06] ({ flat with cr0 := 0x6000000B }) (fun t => t.cr0 == 0x60000003) = true := by decide +kernel
theorem test_mov_1 : after [0x0F, 0x24, 0xC0] ((flatGate 6)) (fun t => t.eip == 0xF006) = true := by decide +kernel
theorem test_mov_2 : after [0x0F, 0x22, 0xC0] ({ flat with regs := { flat.regs with eax := 0x40000001 } }) (fun t => t.eip == 0x1003) = true := by decide +kernel

/-! ### Single steps of the FPU: 97_test_vectors_fpu, F1 to F8 -/

theorem test_fninit : after [0xDB, 0xE3] (fpu 0x037F [0x3FFF8000000000000000, 0x0]) (fun t => t.fpu.sw == 0x0000 && t.fpu.tw == 0xFFFF && t.fpu.cw == 0x037F && t.fpu.dp == 0) = true := by decide +kernel
theorem test_fld1 : after [0xD9, 0xE8] (fpu 0x037F []) (fun t => t.fpu.reg 0 == 0x3FFF8000000000000000 && t.fpu.st.top == 7 && t.fpu.tw == 0x3FFF && flagsAre 0x0 t) = true := by decide +kernel
theorem test_fld1_overflow : after [0xD9, 0xE8] (fpu 0x037F [0x3FFF8000000000000000, 0x3FFF8000000000000000, 0x3FFF8000000000000000, 0x3FFF8000000000000000, 0x3FFF8000000000000000, 0x3FFF8000000000000000, 0x3FFF8000000000000000, 0x3FFF8000000000000000]) (fun t => t.fpu.reg 0 == 0xFFFFC000000000000000 && t.fpu.st.top == 7 && flagsAre 0x41 t && t.fpu.st.c1 == true) = true := by decide +kernel
theorem test_fldz : after [0xD9, 0xEE] (fpu 0x037F [0x3FFF8000000000000000]) (fun t => t.fpu.reg 0 == 0x0 && t.fpu.tw == 0x1FFF) = true := by decide +kernel
theorem test_fldpi : after [0xD9, 0xEB] (fpu 0x037F []) (fun t => t.fpu.reg 0 == 0x4000C90FDAA22168C235 && flagsAre 0x0 t) = true := by decide +kernel
theorem test_fldpi_chop : after [0xD9, 0xEB] (fpu 0x0F7F []) (fun t => t.fpu.reg 0 == 0x4000C90FDAA22168C234) = true := by decide +kernel
theorem test_fldl2t : after [0xD9, 0xE9] (fpu 0x037F []) (fun t => t.fpu.reg 0 == 0x4000D49A784BCD1B8AFE) = true := by decide +kernel
theorem test_fldl2e : after [0xD9, 0xEA] (fpu 0x037F []) (fun t => t.fpu.reg 0 == 0x3FFFB8AA3B295C17F0BC) = true := by decide +kernel
theorem test_fldlg2 : after [0xD9, 0xEC] (fpu 0x037F []) (fun t => t.fpu.reg 0 == 0x3FFD9A209A84FBCFF799) = true := by decide +kernel
theorem test_fldln2 : after [0xD9, 0xED] (fpu 0x037F []) (fun t => t.fpu.reg 0 == 0x3FFEB17217F7D1CF79AC) = true := by decide +kernel
theorem test_fdivp_zero : after [0xDE, 0xF9] (fpu 0x037F [0x3FFF8000000000000000, 0x0]) (fun t => t.fpu.reg 0 == 0x7FFF8000000000000000 && t.fpu.st.top == 7 && flagsAre 0x04 t && t.fpu.tw == 0xBFFF) = true := by decide +kernel
theorem test_fdivp_unmasked : after [0xDE, 0xF9] (fpu 0x037B [0x3FFF8000000000000000, 0x0]) (fun t => t.fpu.reg 1 == 0x3FFF8000000000000000 && t.fpu.reg 0 == 0x0 && t.fpu.st.top == 6 && flagsAre 0x84 t) = true := by decide +kernel
theorem test_fld_single : after [0xD9, 0x03] (put 0x3000 (le 4 0xC3776000) (fpu 0x037F [])) (fun t => t.fpu.reg 0 == 0xC006F760000000000000) = true := by decide +kernel
theorem test_fld_snan : after [0xD9, 0x03] (put 0x3000 (le 4 0x7F800001) (fpu 0x037F [])) (fun t => t.fpu.reg 0 == 0x7FFFC000010000000000 && flagsAre 0x01 t) = true := by decide +kernel
theorem test_fild_word : after [0xDF, 0x03] (put 0x3000 (le 2 0xFFA9) (fpu 0x037F [])) (fun t => t.fpu.reg 0 == 0xC005AE00000000000000 && flagsAre 0x0 t) = true := by decide +kernel
theorem test_fild_long : after [0xDF, 0x2B] (put 0x3000 (le 8 0x7FFFFFFFFFFFFFFF) (fpu 0x037F [])) (fun t => t.fpu.reg 0 == 0x403DFFFFFFFFFFFFFFFE) = true := by decide +kernel
theorem test_fbld : after [0xDF, 0x23] (put 0x3000 (le 10 0x80000000000000000087) (fpu 0x037F [])) (fun t => t.fpu.reg 0 == 0xC005AE00000000000000) = true := by decide +kernel
theorem test_fst_single : after [0xD9, 0x13] (fpu 0x037F [0x3FFBCCCCCCCCCCCCCCCD]) (fun t => bytesAt 0x3000 4 t == 0x3DCCCCCD && flagsAre 0x20 t && t.fpu.st.c1 == true) = true := by decide +kernel
theorem test_fst_single_chop : after [0xD9, 0x13] (fpu 0x0F7F [0x3FFBCCCCCCCCCCCCCCCD]) (fun t => bytesAt 0x3000 4 t == 0x3DCCCCCC && flagsAre 0x20 t && t.fpu.st.c1 == false) = true := by decide +kernel
theorem test_fstp_double : after [0xDD, 0x1B] (fpu 0x037F [0x3FFBCCCCCCCCCCCCCCCD]) (fun t => bytesAt 0x3000 8 t == 0x3FB999999999999A && t.fpu.st.top == 0) = true := by decide +kernel
theorem test_fstp_unmasked : after [0xD9, 0x1B] (fpu 0x0377 [0x407F8000000000000000]) (fun t => bytesAt 0x3000 4 t == 0x0 && t.fpu.st.top == 7 && flagsAre 0x88 t) = true := by decide +kernel
theorem test_fist_half : after [0xDF, 0x13] (fpu 0x037F [0x4000A000000000000000]) (fun t => bytesAt 0x3000 2 t == 0x2 && flagsAre 0x20 t && t.fpu.st.c1 == false) = true := by decide +kernel
theorem test_fist_invalid : after [0xDF, 0x13] (fpu 0x037F [0x400DFFFF000000000000]) (fun t => bytesAt 0x3000 2 t == 0x8000 && flagsAre 0x01 t) = true := by decide +kernel
theorem test_fistp_long : after [0xDF, 0x3B] (fpu 0x037F [0x403DFFFFFFFFFFFFFFFE]) (fun t => bytesAt 0x3000 8 t == 0x7FFFFFFFFFFFFFFF && t.fpu.st.top == 0) = true := by decide +kernel
theorem test_fbstp : after [0xDF, 0x33] (fpu 0x037F [0xC005AE00000000000000]) (fun t => bytesAt 0x3000 10 t == 0x80000000000000000087 && t.fpu.st.top == 0) = true := by decide +kernel
theorem test_fbstp_indefinite : after [0xDF, 0x33] (fpu 0x037F [0x403ADE0B6B3A76400000]) (fun t => bytesAt 0x3000 10 t == 0xFFFFC000000000000000 && flagsAre 0x01 t) = true := by decide +kernel
theorem test_fadd : after [0xD8, 0xC1] (fpu 0x037F [0x40009000000000000000, 0x3FFFC000000000000000]) (fun t => t.fpu.reg 0 == 0x4000F000000000000000 && flagsAre 0x0 t) = true := by decide +kernel
theorem test_fadd_unsupported : after [0xD8, 0xC1] (fpu 0x037F [0x3FFF8000000000000000, 0x7FFF0000000000000000]) (fun t => t.fpu.reg 0 == 0xFFFFC000000000000000 && flagsAre 0x01 t) = true := by decide +kernel
theorem test_faddp : after [0xDE, 0xC1] (fpu 0x037F [0x40009000000000000000, 0x3FFFC000000000000000]) (fun t => t.fpu.reg 0 == 0x4000F000000000000000 && t.fpu.st.top == 7) = true := by decide +kernel
theorem test_fsub : after [0xD8, 0xE1] (fpu 0x037F [0x40009000000000000000, 0x3FFFC000000000000000]) (fun t => t.fpu.reg 0 == 0xBFFEC000000000000000) = true := by decide +kernel
theorem test_fsubr : after [0xD8, 0xE9] (fpu 0x037F [0x40009000000000000000, 0x3FFFC000000000000000]) (fun t => t.fpu.reg 0 == 0x3FFEC000000000000000) = true := by decide +kernel
theorem test_fsubp : after [0xDE, 0xE9] (fpu 0x037F [0x40009000000000000000, 0x3FFFC000000000000000]) (fun t => t.fpu.reg 0 == 0x3FFEC000000000000000 && t.fpu.st.top == 7) = true := by decide +kernel
theorem test_fsubrp : after [0xDE, 0xE1] (fpu 0x037F [0x40009000000000000000, 0x3FFFC000000000000000]) (fun t => t.fpu.reg 0 == 0xBFFEC000000000000000) = true := by decide +kernel
theorem test_fmul : after [0xD8, 0xC9] (fpu 0x037F [0x40009000000000000000, 0x3FFFC000000000000000]) (fun t => t.fpu.reg 0 == 0x4000D800000000000000) = true := by decide +kernel
theorem test_fdiv : after [0xD8, 0xF1] (fpu 0x037F [0x4000C000000000000000, 0x3FFF8000000000000000]) (fun t => t.fpu.reg 0 == 0x3FFDAAAAAAAAAAAAAAAB && flagsAre 0x20 t && t.fpu.st.c1 == true) = true := by decide +kernel
theorem test_fdiv_precision : after [0xD8, 0xF1] (fpu 0x027F [0x4000C000000000000000, 0x3FFF8000000000000000]) (fun t => t.fpu.reg 0 == 0x3FFDAAAAAAAAAAAAA800 && t.fpu.st.c1 == false) = true := by decide +kernel
theorem test_fdivr : after [0xD8, 0xF9] (fpu 0x037F [0x4003C000000000000000, 0x4001C000000000000000]) (fun t => t.fpu.reg 0 == 0x40018000000000000000) = true := by decide +kernel
theorem test_fdivrp : after [0xDE, 0xF1] (fpu 0x037F [0x4003C000000000000000, 0x4001C000000000000000]) (fun t => t.fpu.reg 0 == 0x3FFD8000000000000000) = true := by decide +kernel
theorem test_fsqrt : after [0xD9, 0xFA] (fpu 0x037F [0x40008000000000000000]) (fun t => t.fpu.reg 0 == 0x3FFFB504F333F9DE6484 && flagsAre 0x20 t && t.fpu.st.c1 == false) = true := by decide +kernel
theorem test_fsqrt_invalid : after [0xD9, 0xFA] (fpu 0x037F [0xBFFF8000000000000000]) (fun t => t.fpu.reg 0 == 0xFFFFC000000000000000 && flagsAre 0x01 t) = true := by decide +kernel
theorem test_fscale : after [0xD9, 0xFD] (fpu 0x037F [0x4000B999999999999A00, 0x4000C000000000000000]) (fun t => t.fpu.reg 0 == 0x4002C000000000000000) = true := by decide +kernel
theorem test_fprem : after [0xD9, 0xF8] (fpu 0x037F [0x40008000000000000000, 0x4001E000000000000000]) (fun t => t.fpu.reg 0 == 0x3FFF8000000000000000 && (t.fpu.st.c3, t.fpu.st.c2, t.fpu.st.c0) == (true, false, false) && t.fpu.st.c1 == true) = true := by decide +kernel
theorem test_fprem1 : after [0xD9, 0xF5] (fpu 0x037F [0x40008000000000000000, 0x4001E000000000000000]) (fun t => t.fpu.reg 0 == 0xBFFF8000000000000000 && (t.fpu.st.c3, t.fpu.st.c2, t.fpu.st.c0) == (false, false, true) && t.fpu.st.c1 == false) = true := by decide +kernel
theorem test_frndint : after [0xD9, 0xFC] (fpu 0x037F [0x4000A000000000000000]) (fun t => t.fpu.reg 0 == 0x40008000000000000000 && flagsAre 0x20 t && t.fpu.st.c1 == false) = true := by decide +kernel
theorem test_fxtract : after [0xD9, 0xF4] (fpu 0x037F [0xC002C000000000000000]) (fun t => t.fpu.reg 1 == 0x4000C000000000000000 && t.fpu.reg 0 == 0xBFFFC000000000000000 && t.fpu.st.top == 6) = true := by decide +kernel
theorem test_fxtract_zero : after [0xD9, 0xF4] (fpu 0x037F [0x80000000000000000000]) (fun t => t.fpu.reg 1 == 0xFFFF8000000000000000 && t.fpu.reg 0 == 0x80000000000000000000 && flagsAre 0x04 t) = true := by decide +kernel
theorem test_fabs : after [0xD9, 0xE1] (fpu 0x037F [0xBFFFC000000000000000]) (fun t => t.fpu.reg 0 == 0x3FFFC000000000000000) = true := by decide +kernel
theorem test_fchs : after [0xD9, 0xE0] (fpu 0x037F [0x7FFF8000000000000001]) (fun t => t.fpu.reg 0 == 0xFFFF8000000000000001 && flagsAre 0x0 t) = true := by decide +kernel
theorem test_fcom_less : after [0xD8, 0xD1] (fpu 0x037F [0x40008000000000000000, 0x3FFF8000000000000000]) (fun t => (t.fpu.st.c3, t.fpu.st.c2, t.fpu.st.c0) == (false, false, true) && flagsAre 0x0 t) = true := by decide +kernel
theorem test_fcom_nan : after [0xD8, 0xD1] (fpu 0x037F [0x3FFF8000000000000000, 0x7FFFC000010000000000]) (fun t => (t.fpu.st.c3, t.fpu.st.c2, t.fpu.st.c0) == (true, true, true) && flagsAre 0x01 t) = true := by decide +kernel
theorem test_fucom_nan : after [0xDD, 0xE1] (fpu 0x037F [0x3FFF8000000000000000, 0x7FFFC000010000000000]) (fun t => (t.fpu.st.c3, t.fpu.st.c2, t.fpu.st.c0) == (true, true, true) && flagsAre 0x0 t) = true := by decide +kernel
theorem test_fcompp : after [0xDE, 0xD9] (fpu 0x037F [0x40008000000000000000, 0x3FFF8000000000000000]) (fun t => (t.fpu.st.c3, t.fpu.st.c2, t.fpu.st.c0) == (false, false, true) && t.fpu.st.top == 0 && t.fpu.tw == 0xFFFF) = true := by decide +kernel
theorem test_ficomp : after [0xDA, 0x1B] (put 0x3000 (le 4 0xFFFFFFFF) (fpu 0x037F [0x3FFFC000000000000000])) (fun t => (t.fpu.st.c3, t.fpu.st.c2, t.fpu.st.c0) == (false, false, false) && t.fpu.st.top == 0) = true := by decide +kernel
theorem test_ftst : after [0xD9, 0xE4] (fpu 0x037F [0x80000000000000000000]) (fun t => (t.fpu.st.c3, t.fpu.st.c2, t.fpu.st.c0) == (true, false, false)) = true := by decide +kernel
theorem test_fxam_denormal : after [0xD9, 0xE5] (fpu 0x037F [0x00000000000000000001]) (fun t => (t.fpu.st.c3, t.fpu.st.c2, t.fpu.st.c0) == (true, true, false) && t.fpu.st.c1 == false) = true := by decide +kernel
theorem test_fxam_empty : after [0xD9, 0xE5] (fpu 0x037F []) (fun t => (t.fpu.st.c3, t.fpu.st.c2, t.fpu.st.c0) == (true, false, true)) = true := by decide +kernel
theorem test_fptan_zero : after [0xD9, 0xF2] (fpu 0x037F [0x0]) (fun t => t.fpu.reg 1 == 0x0 && t.fpu.reg 0 == 0x3FFF8000000000000000 && t.fpu.st.top == 6 && t.fpu.st.c2 == false) = true := by decide +kernel
theorem test_fptan_range : after [0xD9, 0xF2] (fpu 0x037F [0x403E8000000000000000]) (fun t => t.fpu.reg 0 == 0x403E8000000000000000 && t.fpu.st.top == 7 && t.fpu.st.c2 == true) = true := by decide +kernel
theorem test_fpatan : after [0xD9, 0xF3] (fpu 0x037F [0x3FFF8000000000000000, 0x3FFF8000000000000000]) (fun t => t.fpu.reg 0 == 0x3FFEC90FDAA22168C235 && t.fpu.st.top == 7 && flagsAre 0x20 t) = true := by decide +kernel
theorem test_f2xm1 : after [0xD9, 0xF0] (fpu 0x037F [0xBFFF8000000000000000]) (fun t => t.fpu.reg 0 == 0xBFFE8000000000000000) = true := by decide +kernel
theorem test_fyl2x : after [0xD9, 0xF1] (fpu 0x037F [0x4000C000000000000000, 0x40028000000000000000]) (fun t => t.fpu.reg 0 == 0x40029000000000000000 && t.fpu.st.top == 7) = true := by decide +kernel
theorem test_fsin_range : after [0xD9, 0xFE] (fpu 0x037F [0x403E8000000000000000]) (fun t => t.fpu.reg 0 == 0x403E8000000000000000 && t.fpu.st.c2 == true) = true := by decide +kernel
theorem test_fcos : after [0xD9, 0xFF] (fpu 0x037F [0x80000000000000000000]) (fun t => t.fpu.reg 0 == 0x3FFF8000000000000000 && t.fpu.st.c2 == false) = true := by decide +kernel
theorem test_fsincos : after [0xD9, 0xFB] (fpu 0x037F [0x0]) (fun t => t.fpu.reg 1 == 0x0 && t.fpu.reg 0 == 0x3FFF8000000000000000 && t.fpu.st.c2 == false) = true := by decide +kernel
theorem test_fyl2xp1 : after [0xD9, 0xF9] (fpu 0x037F [0x4001A000000000000000, 0x0]) (fun t => t.fpu.reg 0 == 0x0 && t.fpu.st.top == 7) = true := by decide +kernel
theorem test_fldcw : after [0xD9, 0x2B] (put 0x3000 (le 2 0x0F7F) (fpu 0x037F [])) (fun t => t.fpu.cw == 0x0F7F) = true := by decide +kernel
theorem test_fnstcw : after [0xD9, 0x3B] (fpu 0x037F []) (fun t => bytesAt 0x3000 2 t == 0x037F) = true := by decide +kernel
theorem test_fnstsw : after [0xDF, 0xE0] (fpu 0x037F [0x3FFF8000000000000000]) (fun t => t.regs.eax.extractLsb' 0 8 == 0 && t.regs.eax.extractLsb' 11 3 == 7) = true := by decide +kernel
theorem test_fxch : after [0xD9, 0xC9] (fpu 0x037F [0x3FFF8000000000000000, 0x0]) (fun t => t.fpu.reg 0 == 0x3FFF8000000000000000 && t.fpu.reg 1 == 0x0 && t.fpu.tw == 0x4FFF) = true := by decide +kernel
theorem test_fincstp : after [0xD9, 0xF7] (fpu 0x037F [0x3FFF8000000000000000]) (fun t => t.fpu.st.top == 0 && t.fpu.tw == 0x3FFF) = true := by decide +kernel
theorem test_fdecstp : after [0xD9, 0xF6] (fpu 0x037F [0x3FFF8000000000000000]) (fun t => t.fpu.st.top == 6 && t.fpu.reg 1 == 0x3FFF8000000000000000) = true := by decide +kernel
theorem test_ffree : after [0xDD, 0xC1] (fpu 0x037F [0x3FFF8000000000000000, 0x0]) (fun t => t.fpu.tw == 0xDFFF && t.fpu.st.top == 6) = true := by decide +kernel
theorem test_fnstenv : after [0x66, 0xD9, 0x33] (fpu 0x037F [0x3FFF8000000000000000, 0x0]) (fun t => bytesAt 0x3000 6 t == 0x1FFF3000037F && t.fpu.cw == 0x037F) = true := by decide +kernel

/-! ### Memory, paging, ports, exceptions: 96_test_vectors_derived V11 to V13, V15 -/

/-- Paging as in V11: directory at 00100000H, one table at 00101000H, its entry 3 = `pte`. -/
def paged (pte : Nat) (cpl : BitVec 2) (wp : Bool) : State :=
  put 0x100004 (le 4 0x101007) <| put 0x10100C (le 4 pte) <| put 0x200025 [0x5A]
    { flat with cr0 := if wp then 0xE0010021 else 0xE0000021, cr3 := 0x100000, cpl := cpl }

/-- How a byte access at linear 00403025H ends: the two entries and Accessed and Dirty, or the error code and CR2. -/
def pageAccess (s : State) (write : Bool) : List Nat :=
  match locate .ds 0x403025 1 1 write s with
  | .ok ps t => [0, (ps.map (·.1)).sum, bytesAt 0x100004 4 t, bytesAt 0x10100C 4 t]
  | .error (.exn e) t => [e.vector.toNat, (e.code.getD 0).toNat, t.cr2.toNat]
  | .error _ _ => []

theorem test_page_read : pageAccess (paged 0x200007 0 false) false = [0, 0x200025, 0x101027, 0x200027] := by decide +kernel
theorem test_page_write : pageAccess (paged 0x200007 0 false) true = [0, 0x200025, 0x101027, 0x200067] := by decide +kernel
theorem test_page_readonly_user : pageAccess (paged 0x200005 3 false) true = [14, 7, 0x403025] := by decide +kernel
theorem test_page_readonly_supervisor : pageAccess (paged 0x200005 0 false) true = [0, 0x200025, 0x101027, 0x200065] := by decide +kernel
theorem test_page_write_protect : pageAccess (paged 0x200005 0 true) true = [14, 3, 0x403025] := by decide +kernel
theorem test_page_supervisor_only : pageAccess (paged 0x200003 3 false) false = [14, 5, 0x403025] := by decide +kernel
theorem test_page_absent : pageAccess (paged 0x200006 0 false) false = [14, 0, 0x403025] := by decide +kernel

/-- Privilege level 3 with a 32-bit TSS at 00010000H whose permission map begins at 88H. -/
def user (type : BitVec 4) (map : List Nat) : State :=
  put 0x10066 [0x88, 0] <| put 0x10107 map
    { flat with cpl := 3, tr := ⟨0x28, { flat.tr.hid with base := 0x10000, limit := 0x20FF, valid := true, type := type }⟩ }

/-- Whether the I/O check passes (V12). -/
def ioPasses (port n : Nat) (s : State) : Bool :=
  match ioCheck port n s with
  | .ok _ _ => true
  | .error _ _ => false

theorem test_io_allowed : ioPasses 0x3F8 1 (user 11 [0, 0]) = true := by decide +kernel
theorem test_io_denied : ioPasses 0x3F8 1 (user 11 [1, 0]) = false := by decide +kernel
theorem test_io_dword : ioPasses 0x3FD 4 (user 11 [0, 1]) = false := by decide +kernel
theorem test_io_word : ioPasses 0x3FD 2 (user 11 [0, 1]) = true := by decide +kernel
theorem test_io_16bit_tss : ioPasses 0x3F8 1 (user 3 [0, 0]) = false := by decide +kernel

/-- V13.1: real mode at 1000:0100, SP = 0200H, FLAGS = 0202H, SS = 3000H. -/
def realCode : State :=
  inReal .cs 0x1000 { real with
    eip := 0x100, regs := { real.regs with esp := 0x200, ebx := 0 }, flags := { real.flags with intf := true } }

theorem test_intIb : after [0xCD, 0x21] (put 0x84 [0x34, 0x12, 0x70, 0] realCode) (fun t =>
    bytesAt 0x301FA 6 t == 0x020210000102 && t.regs.esp == 0x1FA && !t.flags.intf && t.segs.cs.sel == 0x70 && t.eip == 0x1234) = true := by
  decide +kernel
theorem test_int3 : after [0xCC] (put 0xC [0x34, 0x12, 0x70, 0] realCode) (fun t => bytesAt 0x301FA 2 t == 0x101 && t.eip == 0x1234) = true := by
  decide +kernel
theorem test_iret : after [0xCF] (put 0x30200 [2, 1, 0, 0x10, 2, 2] realCode) (fun t =>
    t.segs.cs.hid.base == 0x10000 && t.eip == 0x102 && t.regs.esp == 0x206 && t.flags.toBits == 0x202) = true := by decide +kernel
theorem test_divide_error : after [0xF6, 0xF3] (put 0 [0, 4, 0, 0] realCode) (fun t => bytesAt 0x301FA 2 t == 0x100 && t.eip == 0x400) = true := by
  decide +kernel
theorem test_nmi : after [0x90] (put 8 [0x34, 0x12, 0x70, 0] { realCode with latch := { realCode.latch with nmiPending := true } })
    (fun t => t.eip == 0x1234 && t.latch.nmiInService && !t.latch.nmiPending) = true := by decide +kernel
theorem test_intr : after [0x90] (put 0x20 [0x34, 0x12, 0x70, 0] { realCode with pins := { Pins.idle with intr := true, intrVector := 8 } })
    (fun t => t.eip == 0x1234 && bytesAt 0x301FA 2 t == 0x100) = true := by decide +kernel
/-- 21_bus R193: the acknowledge cycles, at byte addresses 4 and 0, of which the second gives the vector. -/
theorem test_intr_acknowledge : after [0x90] (put 0x20 [0x34, 0x12, 0x70, 0] { realCode with pins := { Pins.idle with intr := true, intrVector := 8 } })
    (fun t => t.bus.reverse.map (·.event) == [.intAck 4 none, .intAck 0 (some 8)]) = true := by decide +kernel
theorem test_intr_masked : after [0x90] { real with pins := { Pins.idle with intr := true, intrVector := 8 } } (fun t => t.eip == 0x1001) = true := by
  decide +kernel

theorem test_input_stream : after [0x90] (put 8 [0x34, 0x12, 0x70, 0] { realCode with inputs := [{ Pins.idle with nmi := true }] })
    (fun t => t.eip == 0x1234 && t.inputs == [] && t.latch.nmiLevel) = true := by decide +kernel

/-- 20_memory R123: MOV BYTE PTR [1007H],41H over the byte 40H that follows it; a taken JMP drops what was prefetched. -/
theorem test_prefetch_keeps_old_byte : after [0xC6, 5, 7, 0x10, 0, 0, 0x41, 0x40] flat (fun t => t.prefetch.stale == [(0x1007, 0x40)]) = true := by
  decide +kernel
theorem test_prefetch_jump : afterSteps 2 (put 0x1000 [0xC6, 5, 9, 0x10, 0, 0, 0x41, 0xEB, 0] flat) (fun t => t.prefetch == Prefetch.empty) = true := by
  decide +kernel

/-- V13.2: gate 13 as stored there, EFLAGS = 246H. -/
def gated : State :=
  put 0x80068 [0, 0x30, 8, 0, 0, 0x8E, 0, 0] { flatGate 0 with flags := { flat.flags with zf := true, pf := true, intf := true } }

theorem test_protected_fault : after [0x8E, 0xD8] { gated with regs := { gated.regs with eax := 0x43 } } (fun t =>
    t.regs.esp == 0x7FF0 && t.eip == 0x3000 && !t.flags.intf && t.segs.cs.sel == 8) = true := by decide +kernel
/-- The same gate with 16-bit items, which have no free upper half. -/
theorem test_protected_software : after [0xCD, 0x0D] (put 0x8006D [0x86] gated) (fun t =>
    bytesAt 0x7FFA 6 t == 0x024600081002 && t.regs.esp == 0x7FFA && t.eip == 0x3000) = true := by decide +kernel
theorem test_protected_iret : after [0xCF] (put 0x7FF4 (le 4 0x1000 ++ le 4 8 ++ le 4 0x10246) { gated with regs := { gated.regs with esp := 0x7FF4 } })
    (fun t => t.eip == 0x1000 && t.regs.esp == 0x8000 && t.flags.toBits == 0x10246) = true := by decide +kernel

/-- V13.3: an external interrupt 20H taken at privilege level 3, to level 0. -/
def inner : State :=
  put 0x80100 [0, 0x40, 8, 0, 0, 0x8E, 0, 0] <| put 0x10004 (le 4 0x9000 ++ [0x10, 0]) <|
    { gated with
      eip := 0x1234, cpl := 3, regs := { gated.regs with esp := 0x5000 }, flags := { flat.flags with intf := true }
      tr := ⟨0x28, { flat.tr.hid with base := 0x10000, limit := 0x67, valid := true, type := 11 }⟩
      segs := { gated.segs with cs := flatSeg 0x1B 11 3, ss := flatSeg 0x23 3 3 }
      pins := { Pins.idle with intr := true, intrVector := 0x20 } }

theorem test_inner_entry : after [] inner (fun t =>
    t.cpl == 0 && t.segs.ss.sel == 0x10 && t.regs.esp == 0x8FEC && t.eip == 0x4000 && !t.flags.intf) = true := by decide +kernel
theorem test_inner_frame : after [] (put 0x80105 [0x86] inner) (fun t =>
    bytesAt 0x8FF6 10 t == 0x002350000202001B1234 && t.regs.esp == 0x8FF6) = true := by decide +kernel

/-- V13.4 rows 5 to 7. -/
theorem test_task_switched : after [0xD9, 0xE8] { flatGate 7 with cr0 := 0x60000029 } (fun t => t.eip == 0xF007) = true := by decide +kernel
theorem test_emulated : after [0xD9, 0xD1] { flatGate 7 with cr0 := 0x60000025 } (fun t => t.eip == 0xF007) = true := by decide +kernel
theorem test_undefined_esc : after [0xD9, 0xD1] (flatGate 6) (fun t => t.eip == 0xF006) = true := by decide +kernel
theorem test_wait : after [0x9B] { flatGate 7 with cr0 := 0x6000002B } (fun t => t.eip == 0xF007) = true := by decide +kernel
theorem test_fpu_error : after [0xD9, 0xE8]
    { flatGate 16 with fpu := { (fpu 0x037B []).fpu with st := { FpuStatus.clear with ze := true } } } (fun t => t.eip == 0xF010) = true := by
  decide +kernel

/-- V15: the first instruction after reset. -/
theorem test_reset_far_jump : (match step (State.reset.withFetchWord 40 0xF000E05BEA) with
    | .next t => t.segs.cs.hid.base == 0xF0000 && t.eip == 0xE05B
    | .fault _ => false
    | .refused _ => false) = true := by decide +kernel
theorem test_reset_cr0 : (match step (State.reset.withFetchWord 24 0xC0200F) with
    | .next t => t.regs.eax == 0x60000000
    | .fault _ => false
    | .refused _ => false) = true := by decide +kernel

/-- 21_bus R192: of a misaligned dword the higher dword of the bus is written first (`bus` lists the newest cycle first). -/
theorem test_device_misaligned : after [0xA3, 2, 0, 0x0A, 0]
    { flat with regions := [⟨0xA0000, 0xAFFFF, .device, false⟩], regs := { flat.regs with eax := 0x44332211 } } (fun t =>
      t.bus == [⟨.memWrite 0xA0002 2 0x2211, ⟨false, false⟩⟩, ⟨.memWrite 0xA0004 2 0x4433, ⟨false, false⟩⟩]) = true := by decide +kernel

/-- 10_state R94 (c): an NMI waits until the instruction after STI is done. -/
theorem test_sti_shadow : afterSteps 3 (put 8 [0x34, 0x12, 0x70, 0] (put 0x10100 [0xFB, 0x90, 0x90]
    { realCode with flags := real.flags, inputs := [Pins.idle, { Pins.idle with nmi := true }] }))
    (fun t => t.eip == 0x1234 && bytesAt 0x301FA 2 t == 0x102) = true := by decide +kernel

/-- 10_state R94 (c), R868, entry 27: the instruction after STI is the whole repeated string instruction. -/
theorem test_sti_shadow_repeated : afterSteps 4 (put 8 [0x34, 0x12, 0x70, 0] (put 0x10100 [0xFB, 0xF3, 0xAA, 0x90]
    { realCode with flags := real.flags, regs := { realCode.regs with ecx := 2, edi := 0x3000 }, inputs := [Pins.idle, { Pins.idle with nmi := true }] }))
    (fun t => t.eip == 0x1234 && t.regs.ecx == 0 && bytesAt 0x301FA 2 t == 0x103) = true := by decide +kernel

/-- 44_integer R541: SGDT is a write of two bytes and one of four, also to a device. -/
theorem test_sgdt_device : after [0x0F, 1, 5, 0, 0, 0x0A, 0]
    { flat with regions := [⟨0xA0000, 0xAFFFF, .device, false⟩], gdtr := ⟨0x12345678, 0x9ABC⟩ } (fun t =>
      t.bus.reverse.map (·.event) == [.memWrite 0xA0000 2 0x9ABC, .memWrite 0xA0004 2 0x1234, .memWrite 0xA0002 2 0x5678]) = true := by decide +kernel


/-! ### Witnesses: for every statement with hypotheses, states and operands that meet them -/

/-- FLAT32 about to execute an instruction of two bytes, with a far pointer, numbers and a stack in memory. -/
def w32 : State :=
  put 0x3000 [5, 0, 0, 0, 9, 0, 0, 0] <| put 0x8000 (le 4 0x1005 ++ le 4 8 ++ le 4 0x246) <|
    { flatGate 13 with dec := { Dec.start with len := 2 }, regs := { flat.regs with eax := 7, ecx := 3, ebp := 0x8100, esi := 0x3000, edi := 0x3100 } }

/-- REAL16 in the same situation. -/
def w16 : State :=
  put 0x3000 [5, 0, 9, 0] <| put 0x38000 [5, 0x10, 0x34, 0x12, 2, 2] <|
    { realGate 13 with dec := { Dec.start with len := 2 }, regs := { real.regs with eax := 7, ecx := 3, ebx := 0x3000, esp := 0x8000, esi := 0x3000, edi := 0x3100 } }

/-- [EBX] and [BX]. -/
def atEbx : Mem := .a32 3 .none
def atBx : Mem := .a16 7 .none

/-- Whether a computation answers this value. -/
def answers {α : Type} [DecidableEq α] (m : M α) (s : State) (x : α) : Bool :=
  match m s with
  | .ok y _ => y == x
  | .error _ _ => false

/-- The state a computation leaves. -/
def left {α : Type} (m : M α) (s : State) : State :=
  match m s with
  | .ok _ t => t
  | .error _ t => t

theorem answers_ok {α : Type} [DecidableEq α] {m : M α} {s : State} {x : α} (h : answers m s x = true) : m s = .ok x (left m s) := by
  unfold answers at h
  unfold left
  split at h
  · next y t e => rw [e, eq_of_beq h]
  · cases h

theorem witness_AluToRegister : ∃ b s1, w32.Ready (AluForm.lockable (.gvEv 0 (.mem atEbx))) ∧ aluDst (.gvEv 0 (.mem atEbx)) = .reg 0 ∧
    aluSource w32.osz.width (.gvEv 0 (.mem atEbx)) w32.begin = .ok b s1 := ⟨_, _, ⟨rfl, rfl⟩, rfl, rfl⟩

theorem witness_AluToMemory : ∃ ps a b s1 s2, w32.Ready true ∧ aluDst (.evGv 0 (.mem atEbx)) = .mem atEbx ∧
    aluSource w32.osz.width (.evGv 0 (.mem atEbx)) w32.begin = .ok b w32.begin ∧
    locateMem atEbx 4 4 true w32.begin = .ok ps s1 ∧ readBytes w32.dec.lock ps s1 = .ok a s2 :=
  ⟨_, _, _, _, _, ⟨rfl, rfl⟩, rfl, rfl, rfl, rfl⟩

theorem witness_CompareAndTest_cmp : ∃ a b s1 s2, w32.Ready false ∧ readRm .w32 (aluDst (.ev83 (.mem atEbx) 0xFF)) w32.begin = .ok a s1 ∧
    aluSource .w32 (.ev83 (.mem atEbx) 0xFF) s1 = .ok b s2 := ⟨_, _, _, _, ⟨rfl, rfl⟩, rfl, rfl⟩

theorem witness_CompareAndTest_test : ∃ a b s1 s2, w32.Ready false ∧ readRm .w8 (aluDst (testForm (.alIb 1))) w32.begin = .ok a s1 ∧
    aluSource .w8 (testForm (.alIb 1)) s1 = .ok b s2 := ⟨_, _, _, _, ⟨rfl, rfl⟩, rfl, rfl⟩

theorem witness_OneOperandArithmetic_register : w32.Ready false := ⟨rfl, rfl⟩

theorem witness_OneOperandArithmetic_memory : ∃ ps a s1 s2, w32.Ready true ∧
    locateMem atEbx 1 1 true w32.begin = .ok ps s1 ∧ readBytes w32.dec.lock ps s1 = .ok a s2 := ⟨_, _, _, _, ⟨rfl, rfl⟩, rfl, rfl⟩

theorem witness_MultiplyDivide_multiply : ∃ b s1, w32.Ready false ∧ readRm .w32 (.mem atEbx) w32.begin = .ok b s1 := ⟨_, _, ⟨rfl, rfl⟩, rfl⟩

theorem witness_MultiplyDivide_divide : ∃ s1, w32.Ready false ∧ readRm .w32 (.mem atEbx) w32.begin = .ok 5 s1 ∧
    doubleReg .w32 w32.regs / 5 < 2 ^ 32 := ⟨_, ⟨rfl, rfl⟩, rfl, by decide⟩

/-- The largest quotient IDIV takes: 80H / FFH is too large, FF81H / FFH = 127 is not. -/
theorem witness_MultiplyDivide_boundary :
    let q := (toSigned 16 0xFF81).tdiv (toSigned 8 0xFF);
    -(2 ^ 7) ≤ q ∧ q ≤ 2 ^ 7 - 1 ∧ q = 127 := by decide

theorem witness_DivideErrorAndBound_zero : ∃ s1, w32.Ready false ∧ readRm .w8 (.reg 2) w32.begin = .ok 0 s1 := ⟨_, ⟨rfl, rfl⟩, rfl⟩

theorem witness_DivideErrorAndBound_overflow : let q := (toSigned 16 0xFF80).tdiv (toSigned 8 0xFF)
    2 ^ 7 - 1 < q ∧ 2 ^ 8 ≤ 0x100 / 1 := by decide

theorem witness_DivideErrorAndBound_inside : ∃ s1 s2, w32.Ready false ∧ loadMem atEbx 0 4 4 w32.begin = .ok 5 s1 ∧
    loadMem atEbx 4 4 4 s1 = .ok 9 s2 ∧ toSigned 32 5 ≤ toSigned 32 (w32.regs.read .w32 0) ∧
    toSigned 32 (w32.regs.read .w32 0) ≤ toSigned 32 9 := ⟨_, _, ⟨rfl, rfl⟩, rfl, rfl, by decide, by decide⟩

theorem witness_DivideErrorAndBound_outside : ∃ s1 s2, w32.Ready false ∧ loadMem atEbx 0 4 4 w32.begin = .ok 5 s1 ∧
    loadMem atEbx 4 4 4 s1 = .ok 9 s2 ∧ ¬ toSigned 32 5 ≤ toSigned 32 (w32.regs.read .w32 1) := ⟨_, _, ⟨rfl, rfl⟩, rfl, rfl, by decide⟩

/-- BOUND of REAL16 whose operand through SS begins at FFFFH, and at FFFDH, where the upper bound alone lies beyond. -/
def w16Bound (bx : DWord) : State :=
  { w16 with dec := { w16.dec with seg := some .ss }, regs := { w16.regs with ebx := bx } }

theorem witness_DivideErrorAndBound_beyond : ∃ lo s1, (w16Bound 0xFFFF).Ready false ∧ (w16Bound 0xFFFF).pe = false ∧
    2 ^ 16 < (w16Bound 0xFFFF).memOff atBx + 0 + 2 ∧ (w16.segs.get .ss).hid.inLimit 0xFFFF 2 = false ∧
    2 ^ 16 < (w16Bound 0xFFFD).memOff atBx + 2 + 2 ∧ (w16.segs.get .ss).hid.inLimit 0xFFFF 2 = false ∧
    ¬ 2 ^ 16 < (w16Bound 0xFFFC).memOff atBx + 2 + 2 ∧ loadMem atBx 0 2 2 (w16Bound 0xFFFD).begin = .ok lo s1 :=
  ⟨_, _, ⟨rfl, rfl⟩, rfl, by decide, rfl, by decide, rfl, by decide, rfl⟩

/-- 40_integer R338: BOUND AX,[BP-2] with BP = 1 in real mode raises interrupt 13; MOV AX,[BP-2] raises 12 (V1.2 row 5). -/
theorem test_bound_real_stack : after [0x62, 0x46, 0xFE] { realGate 13 with regs := { real.regs with ebp := 1, esp := 0x200 } } (fun t => t.eip == 0xF00D) = true := by
  decide +kernel
theorem test_mov_real_stack : after [0x8B, 0x46, 0xFE] { realGate 12 with regs := { real.regs with ebp := 1, esp := 0x200 } } (fun t => t.eip == 0xF00C) = true := by
  decide +kernel

theorem witness_Exchanges : ∃ ps a s1 s2 s3, w32.Ready false ∧ w32.Ready true ∧ locateMem atEbx 4 4 true w32.begin = .ok ps s1 ∧
    readBytes w32.dec.lock ps s1 = .ok a s2 ∧ readBytes true ps s1 = .ok a s3 := ⟨_, _, _, _, _, ⟨rfl, rfl⟩, ⟨rfl, rfl⟩, rfl, rfl, rfl⟩

theorem witness_DecimalAdjustment : w32.Ready false ∧ (10 : Byte) ≠ 0 := ⟨⟨rfl, rfl⟩, by decide⟩

theorem witness_ArithmeticFlagsMean : (8 : Nat) ≤ 8 ∧ 0xFF < 2 ^ 8 ∧ 0x80 < 2 ^ 8 ∧ 1 ≤ 1 := by decide

theorem witness_ShiftsAndRotates_register : w32.Ready false ∧ shiftRm (.eb1 (.reg 4)) = .reg 4 ∧
    ShiftOp.live .rcl 8 (shiftCount w32.regs (.eb1 (.reg 4))) = true ∧ ShiftOp.live .rcl 8 (shiftCount w32.regs (.ebIb (.reg 4) 9)) = false ∧
    ShiftOp.live .shl 32 (shiftCount w32.regs (.evIb (.reg 4) 32)) = false := ⟨⟨rfl, rfl⟩, rfl, rfl, rfl, rfl⟩

theorem witness_ShiftsAndRotates_memory : ∃ ps a s1 s2 s3, w32.Ready false ∧ shiftRm (.evCl (.mem atEbx)) = .mem atEbx ∧
    ShiftOp.live .sar 32 (shiftCount w32.regs (.evCl (.mem atEbx))) = true ∧ locateMem atEbx 4 4 true w32.begin = .ok ps s1 ∧
    readBytes false ps s1 = .ok a s2 ∧ ShiftOp.live .sar 32 (shiftCount w32.regs (.evIb (.mem atEbx) 0)) = false ∧
    loadMem atEbx 0 4 4 w32.begin = .ok a s3 := ⟨_, _, _, _, _, ⟨rfl, rfl⟩, rfl, rfl, rfl, rfl, rfl, rfl⟩

theorem witness_DoubleShift_register : w16.Ready false ∧ dshiftRm (.ib 3 (.reg 0) 16) = .reg 0 ∧ dshiftCount w16.regs (.ib 3 (.reg 0) 16) = 16 ∧
    dshiftCount w16.regs (.ib 3 (.reg 0) 32) = 0 ∧ w16.osz.width.bits < dshiftCount w16.regs (.ib 3 (.reg 0) 17) := ⟨⟨rfl, rfl⟩, rfl, rfl, rfl, by decide⟩

theorem witness_DoubleShift_memory : ∃ ps a s1 s2, w32.Ready false ∧ dshiftRm (.cl 3 (.mem atEbx)) = .mem atEbx ∧
    dshiftCount w32.regs (.cl 3 (.mem atEbx)) = 3 ∧ locateMem atEbx 4 4 true w32.begin = .ok ps s1 ∧ readBytes false ps s1 = .ok a s2 :=
  ⟨_, _, _, _, ⟨rfl, rfl⟩, rfl, rfl, rfl, rfl⟩

/-- The least and the greatest count. -/
theorem witness_DoubleShift_bits : ((16 : Nat) = 16 ∨ (16 : Nat) = 32) ∧ 0 < 1 ∧ 1 ≤ 16 ∧ 16 ≤ 16 ∧ 0x8001 < 2 ^ 16 ∧ 0xFFFF < 2 ^ 16 := by decide


theorem witness_BitTestsAndScans_register : w32.Ready false ∧ BitForm.rm (.evGv 1 (.reg 0)) = .reg 0 := ⟨⟨rfl, rfl⟩, rfl⟩

theorem witness_BitTestsAndScans_memory : ∃ ps x s1 s2 s3, BitForm.rm (.evGv 1 (.mem atEbx)) = .mem atEbx ∧ w32.Ready false ∧ w32.Ready true ∧
    (let off := bitOffset .w32 w32.regs (.evGv 1 (.mem atEbx))
     let a := w32.bitOff atEbx (off / 32 * 4)
     load (w32.memSeg atEbx) a 4 4 w32.begin = .ok x s1 ∧ locate (w32.memSeg atEbx) a 4 4 true w32.begin = .ok ps s2 ∧
       readBytes w32.dec.lock ps s2 = .ok x s3) := ⟨_, _, _, _, _, rfl, ⟨rfl, rfl⟩, ⟨rfl, rfl⟩, rfl, rfl, rfl⟩

theorem witness_BitTestsAndScans_scan : ∃ s1, w32.Ready false ∧ readRm .w32 (.mem atEbx) w32.begin = .ok 5 s1 ∧ 5 < 2 ^ 32 := ⟨_, ⟨rfl, rfl⟩, rfl, by decide⟩

theorem witness_ShiftResultsMean : ((8 : Nat) = 8 ∨ (8 : Nat) = 16 ∨ (8 : Nat) = 32) ∧ 0 < 31 ∧ 31 < 32 ∧ 0x81 < 2 ^ 8 := by decide

theorem witness_MoveData_register : ∃ x s1 s2 s3 s4, w32.Ready false ∧ readRm .w8 (.reg 1) w32.begin = .ok x s1 ∧
    readRm .w32 (.reg 1) w32.begin = .ok x s2 ∧ load w32.dataSeg 0x3000 1 1 w32.begin = .ok 5 s3 ∧
    load w32.dataSeg 0x3000 4 4 w32.begin = .ok 5 s4 :=
  ⟨_, _, _, _, _, ⟨rfl, rfl⟩, rfl, rfl, answers_ok (by decide +kernel), answers_ok (by decide +kernel)⟩

theorem witness_MoveData_memory : ∃ ps qs s1 s2, locateMem atEbx 4 4 true w32.begin = .ok ps s1 ∧
    locate w32.dataSeg 0x3000 1 1 true w32.begin = .ok qs s2 := ⟨_, _, _, _, rfl, rfl⟩

theorem witness_ExtendAndAddress : ∃ x s1 s2 s3, w32.Ready false ∧ w32.osz = .s32 ∧ w16.osz = .s16 ∧ readRm .w8 (.mem atEbx) w32.begin = .ok x s1 ∧
    readRm .w16 (.mem atEbx) w32.begin = .ok x s2 ∧
    load w32.dataSeg ((w32.regs.read .w32 regEBX + w32.regs.read .w8 regEAX) % 2 ^ 32) 1 1 w32.begin = .ok 0 s3 :=
  ⟨_, _, _, _, ⟨rfl, rfl⟩, rfl, rfl, rfl, rfl, rfl⟩

theorem witness_SignExtensionsAndFlagInstructions : w32.Ready false ∧ w32.osz = .s32 ∧ w16.Ready false ∧ w16.osz = .s16 :=
  ⟨⟨rfl, rfl⟩, rfl, ⟨rfl, rfl⟩, rfl⟩

theorem witness_SetByCondition : ∃ ps s1, w32.Ready false ∧ locateMem atEbx 1 1 true w32.begin = .ok ps s1 := ⟨_, _, ⟨rfl, rfl⟩, rfl⟩

theorem witness_SegmentLoad_real : w16.pe = false := rfl

theorem witness_SegmentLoad_null : w32.pe = true ∧ isNull 3 = true ∧ SegName.ds ≠ .ss := ⟨rfl, rfl, by decide⟩

/-- Selector 0038H is the last in a table of limit 003FH, 0040H is beyond it. -/
theorem witness_SegmentLoad_beyond : isNull 0x40 = false ∧ w32.descAddr 0x40 = none ∧ w32.descAddr 0x38 = some 0x90038 := ⟨rfl, rfl, rfl⟩

theorem witness_SegmentLoad_data : ∃ d h s1 s2, isNull 0x10 = false ∧ w32.descAddr 0x10 = some 0x90010 ∧ readDesc 0x90010 w32 = .ok d s1 ∧
    d.hidden.readable = true ∧ (w32.cpl ≤ d.dpl ∧ (0x10 : Word).extractLsb' 0 2 ≤ d.dpl) ∧ d.present = true ∧ accessed 0x90010 d s1 = .ok h s2 :=
  ⟨_, _, _, _, rfl, rfl, rfl, rfl, ⟨by decide, by decide⟩, rfl, rfl⟩

theorem witness_SegmentLoad_stack : ∃ d h s1 s2, readDesc 0x90010 w32 = .ok d s1 ∧ (0x10 : Word).extractLsb' 0 2 = w32.cpl ∧ d.dpl = w32.cpl ∧
    d.hidden.writable = true ∧ d.present = true ∧ accessed 0x90010 d s1 = .ok h s2 := ⟨_, _, _, _, rfl, rfl, rfl, rfl, rfl, rfl⟩

/-- Descriptor 10H not present. -/
def w32Absent : State := put 0x90015 [0x13] w32

theorem witness_SegmentLoad_absent : ∃ d s1, readDesc 0x90010 w32Absent = .ok d s1 ∧ d.hidden.readable = true ∧ d.hidden.writable = true ∧
    d.present = false := ⟨_, _, rfl, rfl, rfl, rfl⟩

/-- Of a level above: descriptor 10H of level 0, loaded at level 3; descriptor 8 is code, not writable. -/
theorem witness_SegmentLoad_refused : ∃ d c s1 s2, readDesc 0x90010 { w32 with cpl := 3 } = .ok d s1 ∧ d.hidden.readable = true ∧
    d.hidden.conforming = false ∧ d.dpl < ({ w32 with cpl := 3 } : State).cpl ∧ (0x10 : Word).extractLsb' 0 2 ≠ ({ w32 with cpl := 3 } : State).cpl ∧
    readDesc 0x90008 w32 = .ok c s2 ∧ c.hidden.writable = false := ⟨_, _, _, _, rfl, rfl, rfl, by decide, by decide, rfl, rfl⟩


theorem witness_MoveSegments_store : ∃ ps s1, w32.Ready false ∧ segOfNum 3 = some .ds ∧ locateMem atEbx 2 2 true w32.begin = .ok ps s1 :=
  ⟨_, _, ⟨rfl, rfl⟩, rfl, rfl⟩

theorem witness_MoveSegments_load : ∃ s1 s2, readRm .w16 (.reg 0) { w32 with regs := { w32.regs with eax := 0x10 } }.begin = .ok 0x10 s1 ∧
    loadSeg .ds 0x10 s1 = .ok () s2 := ⟨_, _, rfl, rfl⟩

theorem witness_MoveSegments_undefined : segOfNum 6 = none ∧ segOfNum 7 = none ∧ segOfNum 5 = some .gs := ⟨rfl, rfl, rfl⟩

theorem witness_MoveSegments_far : ∃ off sel s1 s2, w16.Ready false ∧ farLoadInstr .ss 0 atBx = some (.lss 0 atBx) ∧
    w16.begin.ReadsFar atBx off sel s1 ∧ loadSeg .ss sel s1 = .ok () s2 := ⟨_, _, _, _, ⟨rfl, rfl⟩, rfl, ⟨_, _, rfl, rfl, rfl⟩, rfl⟩

/-- The offset of a pointer at DS:FFFFH lies beyond the limit. -/
theorem witness_MoveSegments_far_fault : let s : State := { w16 with regs := { w16.regs with ebx := 0xFFFF } }
    ∃ e s1, s.Ready false ∧ loadMem atBx 0 2 2 s.begin = .error (.exn e) s1 := ⟨_, _, ⟨rfl, rfl⟩, rfl⟩

theorem witness_PushForms : ∃ rd x ps s1 s2, w32.Ready false ∧ pushOperand .w32 (.ev (.mem atEbx)) = some rd ∧ rd w32.begin = .ok x s1 ∧
    w32.pe = true ∧ locate .ss (w32.spMinus 4) 4 4 true s1 = .ok ps s2 := ⟨_, _, _, _, _, ⟨rfl, rfl⟩, rfl, rfl, rfl, rfl⟩

theorem witness_PushForms_shutdown : let s : State := { w16 with regs := { w16.regs with esp := 1 } }
    s.pe = false ∧ s.sp = 1 ∧ s.Ready false ∧ pushOperand s.osz.width (.ib 0) = some (pure 0) := ⟨rfl, rfl, ⟨rfl, rfl⟩, rfl⟩

theorem witness_PushForms_segment_shutdown : let s : State := { w16 with regs := { w16.regs with esp := 1 } }
    s.Ready false ∧ s.pe = false ∧ s.sp = 1 := ⟨⟨rfl, rfl⟩, rfl, rfl⟩

theorem witness_PushForms_segment : ∃ ps s2, locate .ss (w32.spMinus 4) 4 4 true { w32.begin with freeCtr := 1 } = .ok ps s2 := ⟨_, _, rfl⟩

theorem witness_PopOperand : ∃ x s1, w32.Ready false ∧ load .ss w32.sp 4 4 w32.begin = .ok x s1 ∧
    (∃ ps s2, locateMem atEbx 4 4 true (s1.withSP (w32.sp + 4)) = .ok ps s2) := ⟨_, _, ⟨rfl, rfl⟩, rfl, _, _, rfl⟩

theorem witness_PopOperand_segment : ∃ s1 s2, load .ss w16.sp 2 2 w16.begin = .ok 0x1005 s1 ∧ popSegForm .ss = some .ss ∧
    loadSeg .ss 0x1005 (s1.withSP (w16.sp + 2)) = .ok () s2 := ⟨_, _, rfl, rfl, rfl⟩

theorem witness_PushPopAll_push : ∃ pss s1, w32.Ready false ∧ w32.pe = true ∧ pushPlaces 4 4 8 0 w32.begin = .ok pss s1 := ⟨_, _, ⟨rfl, rfl⟩, rfl, rfl⟩

/-- REAL16 with the highest stack pointer from which POPA does not cross 64 Kbytes. -/
def w16High : State := { w16 with regs := { w16.regs with esp := 0xFFF0 } }

theorem witness_PushPopAll_pop : ∃ s1, ¬ (w16High.sp < 16 ∧ w16High.sp % 2 = 1) ∧ w16High.sp + 8 * 2 ≤ 2 ^ 16 ∧
    popMany 2 3 w16High.begin = .ok [0, 0, 0] s1 ∧ segCheck .ss s1.sp 2 false s1 = .ok 0x3FFF6 s1 ∧
    ∃ s3, popMany 2 4 (s1.withSP (s1.sp + 2)) = .ok [0, 0, 0, 0] s3 :=
  ⟨left (popMany 2 3) w16High.begin, by decide, by decide, answers_ok (by decide +kernel), rfl, _, answers_ok (by decide +kernel)⟩

theorem witness_PushPopAll_beyond : let s : State := { w16High with regs := { w16High.regs with esp := 0xFFF1 } };
    s.Ready false ∧ s.pe = false ∧ 2 ^ 16 < s.sp + 8 * s.osz.bytes := ⟨⟨rfl, rfl⟩, rfl, by decide⟩

theorem witness_PushPopAll_odd : ∀ sp ∈ [1, 5, 7, 15], let s : State := { w16 with regs := { w16.regs with esp := BitVec.ofNat 32 sp } };
    s.Ready false ∧ s.pe = false ∧ s.sp = sp := by
  simp only [List.forall_mem_cons]
  exact ⟨⟨⟨rfl, rfl⟩, rfl, rfl⟩, ⟨⟨rfl, rfl⟩, rfl, rfl⟩, ⟨⟨rfl, rfl⟩, rfl, rfl⟩, ⟨⟨rfl, rfl⟩, rfl, rfl⟩, fun _ h => by cases h⟩


theorem witness_PushPopFlags : ∃ ps x s1 s2, w32.Ready false ∧ locate .ss (w32.spMinus 4) 4 4 true w32.begin = .ok ps s1 ∧
    load .ss w32.sp 4 4 w32.begin = .ok x s2 := ⟨_, _, _, _, ⟨rfl, rfl⟩, rfl, rfl⟩

theorem witness_EnterAndLeave : ∃ ps lin x s1 s2 s3, w32.Ready false ∧ (32 : Byte).toNat % 32 = 0 ∧
    locate .ss (w32.spMinus 4) 4 4 true w32.begin = .ok ps s1 ∧
    segCheck .ss ((w32.spMinus 4 + 2 ^ 32 - 8) % 2 ^ 32) 1 true s1 = .ok lin s2 ∧
    load .ss (w32.regs.read .w32 regEBP) 4 4 (w32.begin.withSP (w32.regs.read .w32 regEBP)) = .ok x s3 :=
  ⟨_, _, _, _, _, _, ⟨rfl, rfl⟩, rfl, rfl, rfl, rfl⟩

theorem witness_EnterAndLeave_nested : ∃ first mid last src lin s1 s2 s3, 0 < (2 : Byte).toNat % 32 ∧
    pushPlaces 4 4 3 0 w32.begin = .ok (first :: ([mid] ++ [last])) s1 ∧
    framePlaces 4 32 1 (w32.regs.read .w32 regEBP) s1 = .ok src s2 ∧
    segCheck .ss ((w32.spMinus 12 + 2 ^ 32 - 8) % 2 ^ 32) 1 true s2 = .ok lin s3 := ⟨_, _, _, _, _, _, _, _, by decide, rfl, rfl, rfl⟩

/-- Level 1 copies no frame pointer. -/
theorem witness_EnterAndLeave_first : ∃ first last s1, 0 < (33 : Byte).toNat % 32 ∧
    pushPlaces 4 4 2 0 w32.begin = .ok (first :: ([] ++ [last])) s1 ∧ framePlaces 4 32 0 (w32.regs.read .w32 regEBP) s1 = .ok [] s1 :=
  ⟨_, _, _, by decide, rfl, rfl⟩

theorem witness_ConditionalAndCountedJumps : w16.Ready false ∧ Cond.e.holds w16.flags = false ∧ Cond.ne.holds w16.flags = true ∧
    rel8Target w16.begin 0x10 % 2 ^ 16 ≤ w16.segs.cs.hid.limit.toNat := ⟨⟨rfl, rfl⟩, rfl, rfl, by decide⟩

/-- A code limit just below the target. -/
theorem witness_ConditionalAndCountedJumps_beyond :
    let s : State := w16.withSeg .cs { w16.segs.cs with hid := { w16.segs.cs.hid with limit := 0x1011 } };
    s.segs.cs.hid.limit.toNat < rel8Target s.begin 0x10 % 2 ^ 16 ∧ Cond.ne.holds s.flags = true := by decide

/-- REAL16 with a code limit just below its instruction: every transfer goes beyond it. -/
def w16Short : State := w16.withSeg .cs { w16.segs.cs with hid := { w16.segs.cs.hid with limit := 4 } }

/-- A count of 3, and of 0. -/
theorem witness_ConditionalAndCountedJumps_count : w16Short.Ready false ∧ w16Short.segs.cs.hid.limit.toNat < rel8Target w16Short.begin 0x10 % 2 ^ 16 ∧
    w16Short.regs.read .w16 regECX = 3 ∧ ({ w16Short with regs := { w16.regs with ecx := 0 } } : State).regs.read .w16 regECX = 0 :=
  ⟨⟨rfl, rfl⟩, by decide, rfl, rfl⟩


theorem witness_NearTransfers : ∃ x ps s1 s2 s3, w32.Ready false ∧ relTarget w32.begin 0x10 % 2 ^ 32 ≤ w32.segs.cs.hid.limit.toNat ∧
    rel8Target w32.begin 0x10 % 2 ^ 32 ≤ w32.segs.cs.hid.limit.toNat ∧
    readRm .w32 (.mem atEbx) w32.begin = .ok x s1 ∧ x % 2 ^ 32 ≤ w32.segs.cs.hid.limit.toNat ∧
    locate .ss (w32.spMinus 4) 4 4 true w32.begin = .ok ps s2 ∧ locate .ss (w32.spMinus 4) 4 4 true s1 = .ok ps s3 :=
  ⟨_, _, _, _, _, ⟨rfl, rfl⟩, by decide, by decide, rfl, by decide, rfl, rfl⟩

theorem witness_NearTransfers_return : ∃ x s1, load .ss w32.sp 4 4 w32.begin = .ok x s1 ∧ x % 2 ^ 32 ≤ w32.segs.cs.hid.limit.toNat :=
  ⟨_, _, rfl, by decide⟩

theorem witness_NearTransfers_beyond : ∃ s1 s2, w16Short.Ready false ∧ w16Short.segs.cs.hid.limit.toNat < relTarget w16Short.begin 0x10 % 2 ^ 16 ∧
    w16Short.segs.cs.hid.limit.toNat < rel8Target w16Short.begin 0x10 % 2 ^ 16 ∧ readRm .w16 (.mem atBx) w16Short.begin = .ok 5 s1 ∧ 4 < 5 % 2 ^ 16 ∧
    load .ss w16Short.sp 2 2 w16Short.begin = .ok 0x1005 s2 ∧ w16Short.segs.cs.hid.limit < (5 : DWord) :=
  ⟨_, _, ⟨rfl, rfl⟩, by decide, by decide, rfl, by decide, rfl, by decide⟩


theorem witness_FarTransfers_real : ∃ off sel pss qss s1 s2 s3, w16.Ready false ∧ w16.pe = false ∧ (0xFFFF : DWord) ≤ w16.segs.cs.hid.limit ∧
    pushPlaces 2 2 2 0 { w16.begin with freeCtr := 1 } = .ok pss s2 ∧ w16.begin.ReadsFar atBx off sel s1 ∧
    off ≤ w16.segs.cs.hid.limit.toNat ∧ pushPlaces 2 2 2 0 { s1 with freeCtr := 1 } = .ok qss s3 :=
  ⟨_, _, _, _, _, _, _, ⟨rfl, rfl⟩, rfl, by decide, rfl, ⟨_, _, rfl, rfl, rfl⟩, by decide, rfl⟩

/-- The offset 5 in memory is beyond a limit of 4. -/
theorem witness_FarTransfers_real_beyond : ∃ off sel s1, w16Short.begin.ReadsFar atBx off sel s1 ∧ w16Short.segs.cs.hid.limit.toNat < off :=
  ⟨5, _, _, ⟨_, _, rfl, rfl, rfl⟩, by decide⟩

theorem witness_FarTransfers_return : ∃ o q s1, popMany 2 2 w16.begin = .ok [o, q] s1 := ⟨_, _, _, rfl⟩

theorem witness_FarTransfers_protected : ∃ cs v pss s2, w32.Ready false ∧ w32.pe = true ∧ w32.begin.FarCode 8 0x3000 w32.begin cs none v ∧
    setMark none 1 v = .ok () v ∧ pushPlaces 4 4 2 0 { v with freeCtr := 1 } = .ok pss s2 :=
  ⟨_, _, _, _, ⟨rfl, rfl⟩, rfl, ⟨_, _, _, rfl, rfl, rfl, rfl, ⟨by decide, rfl⟩, rfl, by decide, rfl, rfl⟩, rfl, rfl⟩

/-- The same segment not yet accessed, through memory. -/
def w32Mark : State := put 0x9000D [0x9A] <| put 0x3000 [0, 0x30, 0, 0, 8, 0] w32

theorem witness_FarTransfers_unaccessed :
    let s1 := left (loadMem atEbx 4 2 2) (left (loadMem atEbx 0 4 4) w32Mark.begin)
    w32Mark.begin.ReadsFar atEbx 0x3000 8 s1 ∧
      ∃ cs sp v t, w32Mark.begin.FarCode 8 0x3000 s1 cs sp v ∧ sp ≠ none ∧ setMark sp 1 v = .ok () t :=
  ⟨⟨8, _, answers_ok (by decide +kernel), answers_ok (by decide +kernel), rfl⟩, _, _, _, _,
    ⟨0x90008, ⟨0x0000FFFF, 0x00CF9A00⟩, left (readDesc 0x90008) (left (loadMem atEbx 4 2 2) (left (loadMem atEbx 0 4 4) w32Mark.begin)), rfl, rfl, answers_ok (by decide +kernel),
      rfl, ⟨by decide, rfl⟩, rfl, by decide, rfl, rfl⟩, by decide, rfl⟩

/-- Descriptors: conforming code (18H), a call gate (20H), a task gate (28H), an interrupt gate (30H). -/
def w32Far : State :=
  put 0x90018 [0xFF, 0xFF, 0, 0, 0, 0x9F, 0xCF, 0, 0, 0, 8, 0, 0, 0x8C, 0, 0, 0, 0, 8, 0, 0, 0x85, 0, 0, 0, 0, 8, 0, 0, 0x8E, 0, 0] w32

/-- Conforming code is entered from an outer level. -/
theorem witness_FarTransfers_conforming : ∃ cs v, ({ w32Far with cpl := 3 } : State).begin.FarCode 0x1B 0x3000 ({ w32Far with cpl := 3 } : State).begin cs none v ∧
    cs.sel = 0x1B := ⟨_, _, ⟨_, _, _, rfl, rfl, rfl, rfl, by decide, rfl, by decide, rfl, rfl⟩, rfl⟩

theorem witness_FarTransfers_system : ∃ g t i s1 s2 s3, isNull 0x20 = false ∧ w32Far.descAddr 0x20 = some 0x90020 ∧ readDesc 0x90020 w32Far.begin = .ok g s1 ∧
    g.s = false ∧ g.type.toNat = 12 ∧ readDesc 0x90028 w32Far.begin = .ok t s2 ∧ t.s = false ∧ t.type.toNat ∈ [1, 5, 9] ∧
    readDesc 0x90030 w32Far.begin = .ok i s3 ∧ i.s = false ∧ i.type.toNat ∉ [1, 4, 5, 9, 12] :=
  ⟨_, _, _, _, _, _, rfl, rfl, rfl, rfl, rfl, rfl, rfl, by decide, rfl, rfl, by decide⟩

theorem witness_FarTransfers_same : ∃ d h s1 s2 s3, popMany 4 2 w32.begin = .ok [0x1005, 8] s1 ∧ returnTarget 8 0x1005 s1 = .ok (0x90008, d) s2 ∧
    (8 : Word).extractLsb' 0 2 = w32.cpl ∧ accessed 0x90008 d s2 = .ok h s3 :=
  ⟨⟨0x0000FFFF, 0x00CF9B00⟩, { (flatSeg 8 11 0).hid with limit := 0xFFFFFFFF }, _, _, _, answers_ok (by decide +kernel), answers_ok (by decide +kernel), rfl,
    answers_ok (by decide +kernel)⟩

/-- A stack from which RETF returns to level 3: descriptors 18H (code) and 20H (data) of that level. -/
def w32Outer : State :=
  put 0x90018 [0xFF, 0xFF, 0, 0, 0, 0xFB, 0xCF, 0, 0xFF, 0xFF, 0, 0, 0, 0xF3, 0xCF, 0] <|
  put 0x8000 (le 4 0x1005 ++ le 4 0x1B ++ le 4 0x9000 ++ le 4 0x23) w32

/-- RETF to level 3: the far return address, then ESP and SS. -/
theorem witness_FarTransfers_outer : ∃ d s1 s2 t, popMany 4 2 w32Outer.begin = .ok [0x1005, 0x1B] s1 ∧ returnTarget 0x1B 0x1005 s1 = .ok (0x90018, d) s2 ∧
    (0x1B : Word).extractLsb' 0 2 ≠ w32Outer.cpl ∧ s2.ReturnsOuter 4 0 0x1B 0x1005 0x90018 d t :=
  ⟨⟨0x0000FFFF, 0x00CFFB00⟩, left (popMany 4 2) w32Outer.begin, left (returnTarget 0x1B 0x1005) (left (popMany 4 2) w32Outer.begin), _,
    answers_ok (by decide +kernel), answers_ok (by decide +kernel), by decide,
    0x9000, 0x23, (flatSeg 0x23 3 3).hid, none, none, _, _, _, _, _, answers_ok (by decide +kernel), answers_ok (by decide +kernel), rfl, rfl, rfl, rfl⟩

/-- Descriptor 8 is code of level 0, 10H data, 38H code that is not present, with a limit of FFFFH. -/
def w32Checks : State := put 0x90038 [0xFF, 0xFF, 0, 0, 0, 0x1B, 0x40, 0] w32

theorem witness_FarTransfers_checks : ∃ c d e s1 s2 s3, w32Checks.pe = true ∧ w32Checks.Ready false ∧ isNull 3 = true ∧ isNull 0x40 = false ∧
    w32Checks.descAddr 0x40 = none ∧ w32Checks.descAddr 8 = some 0x90008 ∧ readDesc 0x90008 w32Checks.begin = .ok c s1 ∧ c.s = true ∧
    c.hidden.isCode = true ∧ c.dpl = w32Checks.cpl ∧ c.present = true ∧ readDesc 0x90010 w32Checks.begin = .ok d s2 ∧ d.s = true ∧
    d.hidden.isCode = false ∧ readDesc 0x90038 w32Checks.begin = .ok e s3 ∧ e.hidden.isCode = true ∧ e.dpl = w32Checks.cpl ∧ e.present = false ∧
    e.limit < (0x10000 : DWord) :=
  ⟨_, _, _, _, _, _, rfl, ⟨rfl, rfl⟩, rfl, rfl, rfl, rfl, rfl, rfl, rfl, rfl, rfl, rfl, rfl, rfl, rfl, rfl, rfl, rfl, by decide⟩

/-- The same checks of a return address, on the descriptor read by `returnTarget`, and RETF to the data segment 10H. -/
theorem witness_FarTransfers_checks_return : ∃ c d s1 s2, readDesc 0x90008 w32Checks = .ok c s1 ∧ w32Checks.cpl ≤ (8 : Word).extractLsb' 0 2 ∧
    c.dpl = (8 : Word).extractLsb' 0 2 ∧ c.present = true ∧ (0x1005 : DWord) ≤ c.limit ∧ readDesc 0x90010 w32Checks = .ok d s2 ∧ d.hidden.isCode = false :=
  ⟨_, _, _, _, rfl, by decide, rfl, rfl, by decide, rfl, rfl⟩

theorem witness_FarTransfers_checks_retf :
    let s := put 0x8000 (le 4 0x1005 ++ le 4 0x10) w32
    let s1 := left (popMany 4 2) s.begin
    popMany 4 2 s.begin = .ok [0x1005, 0x10] s1 ∧
      ∃ s2, returnTarget 0x10 0x1005 s1 = .error (.exn { vector := 13, code := some 0x10, cls := .fault }) s2 :=
  ⟨answers_ok (by decide +kernel), _, rfl⟩


/-- 41_integer R374: a far pointer m16:16 at A0002H, in memory of a device: the offset, then the selector. -/
theorem test_far_pointer_order :
    (left (loadFar (.abs32 0xA0002) .s16) { flat with regions := [⟨0xA0000, 0xAFFFF, .device, false⟩] }).bus.reverse.map (fun c =>
      match c.event with
      | .memRead _ a n _ => (a, n)
      | _ => (0, 0)) = [(0xA0002, 2), (0xA0004, 2)] := by decide +kernel

/-- FLAT32 with descriptors of an LDT (18H), a TSS (20H), and both not present (28H, 30H); selectors in DX, SI. -/
def w32Sys : State :=
  put 0x90018 [0x67, 0, 0, 0, 1, 0x82, 0, 0, 0x67, 0, 0, 0, 1, 0x89, 0, 0, 0x67, 0, 0, 0, 1, 2, 0, 0, 0x67, 0, 0, 0, 1, 9, 0, 0] w32

/-- Privilege level 3. -/
def w32User : State := { w32 with cpl := 3 }

theorem witness_PrivilegeAndModeFaults : w32User.Ready false ∧ w32User.pe = true ∧ w32User.cpl ≠ 0 ∧
    Instr.hlt ∈ privileged (.reg 0) atEbx 7 0 0 3 3 ∧ Instr.mov (.toTr 3 7 0) ∈ privileged (.reg 0) atEbx 7 0 0 7 3 ∧ w16.Ready false ∧ w16.pe = false ∧ Instr.arpl 0 (.reg 1) ∈ protectedOnly 0 (.reg 1) :=
  ⟨⟨rfl, rfl⟩, rfl, by decide, by decide, by decide, ⟨rfl, rfl⟩, rfl, by decide⟩

/-- LOCK before NOP, and before ADD with a register destination. -/
theorem witness_PrivilegeAndModeFaults_lock : let s : State := { w32 with dec := { w32.dec with lock := true } };
    (s.pe && s.flags.vm) = false ∧ s.dec.lock = true ∧ (∀ i ∈ [Instr.nop, .add (.evGv 0 (.reg 1)), .wait, .undefined .opF1],
      takesLock i = false ∧ isPrefix i = false ∧ isEsc i = false) := ⟨rfl, rfl, by decide⟩


theorem witness_SystemTables_load : ∃ lim base s1 s2, w32.Ready false ∧ w32.Privileged ∧ loadMem atEbx 0 2 2 w32.begin = .ok lim s1 ∧
    loadMem atEbx 2 4 4 s1 = .ok base s2 := ⟨_, _, _, _, ⟨rfl, rfl⟩, rfl, rfl, rfl⟩

theorem witness_SystemTables_store : ∃ ps s2, w32.am = false ∧ locateMem atEbx 6 1 true { w32.begin with freeCtr := 1 } = .ok ps s2 := ⟨_, _, rfl, rfl⟩

theorem witness_SystemTables_word : ∃ ps s1, w32.Ready false ∧ (Instr.smsw (.mem atEbx), w32.cr0.setWidth 16) ∈ systemWord w32 (.mem atEbx) ∧
    locateMem atEbx 2 2 true w32.begin = .ok ps s1 := ⟨_, _, ⟨rfl, rfl⟩, by decide, rfl⟩

theorem witness_SystemTables_select : ∃ s1, w32Sys.Ready false ∧ w32Sys.pe = true ∧ w32Sys.cpl = 0 ∧ readRm .w16 (.reg 2) w32Sys.begin = .ok 0 s1 ∧
    isNull 0 = true ∧ selTI 0x1C = true ∧ isNull 0x1C = false := ⟨_, ⟨rfl, rfl⟩, rfl, rfl, rfl, rfl, rfl, rfl⟩

theorem witness_SystemTables_beyond : selTI 0x40 = false ∧ w32Sys.descAddr 0x40 = none ∧ isNull 0x40 = false ∧ w32Sys.descAddr 0x38 = some 0x90038 :=
  ⟨rfl, rfl, rfl, rfl⟩

theorem witness_SystemTables_ldt : ∃ d e s1 s2, selTI 0x18 = false ∧ w32Sys.descAddr 0x18 = some 0x90018 ∧ readDesc 0x90018 w32Sys.begin = .ok d s1 ∧
    d.s = false ∧ d.type = 2 ∧ d.present = true ∧ readDesc 0x90028 w32Sys.begin = .ok e s2 ∧ e.s = false ∧ e.type = 2 ∧ e.present = false :=
  ⟨_, _, _, _, rfl, rfl, rfl, rfl, rfl, rfl, rfl, rfl, rfl, rfl⟩

theorem witness_SystemTables_task : ∃ d e s1 s2 s3, readDesc 0x90020 w32Sys.begin = .ok d s1 ∧ d.s = false ∧ d.type = 9 ∧ d.present = true ∧
    (∃ sp s4, descSpot 0x90020 s1 = .ok sp s4 ∧ setMark sp 2 s4 = .ok () s2) ∧
    readDesc 0x90030 w32Sys.begin = .ok e s3 ∧ e.type = 9 ∧ e.present = false :=
  ⟨_, _, _, _, _, rfl, rfl, rfl, rfl, ⟨_, _, rfl, rfl⟩, rfl, rfl, rfl⟩

/-- A data segment is neither an LDT nor a TSS. -/
theorem witness_SystemTables_wrong : ∃ d s1, readDesc 0x90010 w32Sys.begin = .ok d s1 ∧ d.s = true := ⟨_, _, rfl, rfl⟩

theorem witness_InspectSelectors_none : ∃ s1 s2, w32.Ready false ∧ w32.pe = true ∧ isNull (BitVec.ofNat 16 3) = true ∧
    w32.descAddr (BitVec.ofNat 16 0x40) = none ∧ readRm .w32 (.reg 1) w32.begin = .ok 3 s1 ∧ readRm .w16 (.reg 1) w32.begin = .ok 3 s2 :=
  ⟨_, _, ⟨rfl, rfl⟩, rfl, rfl, rfl, rfl, rfl⟩

/-- DX = 10H (data), 8 (code), 18H (LDT), of level 0, inspected at level 0 and at level 3. -/
def w32At (sel : DWord) (cpl : BitVec 2) : State := { w32Sys with cpl := cpl, regs := { w32Sys.regs with edx := sel } }

theorem witness_InspectSelectors_data : ∃ d s1 s2, readRm .w32 (.reg 2) (w32At 0x10 0).begin = .ok 0x10 s1 ∧
    (w32At 0x10 0).descAddr (BitVec.ofNat 16 0x10) = some 0x90010 ∧ readDesc 0x90010 s1 = .ok d s2 ∧ d.s = true ∧
    ((w32At 0x10 0).cpl ≤ d.dpl ∧ (BitVec.ofNat 16 0x10).extractLsb' 0 2 ≤ d.dpl) ∧ d.hidden.readable = true ∧ d.hidden.writable = true :=
  ⟨_, _, _, rfl, rfl, rfl, rfl, ⟨by decide, by decide⟩, rfl, rfl⟩

theorem witness_InspectSelectors_word : ∃ d s1 s2, readRm .w16 (.reg 2) (w32At 8 0).begin = .ok 8 s1 ∧ readDesc 0x90008 s1 = .ok d s2 ∧
    d.hidden.readable = true ∧ d.hidden.writable = false := ⟨_, _, _, rfl, rfl, rfl, rfl⟩

theorem witness_InspectSelectors_system : ∃ d s1 s2, readRm .w16 (.reg 2) (w32At 0x18 0).begin = .ok 0x18 s1 ∧ readDesc 0x90018 s1 = .ok d s2 ∧
    d.s = false ∧ d.type.toNat ∈ [1, 2, 3, 4, 5, 9, 11, 12] ∧ d.hidden.readable = false := ⟨_, _, _, rfl, rfl, rfl, by decide, rfl⟩

theorem witness_InspectSelectors_unreachable : ∃ d s1 s2, readRm .w32 (.reg 2) (w32At 0x10 3).begin = .ok 0x10 s1 ∧ readDesc 0x90010 s1 = .ok d s2 ∧
    readRm .w16 (.reg 2) (w32At 0x10 3).begin = .ok 0x10 s1 ∧ d.hidden.readable = true ∧ d.hidden.writable = true ∧
    ¬ (d.hidden.conforming = true ∨ ((w32At 0x10 3).cpl ≤ d.dpl ∧ (BitVec.ofNat 16 0x10).extractLsb' 0 2 ≤ d.dpl)) :=
  ⟨_, _, _, rfl, rfl, rfl, rfl, rfl, by decide⟩

theorem witness_InspectSelectors_adjust : ∃ ps x y s1 s2 s3, w32.Ready false ∧ w32.pe = true ∧ w32.regs.read .w16 1 % 4 = 3 ∧ w32.regs.read .w16 0 % 4 = 3 ∧
    loadMem atEbx 0 2 2 w32.begin = .ok x s1 ∧ x % 4 < 3 ∧ locateMem atEbx 2 2 true s1 = .ok ps s2 ∧ readBytes false ps s2 = .ok y s3 :=
  ⟨_, _, _, _, _, _, ⟨rfl, rfl⟩, rfl, rfl, rfl, rfl, by decide, rfl, rfl⟩

theorem witness_SpecialRegisterMoves : let s : State := { w32 with regs := { w32.regs with eax := 0x80000000, ecx := 0x60000001 } };
    s.Ready false ∧ s.Privileged ∧ ((s.regs.get 0).getLsbD 31 = true ∧ (s.regs.get 0).getLsbD 0 = false) ∧
    ((s.regs.get 1).getLsbD 31 = true → (s.regs.get 1).getLsbD 0 = true) ∧ ((s.regs.get 1).getLsbD 29 = true → (s.regs.get 1).getLsbD 30 = true) ∧
    s.dbg.dr7.getLsbD 13 = false ∧ s.cr0 &&& 0x80010001 = s.regs.get 1 &&& 0x80010001 :=
  ⟨⟨rfl, rfl⟩, rfl, ⟨rfl, rfl⟩, by decide, by decide, rfl, rfl⟩

theorem witness_SpecialRegisterMoves_detect : let s : State := { w32 with dbg := { w32.dbg with dr7 := 0x2000 } };
    s.Ready false ∧ s.Privileged ∧ s.dbg.dr7.getLsbD 13 = true := ⟨⟨rfl, rfl⟩, rfl, rfl⟩

theorem witness_InterruptFlagAndMachineControl : ∃ x s1, w32.Ready false ∧ w32.Privileged ∧ w32.IoPrivileged ∧ readRm .w16 (.reg 0) w32.begin = .ok x s1 ∧
    w32User.Ready false ∧ w32User.pe = true ∧ w32User.flags.iopl < w32User.cpl := ⟨_, _, ⟨rfl, rfl⟩, rfl, rfl, rfl, ⟨rfl, rfl⟩, rfl, by decide⟩

theorem witness_InputOutput : ∃ s1 s2, w32.Ready false ∧ ioCheck 7 1 w32.begin = .ok () s1 ∧ 7 % 4 + 1 ≤ 4 ∧ ioCheck 0x64 4 w32.begin = .ok () s2 ∧
    0x64 % 4 + 4 ≤ 4 ∧ w32.IoPrivileged := ⟨_, _, ⟨rfl, rfl⟩, rfl, by decide, rfl, by decide, rfl⟩

/-- A dword at port 3, at FFFDH, the last that passes FFFFH, and a word at FFFBH, the last that crosses a dword boundary within. -/
theorem witness_InputOutput_split : ∃ s1 s2 s3, ioCheck 3 4 w32.begin = .ok () s1 ∧ 4 - 3 % 4 < 4 ∧ ioCheck 0xFFFD 4 w32.begin = .ok () s2 ∧
    2 ^ 16 < 0xFFFD + 4 ∧ ioCheck 0xFFFB 2 w32.begin = .ok () s3 ∧ 0xFFFB + 2 ≤ 2 ^ 16 ∧ 4 - 0xFFFB % 4 < 2 ∧
    bytesValue [0x78, 0x56, 0x34, 0x12] = 0x12345678 := ⟨_, _, _, rfl, by decide, rfl, by decide, rfl, by decide, by decide, rfl⟩


theorem witness_InputOutput_denied : (user 3 []).pe = true ∧ (user 3 []).flags.iopl < (user 3 []).cpl ∧ (user 3 []).tr.hid.type ≠ 9 ∧ (user 3 []).tr.hid.type ≠ 11 :=
  ⟨rfl, by decide, by decide, by decide⟩

/-- A null TR; a port whose dword ends beyond FFFFH, and the last that does not; a TSS that ends just before its map pointer. -/
theorem witness_InputOutput_denied_others : isNull ({ user 11 [] with tr := ⟨3, (user 11 []).tr.hid⟩ } : State).tr.sel = true ∧
    2 ^ 16 < 0xFFFD + 4 ∧ ¬ 2 ^ 16 < 0xFFFC + 4 ∧
    ({ user 11 [] with tr := ⟨0x28, { (user 11 []).tr.hid with limit := 0x66 }⟩ } : State).tr.hid.limit.toNat < 0x67 := ⟨rfl, by decide, by decide, by decide⟩

theorem witness_InputOutput_map : ∃ ptr bits s1 s2, isNull (user 11 [0, 1]).tr.sel = false ∧ (user 11 [0, 1]).tr.hid.type = 11 ∧ 0x3FD + 4 ≤ 2 ^ 16 ∧
    0x67 ≤ (user 11 [0, 1]).tr.hid.limit.toNat ∧ linRead (0x10000 + 0x66) 2 (user 11 [0, 1]) = .ok ptr s1 ∧ 0x3FD / 8 + ptr + 1 ≤ (user 11 [0, 1]).tr.hid.limit.toNat ∧
    linRead (0x10000 + (0x3FD / 8 + ptr)) 2 s1 = .ok bits s2 ∧ bits.testBit (0x3FD % 8 + 3) = true ∧ bits.testBit (0x3FD % 8) = false :=
  ⟨_, _, _, _, rfl, rfl, by decide, by decide, rfl, by decide, rfl, rfl, rfl⟩

/-- The map ends where the TSS does: the byte of port FFF8H would lie beyond a limit of 2087H. -/
theorem witness_InputOutput_beyond : (0x2087 : Nat) < 0xFFF8 / 8 + 0x88 + 1 ∧ 0xFFF0 / 8 + 0x88 + 1 ≤ 0x2087 := by decide

theorem witness_StringInstructions : ∃ t ps, w32.Ready false ∧ w32.dec.rep = none ∧ StringOp.movs.Once .w32 w32.begin t ps :=
  ⟨_, _, ⟨rfl, rfl⟩, rfl, _, _, _, rfl, rfl, rfl⟩

theorem witness_StringInstructions_scan : ∃ t ps, StringOp.cmps.Once .w8 w32.begin t ps := ⟨_, _, _, _, _, _, rfl, rfl, rfl, rfl⟩

theorem witness_StringInstructions_store : ∃ t ps, StringOp.stos.Once .w16 w32.begin t ps ∧ ∃ t ps, StringOp.lods.Once .w16 w32.begin t ps ∧
    ∃ t ps, StringOp.scas.Once .w16 w32.begin t ps := ⟨_, _, ⟨_, rfl, rfl⟩, _, _, ⟨_, _, rfl, rfl, rfl⟩, _, _, _, _, rfl, rfl, rfl⟩

theorem witness_StringInstructions_port : ∃ t ps, StringOp.ins.Once .w8 w32.begin t ps ∧ ∃ t ps, StringOp.outs.Once .w8 w32.begin t ps :=
  ⟨_, _, ⟨_, _, _, _, rfl, rfl, rfl, rfl⟩, _, _, _, _, _, _, rfl, rfl, rfl, rfl, rfl⟩

/-- Repeated: with a count of 3, of 1 and of 0. -/
def w32Rep (n : DWord) : State := { w32 with dec := { w32.dec with rep := some .rep }, regs := { w32.regs with ecx := n } }

theorem witness_StringInstructions_repeat : (∃ t ps, (w32Rep 3).Ready false ∧ (w32Rep 3).dec.rep = some .rep ∧ (w32Rep 3).regs.read .w32 regECX = 3 ∧
    StringOp.cmps.Once .w32 (w32Rep 3).begin t ps) ∧ (w32Rep 1).regs.read .w32 regECX = 1 ∧ (w32Rep 0).regs.read .w32 regECX = 0 :=
  ⟨⟨_, _, ⟨rfl, rfl⟩, rfl, rfl, _, _, _, _, rfl, rfl, rfl, rfl⟩, rfl, rfl⟩

/-- FLAT32 about to execute, with control word `cw` and the numbers pushed in turn. -/
def wFpu (cw : Word) (xs : List Ext) : State := { w32 with fpu := (fpu cw xs).fpu }

/-- One, three, the smallest denormal, 2^63, a signalling NaN. -/
def one : Ext := 0x3FFF8000000000000000#80
def three : Ext := 0x4000C000000000000000#80
def tiny : Ext := 0x00000000000000000001#80
def large : Ext := 0x403E8000000000000000#80
def snan : Ext := 0x7FFF8000000000000001#80

theorem w32_escReady : w32.EscReady := ⟨rfl, rfl, rfl, rfl⟩
theorem ready_wFpu (cw : Word) (xs : List Ext) : (wFpu cw xs).EscReady := w32_escReady

theorem witness_FpuLoads : ∃ v2 v4 v8 s1 s2 s3 s4, (wFpu 0x037F [one]).EscReady ∧ (wFpu 0x037F [one]).NoFpuError ∧ (wFpu 0x037F [one]).fpu.isEmpty 7 = true ∧
    loadMem atEbx 0 2 2 (wFpu 0x037F [one]).begin = .ok v2 s1 ∧ loadMem atEbx 0 4 4 (wFpu 0x037F [one]).begin = .ok v4 s2 ∧
    loadMem atEbx 0 8 8 (wFpu 0x037F [one]).begin = .ok v8 s3 ∧ loadMem atEbx 0 10 8 (wFpu 0x037F [one]).begin = .ok 0x900000005 s4 ∧
    bcdValue 18 0x900000005 = some 900000005 ∧ bcdValue 18 0xA = none :=
  ⟨_, _, _, _, _, _, _, ready_wFpu _ _, .inl rfl, rfl, rfl, rfl, rfl, rfl, rfl, rfl⟩

/-- Every load from memory on a full stack. -/
theorem witness_FpuLoads_full : (wFpu 0x037F (List.replicate 8 one)).fpu.isEmpty 7 = false ∧ (wFpu 0x037F (List.replicate 8 one)).NoFpuError ∧
    (Instr.fbld atEbx, 10, 8) ∈ loadRows atEbx ∧ ∃ v s1, loadMem atEbx 0 10 8 (wFpu 0x037F (List.replicate 8 one)).begin = .ok v s1 :=
  ⟨rfl, .inl rfl, List.mem_of_elem_eq_true rfl, _, _, rfl⟩

theorem witness_FpuLoads_push : (wFpu 0x037F []).fpu.isEmpty 7 = true ∧ (wFpu 0x037F (List.replicate 8 one)).fpu.isEmpty 7 = false ∧
    (wFpu 0x037F [one]).fpu.isEmpty 0 = false ∧ (wFpu 0x037F [one]).fpu.isEmpty 1 = true ∧ (Instr.fldz, 0, 0, 0) ∈ constantLoads :=
  ⟨rfl, rfl, rfl, rfl, by decide⟩

theorem witness_FpuStores : ∃ ps s1, (wFpu 0x037F [three]).EscReady ∧ (wFpu 0x037F [three]).NoFpuError ∧ (wFpu 0x037F [three]).fpu.isEmpty 0 = false ∧
    (⟨.fstp (.m80 atEbx), 10, 8, ⟨three.toNat, 0, false⟩, 0xFFFFC000000000000000, true⟩ : StoreRow) ∈ storeRows atEbx (wFpu 0x037F [three]).fpu three ∧
    locateMem atEbx 10 8 true (wFpu 0x037F [three]).begin.drawn = .ok ps s1 :=
  ⟨_, _, ready_wFpu _ _, .inl rfl, rfl, by simp [storeRows], rfl⟩

/-- With I unmasked, 2^63 does not fit in 32 bits. -/
theorem witness_FpuStores_unmasked : (toInteger 32 (wFpu 0x037E [large]).fpu large).exc &&& 31 &&& ~~~(wFpu 0x037E [large]).fpu.masks ≠ 0 := by decide

/-- The empty stack, I masked or not. -/
theorem witness_FpuStores_empty : ∃ ps s1, (wFpu 0x037F []).EscReady ∧ (wFpu 0x037F []).NoFpuError ∧ (wFpu 0x037F []).fpu.isEmpty 0 = true ∧
    (wFpu 0x037F []).fpu.masks.getLsbD 0 = true ∧ (wFpu 0x037E []).fpu.masks.getLsbD 0 = false ∧
    locateMem atEbx 10 8 true (wFpu 0x037F []).begin.drawn = .ok ps s1 := ⟨_, _, ready_wFpu _ _, .inl rfl, rfl, rfl, rfl, rfl⟩


theorem witness_FpuStackOperations : (wFpu 0x037F [one, three]).EscReady ∧ (wFpu 0x037F [one, three]).NoFpuError ∧
    (wFpu 0x037F [one, three]).fpu.isEmpty 0 = false ∧ (wFpu 0x037F [one, three]).fpu.isEmpty 1 = false := ⟨ready_wFpu _ _, .inl rfl, rfl, rfl⟩

theorem witness_FpuStackOperations_empty : (wFpu 0x037F [one]).EscReady ∧ (wFpu 0x037F [one]).NoFpuError ∧ (wFpu 0x037F [one]).fpu.isEmpty 1 = true ∧
    (wFpu 0x037F []).fpu.isEmpty 0 = true := ⟨ready_wFpu _ _, .inl rfl, rfl, rfl⟩


theorem witness_FpuBasicArithmetic : ∃ v s1, (⟨opAdd, .fadd, .fiadd, .faddp⟩ : BasicRow) ∈ basicRows ∧ (wFpu 0x037F [one, three]).EscReady ∧
    (wFpu 0x037F [one, three]).NoFpuError ∧ loadMem atEbx 0 4 4 (wFpu 0x037F [one, three]).begin = .ok v s1 ∧
    (wFpu 0x037F [one, three]).fpu.isEmpty 0 = false ∧ (wFpu 0x037F [one, three]).fpu.isEmpty 1 = false ∧ (wFpu 0x037F []).fpu.isEmpty 0 = true ∧
    (wFpu 0x037F [one]).fpu.isEmpty 1 = true := ⟨_, _, List.mem_cons_self .., ready_wFpu _ _, .inl rfl, rfl, rfl, rfl, rfl, rfl⟩

/-- The operands of every clause: a NaN, an unsupported one, infinities alike and opposed, infinity by zero, zero by zero, three by zero. -/
theorem witness_FpuBasicArithmetic_special : ordinary one snan = false ∧ ordinary (0x7FFF0000000000000001 : Ext) one = false ∧
    ordinary (extInf true) (extInf false) = true ∧ extClass (extInf false) = .infinity ∧ extNeg (extInf true) ≠ extNeg (extInf false) ∧
    ordinary (extInf true) 0 = true ∧ extClass 0 = .zero ∧ finiteExt 0 = true ∧ finiteExt three = true ∧ extClass three ≠ .zero := by decide

theorem witness_FpuOtherArithmetic : (wFpu 0x037F [one, three]).NoFpuError ∧ (wFpu 0x037F [one, three]).fpu.isEmpty 1 = false ∧
    (wFpu 0x037F [one, three]).fpu.isEmpty 7 = true ∧ finiteExt three = true ∧ finiteExt one = true ∧ isZero three = false ∧ isZero one = false ∧
    ((regOperand three).den && !(wFpu 0x037F [one, three]).fpu.masks.getLsbD 1) = false ∧
    (wFpu 0x037F [one, three]).fpu.denormalStops (regOperand three) (regOperand one) = false ∧ (wFpu 0x037F [one, three]).fpu.masks.getLsbD 4 = true ∧
    leading (extFinite three).sig (extFinite three).exp - leading (extFinite one).sig (extFinite one).exp < 64 :=
  ⟨.inl rfl, rfl, rfl, rfl, rfl, rfl, rfl, rfl, rfl, rfl, by decide⟩

/-- 47_fpu R742: 3 / 2 lies between 1 and 2; the even quotient 2 is taken, and the remainder is -1. -/
theorem test_fprem1_tie : after [0xD9, 0xF5] (fpu 0x037F [0x40008000000000000000, three]) (fun t =>
    t.fpu.reg 0 == 0xBFFF8000000000000000 && (t.fpu.st.c2, t.fpu.st.c0, t.fpu.st.c3, t.fpu.st.c1) == (false, false, true, false)) = true := by decide +kernel

/-- Exponents 64 apart. -/
theorem witness_FpuOtherArithmetic_partial : 64 ≤ leading (extFinite 0x403F8000000000000000).sig (extFinite 0x403F8000000000000000).exp -
    leading (extFinite one).sig (extFinite one).exp := by decide

/-- Infinities, a signalling NaN, a zero, an empty register and a full stack. -/
theorem witness_FpuOtherArithmetic_special : (wFpu 0x037F []).fpu.isEmpty 0 = true ∧ (wFpu 0x037F [one]).fpu.isEmpty 1 = true ∧
    (wFpu 0x037F (List.replicate 8 one)).fpu.isEmpty 0 = false ∧ (wFpu 0x037F (List.replicate 8 one)).fpu.isEmpty 7 = false ∧
    (wFpu 0x037F [extInf true, 0]).fpu.reg 0 = 0 ∧ (wFpu 0x037F [extInf true, 0]).fpu.reg 1 = extInf true ∧ ordinary snan snan = false ∧ ordinary one snan = false ∧
    ordinary 0 (extInf true) = true ∧ extClass (extInf true) = .infinity ∧ extNeg (extInf true) = true ∧ extClass 0 = .zero ∧ extClass one ≠ .zero := by
  decide +kernel

/-- ST(1) just below and just at 2^17. -/
theorem witness_FpuOtherArithmetic_mean : finiteExt three = true ∧ (extFinite three).sig ≠ 0 ∧ finiteExt 0x400FFFFFFFFFFFFFFFFF#80 = true ∧
    finiteExt 0x40108000000000000000#80 = true := by decide


theorem witness_FpuComparisons : ∃ v s1, (Instr.fucom 1, (1 : RegNum), true, 0) ∈ compareRows 1 ∧ (wFpu 0x037F [one, three]).fpu.isEmpty 1 = false ∧
    (wFpu 0x037F [one]).fpu.isEmpty 1 = true ∧ (Instr.ficomp (.m16 atEbx), 2, ofInteger 16 v, 1) ∈ compareMemRows atEbx v ∧
    loadMem atEbx 0 2 2 (wFpu 0x037F [one, three]).begin = .ok v s1 ∧ (wFpu 0x037F [one, three]).fpu.isEmpty 0 = false ∧ finiteExt tiny = true ∧
    (wFpu 0x037F []).fpu.isEmpty 0 = true := ⟨_, _, by decide, rfl, rfl, List.mem_of_elem_eq_true rfl, rfl, rfl, rfl, rfl⟩

/-- Infinities with a number and with each other; a signalling and a quiet NaN, and an unsupported operand. -/
theorem witness_FpuComparisons_special : ordinary (extInf true) three = true ∧ ordinary (extInf true) (extInf false) = true ∧
    extClass (extInf true) = .infinity ∧ extClass snan = .snan ∧ extClass indefinite = .qnan ∧ (extClass 0x7FFF0000000000000001#80).unsupported = true := by decide

theorem witness_FpuTranscendentals : (wFpu 0x037F [one, three]).NoFpuError ∧ (wFpu 0x037F [one, three]).fpu.isEmpty 0 = false ∧ finiteExt three = true ∧
    ((extClass three).isDenormal && !(wFpu 0x037F [one, three]).fpu.masks.getLsbD 1) = false ∧ (wFpu 0x037F [one, three]).fpu.isEmpty 7 = true ∧
    tooLarge large = true ∧ tooLarge 0x403DFFFFFFFFFFFFFFFF#80 = false ∧ (wFpu 0x037F [one, three]).fpu.masks &&& 7 = 7 ∧
    (wFpu 0x037F [one, three]).fpu.isEmpty 1 = false ∧ finiteExt one = true := ⟨.inl rfl, rfl, rfl, rfl, rfl, rfl, rfl, rfl, rfl, rfl⟩

/-- An argument or operand of each class: zero, one, infinities, a NaN, a power of two, numbers in range and out of it. -/
theorem witness_FpuTranscendentals_special : (wFpu 0x037F []).fpu.isEmpty 0 = true ∧ (wFpu 0x037F (List.replicate 8 one)).fpu.isEmpty 7 = false ∧
    ordinary snan snan = false ∧ ordinary one three = true ∧ extClass (extInf false) = .infinity ∧ finiteExt one = true ∧ extClass 0 = .zero ∧
    (wFpu 0x037F [three, extInf true]).fpu.reg 0 = extInf true ∧ extNeg (extInf true) = true ∧ (wFpu 0x037F [one, one]).fpu.rc = 0 := by decide +kernel

/-- The values that the clauses compare: |3| < 2^63, 1/2 < 1, 3 is no power of two, 1/4 lies in the range of FYL2XP1, -2 below -1. -/
theorem witness_FpuTranscendentals_values : extValue three = 3 ∧ extValue 0x3FFE8000000000000000#80 = 1 / 2 ∧ extValue 0x3FFD8000000000000000#80 = 1 / 4 ∧
    1 ≤ 2 * (1 - (1 / 4 : ℚ)) ^ 2 ∧ extValue 0xC0008000000000000000#80 = -2 := by
  have h : extFinite three = ⟨false, 3 * 2 ^ 62, -62⟩ ∧ extFinite 0x3FFE8000000000000000#80 = ⟨false, 2 ^ 63, -64⟩ ∧
      extFinite 0x3FFD8000000000000000#80 = ⟨false, 2 ^ 63, -65⟩ ∧ extFinite 0xC0008000000000000000#80 = ⟨true, 2 ^ 63, -62⟩ := by decide
  obtain ⟨h1, h2, h3, h4⟩ := h
  refine ⟨?_, ?_, ?_, by norm_num, ?_⟩ <;> simp only [extValue, h1, h2, h3, h4, Finite.value] <;> norm_num

theorem witness_FpuTranscendentals_bound : let v := transcApprox .sin (extFinite one) (extFinite one);
    v.sig ≠ 0 ∧ -16381 ≤ leading v.sig v.exp ∧ leading v.sig v.exp ≤ 16382 := by decide +kernel


theorem witness_FpuControl : ∃ ps v s1 s2, (wFpu 0x037F []).EscReady ∧ (wFpu 0x037F []).NoFpuError ∧
    locateMem atEbx 2 2 true (wFpu 0x037F []).begin = .ok ps s1 ∧ loadMem atEbx 0 2 2 (wFpu 0x037F []).begin = .ok v s2 :=
  ⟨_, _, _, _, ready_wFpu _ _, .inl rfl, rfl, rfl⟩

/-- WAIT with EM = 1, and with TS = 1 and MP = 0. -/
theorem witness_FpuControl_wait : (let s : State := { w32 with cr0 := 0x60000025 }; s.Ready false ∧ s.em = true ∧ s.ts = false ∧ s.NoFpuError) ∧
    (let s : State := { w32 with cr0 := 0x60000029 }; s.Ready false ∧ s.mp = false ∧ s.ts = true ∧ s.NoFpuError) :=
  ⟨⟨⟨rfl, rfl⟩, rfl, rfl, .inl rfl⟩, ⟨rfl, rfl⟩, rfl, rfl, .inl rfl⟩


theorem witness_FpuEnvironment : ∃ ps s1, locateMem atEbx 28 4 true (wFpu 0x037F []).begin.drawn = .ok ps s1 := ⟨_, _, rfl⟩

theorem witness_FpuEnvironment_load : ∃ v s1, (wFpu 0x037F []).NoFpuError ∧ loadMem atEbx 0 28 4 (wFpu 0x037F []).begin = .ok v s1 := ⟨_, _, .inl rfl, rfl⟩

/-- The state image, with 16-bit items. -/
def w16Fpu : State := { w16 with fpu := (fpu 0x037F []).fpu }

theorem witness_FpuEnvironment_state : ∃ ps s1, w16Fpu.EscReady ∧ locateMem atBx 94 2 true w16Fpu.begin.drawn = .ok ps s1 := ⟨_, _, ⟨rfl, rfl, rfl, rfl⟩, rfl⟩

theorem witness_FpuEnvironment_restore : ∃ v s1, loadMem atBx 0 94 2 w16Fpu.begin = .ok v s1 :=
  ⟨0x90005, _, answers_ok (by decide +kernel)⟩

/-- A pending unmasked error. -/
def wError (ne : Bool) : State :=
  { wFpu 0x037B [] with cr0 := if ne then 0x60000021 else 0x60000001, fpu := { (fpu 0x037B []).fpu with st := { FpuStatus.clear with ze := true } } }

theorem witness_FpuFaults : isEsc .fld1 = true ∧ noWait .fld1 = false ∧ (wError true).EscReady ∧ (wError true).fpu.es = true ∧ (wError true).ne = true ∧
    (wError false).EscReady ∧ (wError false).fpu.es = true ∧ (wError false).ne = false ∧ (wError false).pins.ignne = false ∧ (wError true).dec.lock = false ∧
    (wError true).mp = false := ⟨rfl, rfl, ⟨rfl, rfl, rfl, rfl⟩, rfl, rfl, ⟨rfl, rfl, rfl, rfl⟩, rfl, rfl, rfl, rfl, rfl⟩

theorem witness_FpuFaults_unavailable : let s : State := { w32 with cr0 := 0x6000002B };
    s.ts = true ∧ s.mp = true ∧ s.dec.lock = false ∧ ({ w32 with dec := { w32.dec with lock := true } } : State).dec.lock = true := ⟨rfl, rfl, rfl, rfl⟩

theorem witness_FpuRoundingAndRange : (extFinite one).sig ≠ 0 ∧ leading (roundAt 0 (extFinite one) (unitFor 64 (extFinite one))).q (unitFor 64 (extFinite one)) = 0 ∧
    leading (roundAt 0 ⟨false, 1, 16384⟩ (unitFor 64 ⟨false, 1, 16384⟩)).q (unitFor 64 ⟨false, 1, 16384⟩) = 16384 ∧
    leading (roundAt 0 ⟨false, 1, -16383⟩ (unitFor 64 ⟨false, 1, -16383⟩)).q (unitFor 64 ⟨false, 1, -16383⟩) = -16383 := by decide

/-- With O and U unmasked: the exponents 16384 and 40959, the last that is brought back into range, and 40960; the same below. -/
theorem witness_FpuRoundingAndRange_unmasked : (fpu 0x0367 []).fpu.masks.getLsbD 3 = false ∧ (fpu 0x036F []).fpu.masks.getLsbD 4 = false ∧
    (∀ e ∈ [(16384 : Int), 40959, 40960, -16383, -40958, -40959],
      leading (roundAt 0 ⟨false, 1, e⟩ (unitFor 64 ⟨false, 1, e⟩)).q (unitFor 64 ⟨false, 1, e⟩) = e) := by decide

theorem witness_FpuExactOperations : finiteExt one = true ∧ finiteExt three = true ∧ 0 < (extFinite one).sig ∧ (extFinite one).sig < 2 ^ 64 := by decide

theorem witness_FpuMemoryFormats : (-(2 ^ 63) : Int).natAbs < 2 ^ 64 ∧ bcdValue 18 0x80000000000000000087 = some 87 ∧ (single = single ∨ single = double) ∧
    0x3F800000 / 2 ^ 23 % 2 ^ 8 = 127 ∧ 1 / 2 ^ 23 % 2 ^ 8 = 0 ∧ 0x7F800000 / 2 ^ 23 % 2 ^ 8 = 2 ^ 8 - 1 ∧
    (roundAt 0 (extFinite 0x400DFFFF000000000000#80) 0).q = 2 ^ 15 := ⟨by decide, rfl, .inl rfl, rfl, rfl, rfl, rfl⟩

/-- One in range of single real, 2^128 beyond it, 2^-127 below it; an integer of 18 digits and one of 19. -/
theorem witness_FpuMemoryFormats_stored : finiteExt one = true ∧ leading (roundAt 0 (extFinite one) (unitFor 24 (extFinite one))).q (unitFor 24 (extFinite one)) = 0 ∧
    (let y := extFinite 0x407F8000000000000000#80; leading (roundAt 0 y (unitFor 24 y)).q (unitFor 24 y) = 128) ∧
    (let y := extFinite 0x3F808000000000000000#80; leading (roundAt 0 y (unitFor 24 y)).q (unitFor 24 y) = -127) ∧
    (single.bias : Int) = 127 ∧ extClass snan = .snan ∧ finiteExt snan = false ∧ (extClass 0x7FFF0000000000000001#80).unsupported = true ∧
    (roundAt 0 (extFinite 0x403ADE0B6B3A763FFFE0#80) 0).q = 10 ^ 18 - 2 ∧ (roundAt 0 (extFinite 0x403ADE0B6B3A76400000#80) 0).q = 10 ^ 18 := by
  decide +kernel


/-- O unmasked, and U. -/
theorem witness_FpuMemoryFormats_unmasked : (fpu 0x0377 []).fpu.masks.getLsbD 3 = false ∧ (fpu 0x036F []).fpu.masks.getLsbD 4 = false := by decide


/-! #### Memory, exceptions, the machine -/

theorem witness_PlainMemoryAccess : let s : State := { w16 with regions := [] };
    s.Plain ∧ s.pe = false ∧ 0xFFFE + 2 ≤ (s.segs.get .ds).hid.limit.toNat + 1 ∧ ¬ 0xFFFF + 2 ≤ (s.segs.get .ds).hid.limit.toNat + 1 :=
  ⟨⟨rfl, rfl, rfl, rfl, rfl, by decide +kernel⟩, rfl, by decide, by decide⟩

/-- V11's tables: no entry of the TLB for the page; then an access, a write to a page for reading, at level 3 to one of the
supervisor, and to one not present. -/
theorem witness_PlainMemoryAccess_walk : ∀ pte ∈ [0x200007, 0x200005, 0x200003, 0x200006],
    let s := paged pte 3 true;
    s.pg = true ∧ s.Uncached ∧ s.tlb.find (0x403025 / 4096) = none ∧ (s.entryAt (s.directoryEntry 0x403025)).testBit 0 = true ∧
    s.entryAt (s.pageEntry 0x403025) = pte ∧ 0x403025 % 4096 + 4 ≤ 4096 := by
  unfold State.Uncached; decide +kernel

/-- The TLB after a read: the entry serves the next read, not yet a write. -/
theorem witness_PlainMemoryAccess_tlb : ∃ e, let s := left (translate 0x403025 false true) (paged 0x200007 3 true);
    s.pg = true ∧ s.tlb.find (0x403FFF / 4096) = some e ∧ s.agrees e = true ∧ e.dirty = false ∧ e.user = true ∧ e.writable = true :=
  ⟨{ set := 3, way := 0, page := 0x403, frame := 0x200, user := true, writable := true, dirty := false, pcd := false, pwt := false }, by decide +kernel⟩

/-- Caching on: a line of the block at 3000H after a read of it; the last byte of the block and of a dword. -/
def cached : State := left (physRead false ⟨false, false⟩ 0x3000 4) { w32 with cr0 := 0x21 }

theorem witness_PlainMemoryAccess_cache : cached.regions = [] ∧ Memory.wf cached.mem = true ∧ 0x300F % 4 + 1 ≤ 4 ∧ 0x3000 % 4 + 4 ≤ 4 ∧
    (cached.cache.find (cached.a20 0x300F)).isSome = true ∧ cached.cache.find (cached.a20 0x3010) = none ∧ cached.nw = false ∧ cached.cd = false ∧
    ({ cached with cr0 := 0x60000021 } : State).nw = true := by decide +kernel

theorem witness_PlainMemoryAccess_protected : ¬ (w32.pe = false ∨ ((w32.segs.get .cs).hid.valid = true ∧ (w32.segs.get .cs).hid.writable = true)) ∧
    (let s : State := { w32 with cpl := 3, cr0 := 0x60040001, flags := { w32.flags with ac := true } };
      ¬ (0x3001 % 2 = 0 ∨ (s.am && s.flags.ac && s.cpl == 3) = false)) := ⟨by decide, by decide⟩

/-- 20_memory R123: a byte of a cached line of code that another master overwrites, then invalidates by EADS#: the old one may be fetched. -/
theorem test_prefetch_invalidated : ({ left (fetchByte 0x1000) { flat with cr0 := 0x21 } with
    pins := { Pins.idle with busWrites := [(0x1004, 0x77)], eads := [0x1000] } } : State).sample.prefetch.stale = [(0x1004, 0)] := by
  decide +kernel

/-- The entry through vector 13 of REAL16. -/
theorem witness_RealModeEntry : ∃ ps t, w16.Ready false ∧ (w16.begin.softEvent 13).EntersReal w16.begin t ps ∧ w16.flags.ovf = false :=
  ⟨_, _, ⟨rfl, rfl⟩, ⟨rfl, by decide, _, _, _, _, _, _, rfl, rfl, rfl, rfl, rfl⟩, rfl⟩

theorem witness_RealModeEntry_fault : ∃ ps t, w16.EscReady ∧ (w16.abandon.faultEvent 6 none).EntersReal w16.abandon t ps :=
  ⟨_, _, ⟨rfl, rfl, rfl, rfl⟩, rfl, by decide, _, _, _, _, _, _, rfl, rfl, rfl, rfl, rfl⟩

/-- An interrupt table of limit 33H ends before vector 13. -/
theorem witness_RealModeEntry_beyond : ({ w16 with idtr := ⟨0, 0x33⟩ } : State).idtr.limit.toNat < 4 * (13 : Byte).toNat + 3 ∧
    ({ w16 with idtr := ⟨0, 0x37⟩ } : State).idtr.limit.toNat = 4 * (13 : Byte).toNat + 3 := by decide

theorem witness_ProtectedModeEntry : ∃ g d u, ((w32.begin.softEvent 13).HasGate w32.begin g d 0x90008 u) ∧ d.hidden.conforming = false ∧ d.dpl = w32.cpl :=
  ⟨_, _, _, ⟨rfl, by decide, _, rfl, rfl, by decide, rfl, by decide, rfl, rfl, rfl, rfl, by decide, rfl⟩, rfl, rfl⟩

theorem witness_ProtectedModeEntry_frame : ∃ g d pss t, g.gateSize = .s32 ∧
    (w32.begin.softEvent 13).EntersFrame g d 0x90008 w32.flags none [0, 0, 0] { w32.begin with freeCtr := 1 } t pss :=
  ⟨⟨0x0008F00D, 0x00008E00⟩, ⟨0x0000FFFF, 0x00CF9B00⟩, _, _, rfl, _, _, _, _, _, rfl, by decide, rfl, rfl, rfl, rfl⟩

theorem witness_ProtectedModeEntry_inner : ∃ g d h sp esp u u1 u2, ({ inner.softEvent 0x20 with kind := .intr }).HasGate { inner with idtr := ⟨0x80000, 0x7FF⟩ } g d 0x90008 u ∧
    d.dpl < inner.cpl ∧ innerStack d.dpl.toNat u = .ok (0x10, esp) u1 ∧
    checkSS 0x10 d.dpl (raiseTS (selCode 0x10)) (raiseTS (selCode 0x10)) u1 = .ok (h, sp) u2 :=
  ⟨_, _, _, _, _, _, _, _, ⟨rfl, by decide, _, rfl, rfl, by decide, rfl, by decide, rfl, rfl, rfl, rfl, by decide, rfl⟩, by decide, rfl, rfl⟩

theorem witness_ProtectedModeEntry_outside : let s : State := { w32 with idtr := ⟨0x80000, 0x6E⟩ };
    s.pe = true ∧ s.idtr.limit.toNat < 8 * (13 : Byte).toNat + 7 := by decide

/-- Vector 14 has no gate, vector 13 one that is not present or, at level 3, not for software. -/
theorem witness_ProtectedModeEntry_refused : ∃ g e u v, readDesc 0x80070 w32 = .ok g u ∧ g.type.toNat ∉ [5, 6, 7, 14, 15] ∧
    readDesc 0x80068 (put 0x8006D [0x0E] w32) = .ok e v ∧ e.s = false ∧ e.type.toNat ∈ [5, 6, 7, 14, 15] ∧ e.dpl < (3 : BitVec 2) ∧ e.present = false :=
  ⟨_, _, _, _, rfl, by decide, rfl, rfl, by decide, by decide, rfl⟩

/-- INT 3, and INTO with OF = 1, through gates 3 and 4; INTO with OF = 0. -/
theorem witness_ProtectedModeEntry_traps : ∀ v ∈ [(3 : Byte), 4],
    let s : State := { flatGate v.toNat with dec := { Dec.start with len := 1 }, flags := { flat.flags with ovf := true } }
    s.Ready false ∧ s.flags.ovf = true ∧ w32.flags.ovf = false ∧ ∃ t, enterHandler (s.begin.softEvent v) s.begin = .ok () t := by
  intro v hv
  rcases List.mem_cons.1 hv with rfl | hv
  · exact ⟨⟨rfl, rfl⟩, rfl, rfl, _, rfl⟩
  · cases List.mem_singleton.1 hv
    exact ⟨⟨rfl, rfl⟩, rfl, rfl, _, rfl⟩

theorem witness_NestedDelivery : ∃ e s', enterHandler (w32.softEvent 14) w32 = .error (.exn e) s' := ⟨_, _, rfl⟩

theorem witness_NestedDelivery_escalates : ∃ e s', enterHandler (w32.faultEvent 14 (some 0)) w32 = .error (.exn e) s' ∧ e.vector = 13 := ⟨_, _, rfl, rfl⟩

theorem witness_InterruptReturn_real : ∃ off sel f s1, w16.Ready false ∧ popMany 2 3 w16.begin = .ok [off, sel, f] s1 ∧ w16.pe = false := ⟨_, _, _, _, ⟨rfl, rfl⟩, rfl, rfl⟩

theorem witness_InterruptReturn_protected : ∃ s1, popMany 4 3 w32.begin = .ok [0x1005, 8, 0x246] s1 ∧ w32.flags.nt = false ∧
    (BitVec.ofNat 32 0x246).getLsbD 17 = false ∧ (8 : Word).extractLsb' 0 2 = w32.cpl ∧
    ∃ d h s2 s3, returnTarget 8 0x1005 s1 = .ok (0x90008, d) s2 ∧ accessed 0x90008 d s2 = .ok h s3 :=
  ⟨_, answers_ok (by decide +kernel), rfl, rfl, rfl, ⟨0x0000FFFF, 0x00CF9B00⟩, { (flatSeg 8 11 0).hid with limit := 0xFFFFFFFF }, _, _,
    answers_ok (by decide +kernel), answers_ok (by decide +kernel)⟩

theorem witness_InterruptReturn_beyond : let s : State := { w16 with regs := { w16.regs with esp := 0xFFFB } };
    s.Ready false ∧ s.pe = false ∧ 2 ^ 16 < s.sp + 3 * s.osz.bytes ∧ w16.sp + 3 * w16.osz.bytes ≤ 2 ^ 16 ∧ 0xFFFA + 3 * 2 ≤ 2 ^ 16 :=
  ⟨⟨rfl, rfl⟩, rfl, by decide, by decide, by decide⟩

/-- The stack of an interrupted program of level 3. -/
def w32Resume : State := put 0x8008 (le 4 0x246 ++ le 4 0x9000 ++ le 4 0x23) w32Outer

theorem witness_InterruptReturn_outer : ∃ d s1 s2 t, popMany 4 3 w32Resume.begin = .ok [0x1005, 0x1B, 0x246] s1 ∧
    returnTarget 0x1B 0x1005 s1 = .ok (0x90018, d) s2 ∧ (0x1B : Word).extractLsb' 0 2 ≠ w32Resume.cpl ∧ s2.ReturnsOuter 4 0 0x1B 0x1005 0x90018 d t :=
  ⟨⟨0x0000FFFF, 0x00CFFB00⟩, left (popMany 4 3) w32Resume.begin, left (returnTarget 0x1B 0x1005) (left (popMany 4 3) w32Resume.begin), _,
    answers_ok (by decide +kernel), answers_ok (by decide +kernel), by decide,
    0x9000, 0x23, (flatSeg 0x23 3 3).hid, none, none, _, _, _, _, _, answers_ok (by decide +kernel), answers_ok (by decide +kernel), rfl, rfl, rfl, rfl⟩

theorem witness_InterruptReturn_refused : let s : State := { w32 with flags := { w32.flags with nt := true } };
    s.pe = true ∧ s.flags.nt = true ∧ s.osz = .s32 ∧ (BitVec.ofNat 32 0x20002).getLsbD 17 = true ∧ s.cpl = 0 := ⟨rfl, rfl, rfl, rfl, rfl⟩

theorem witness_BoundaryEvents : let s : State := { w32 with latch := { w32.latch with singleStep := true, nmiPending := true } };
    s.nextPins.pins.reset = false ∧ s.nextPins.sample.latch.singleStep = true ∧ s.nextPins.sample.latch.shadow = .none ∧ s.nextPins.sample.run = .running ∧
    s.nextPins.sample.latch.nmiPending = true ∧ s.nextPins.sample.latch.nmiInService = false := ⟨rfl, rfl, rfl, rfl, rfl, rfl⟩

theorem witness_BoundaryEvents_interrupt : inner.nextPins.pins.reset = false ∧ inner.nextPins.sample.pins.intr = true ∧ inner.nextPins.sample.flags.intf = true ∧ inner.nextPins.sample.latch.shadow = .none ∧
    inner.nextPins.sample.run ≠ .shutdown ∧ inner.nextPins.sample.latch.dataBreak = 0 ∧ inner.nextPins.sample.latch.singleStep = false ∧ inner.nextPins.sample.latch.nmiPending = false :=
  ⟨rfl, rfl, rfl, rfl, by decide, rfl, rfl, rfl⟩

/-- REP STOSB right after STI: the shadow is held at the boundary and after an iteration that is not the last. -/
theorem witness_BoundaryEvents_repeated : let s : State := { flat with latch := { flat.latch with shadow := .held }, regs := { flat.regs with ecx := 3, edi := 0x3000 } };
    after [0xF3, 0xAA] s (fun t => t.latch.repActive && t.latch.shadow == .held) = true ∧ s.nextPins.pins.reset = false ∧ s.nextPins.sample.latch.shadow = .held := by
  decide +kernel


/-- NMI at a shut-down processor. -/
theorem witness_BoundaryEvents_shutdown : let s : State := { flat with run := .shutdown, pins := { Pins.idle with nmi := true } };
    s.nextPins.pins.reset = false ∧ s.nextPins.sample.latch.nmiPending = true ∧ s.nextPins.sample.latch.nmiInService = false ∧
    s.nextPins.sample.latch.shadow = .none ∧ s.nextPins.sample.run = .shutdown := ⟨rfl, rfl, rfl, rfl, rfl⟩

/-- Breakpoint 0 for the instruction at 1000H, breakpoint 1 for the dword at 3000H, written. -/
def broken (rf : Bool) : State :=
  { w32 with flags := { w32.flags with rf := rf, tf := true }, dbg := { w32.dbg with dr0 := 0x1000, dr1 := 0x3001, dr7 := 0x00D00009 } }

theorem witness_BoundaryEvents_instruction : ∃ s1 s2, (broken false).flags.rf = false ∧ instrBreaks (broken false) = .ok 1 s1 ∧ (1 : BitVec 4) ≠ 0 ∧
    instrBreaks (broken true) = .ok 0 s2 ∧
    (∀ i < 4, ((broken false).dbg.dr7.getLsbD (2 * i) = true ∨ (broken false).dbg.dr7.getLsbD (2 * i + 1) = true) →
      (broken false).dbg.dr7.toNat / 2 ^ (16 + 4 * i) % 4 = 0 → (broken false).dbg.dr7.toNat / 2 ^ (18 + 4 * i) % 4 + 1 = 1) :=
  ⟨_, _, rfl, answers_ok (by decide +kernel), by decide, answers_ok (by decide +kernel), by decide +kernel⟩

/-- The bytes 2FFFH and 3004H lie outside, 3000H and 3003H inside. -/
theorem witness_BoundaryEvents_data : ∀ p ∈ [(0x2FFF, 1, false), (0x3000, 1, true), (0x3003, 4, true), (0x3004, 1, false)],
    (match locate .ds p.1 p.2.1 1 true (broken false) with | .ok _ t => t.latch.dataBreak.getLsbD 1 | .error _ _ => !p.2.2) = p.2.2 := by decide +kernel

/-- 20_memory R104 (3): in a segment of base FFFFF000H a dword at linear FFFFFFFEH goes on at 0 and 1, where breakpoint 1 lies. -/
theorem test_data_breakpoint_wraps : ∀ p ∈ [(0xFFE, 4, true), (0xFFE, 2, false), (0xFFF, 2, true)],
    (match locate .ds p.1 p.2.1 1 true ({ broken false with dbg := { w32.dbg with dr1 := 0, dr7 := 0x00500008 } }.withSeg .ds
        { flatSeg 0x10 3 0 with hid := { (flatSeg 0x10 3 0).hid with base := 0xFFFFF000 } }) with
      | .ok _ t => t.latch.dataBreak.getLsbD 1 | .error _ _ => !p.2.2) = p.2.2 := by decide +kernel

theorem witness_BoundaryEvents_halted : ({ flat with run := .halted } : State).nextPins.sample.run ≠ .running ∧ ({ flat with run := .halted } : State).nextPins.pins.reset = false := ⟨by decide, rfl⟩

/-- INC EAX at CS:EIP. -/
def fetching : State := put 0x1000 [0x40] flat

theorem witness_StepRunsDecodedInstruction : ∃ s1 u, fetching.nextPins.pins.reset = false ∧ fetching.nextPins.sample.takesDebug = false ∧ fetching.nextPins.sample.takesNmi = false ∧
    fetching.nextPins.sample.takesIntr = false ∧ fetching.nextPins.sample.run = .running ∧ (fetching.nextPins.sample.pe && fetching.nextPins.sample.flags.vm) = false ∧
    instrBreaks fetching.nextPins.sample = .ok 0 s1 ∧ Instr.wf .s32 .s32 (.inc (.reg 0)) = true ∧ ({ s1 with dec := Dec.start } : State).Fetches 0x1000 [0x40] u :=
  ⟨_, _, rfl, rfl, rfl, rfl, rfl, rfl, answers_ok (by decide +kernel), rfl, _, answers_ok (by decide +kernel), rfl⟩

theorem witness_StepRunsDecodedInstruction_prefix : Instr.wf .s32 .s32 .lockPrefix = true ∧ isPrefix .lockPrefix = true ∧ ∃ v, exec .lockPrefix w32 = .next v :=
  ⟨rfl, rfl, _, rfl⟩

/-- INC EAX after 14 and after 15 prefixes. -/
theorem witness_StepRunsDecodedInstruction_long : ∀ n ∈ [14, 15], let s := (put (0x1000 + n) [0x40] { flat with dec := { Dec.start with len := n } });
    ∃ u, s.Fetches (s.eip.toNat + s.dec.len) (encode s.osz s.asz (.inc (.reg 0))) u := by
  simp only [List.forall_mem_cons]
  exact ⟨⟨_, _, answers_ok (by decide +kernel), rfl⟩, ⟨_, _, answers_ok (by decide +kernel), rfl⟩, fun _ h => by cases h⟩


theorem witness_ResetState : ({ flat with pins := { Pins.idle with reset := true } } : State).nextPins.pins.reset = true ∧
    ({ flat with pins := { Pins.idle with reset := true, ahold := true } } : State).nextPins.pins.ahold = true := ⟨rfl, rfl⟩

theorem witness_StepKeepsInvariant : State.reset.Inv ∧ ∃ t, step State.reset = .next t := by
  refine ⟨⟨by decide +kernel, by decide, by decide, by decide, by decide, by decide, by decide, by decide⟩, ?_⟩
  have h : (match step State.reset with | .next _ => true | .fault _ => false | .refused _ => false) = true := by decide +kernel
  revert h
  cases step State.reset with
  | next t => exact fun _ => ⟨t, rfl⟩
  | fault _ => exact fun h => by cases h
  | refused _ => exact fun h => by cases h

theorem witness_DecodeEncodeAgree : Instr.wf .s32 .s16 (.lea 0 (.a16 6 (.d8 0xFE))) = true ∧
    decode .s32 .s16 [0x8D, 0x46, 0xFE, 0x90] = .ok (.lea 0 (.a16 6 (.d8 0xFE)), [0x90]) := ⟨rfl, rfl⟩

end Sys2Proof.Tests
end

section
/-! The decimal adjustments (40_integer R330 to R333, 41_integer R395, R396): what AX and the flags become is said once for
each shape of adjustment and once for each body; the statement is put together from these. -/
namespace Sys2Proof.Machine

/-! ### The shared operations -/

@[simp] theorem getAX_run (s : State) :
    getAX s = .ok (s.regs.read .w16 regEAX % 2 ^ 8, s.regs.read .w16 regEAX / 2 ^ 8) s := rfl
@[simp] theorem setAX_run (al ah : Nat) (s : State) : setAX al ah s = .ok () (s.withAX al ah) := rfl

/-- What an ASCII adjustment leaves: AX written, AF = CF = `c`, the other status flags drawn freely. -/
def State.asciiAdjusted (s : State) (al ah : Nat) (c : Bool) : State :=
  (s.withAX al ah).drawn.withFlags (asciiFlags s.draw c s.flags)

/-- What AAD and AAM leave: AX written, SF, ZF and PF from AL, the other status flags drawn freely. -/
def State.baseAdjusted (s : State) (al ah : Nat) : State :=
  (s.withAX al ah).drawn.withFlags (szp 8 al (freeStatus s.draw s.flags))

/-- What DAA and DAS leave: AL written, SF, ZF and PF from it, AF and CF as given, OF drawn freely. -/
def State.decimalAdjusted (s : State) (al : Nat) (af cf : Bool) : State :=
  (s.withReg .w8 regEAX al).drawn.withFlags (szp 8 al { s.flags with af := af, cf := cf, ovf := s.draw.getLsbD 0 })

@[simp] theorem aaaFlags_withAX (s : State) (al ah : Nat) (c : Bool) :
    aaaFlags c (s.withAX al ah) = .ok () (s.asciiAdjusted al ah c) := rfl
@[simp] theorem aadFlags_withAX (s : State) (al ah : Nat) :
    aadFlags al (s.withAX al ah) = .ok () (s.baseAdjusted al ah) := rfl
@[simp] theorem setDecimal_run (s : State) (al : Nat) (af cf : Bool) :
    setDecimal al af cf s = .ok () (s.decimalAdjusted al af cf) := rfl

/-- AL is the low byte of AX (10_state R22). -/
theorem read_al_eq_ax_mod (r : Regs) : r.read .w8 regEAX = r.read .w16 regEAX % 2 ^ 8 :=
  (Nat.mod_mod_of_dvd _ (by decide)).symm

/-! ### The bodies, with AL and AH as they are before -/

section
variable {s : State} {al ah : Nat}

theorem aaaBody_run (hal : s.regs.read .w16 regEAX % 2 ^ 8 = al) (hah : s.regs.read .w16 regEAX / 2 ^ 8 = ah) :
    aaaBody s = .ok () (if lowDigitBad al s.flags then s.asciiAdjusted ((al + 6) % 16) ((ah + 1) % 2 ^ 8) true
      else s.asciiAdjusted (al % 16) ah false) := by
  subst hal hah
  simp only [aaaBody, M.bind_run, getAX_run, M.get_run, M.ite_run, setAX_run, aaaFlags_withAX]
  split <;> rfl

/-- Subtracting 6 and 1 modulo a power of two is adding 250 and 255 (R333). -/
theorem aasBody_run (hal : s.regs.read .w16 regEAX % 2 ^ 8 = al) (hah : s.regs.read .w16 regEAX / 2 ^ 8 = ah) :
    aasBody s = .ok () (if lowDigitBad al s.flags then s.asciiAdjusted ((al + 250) % 16) ((ah + 255) % 2 ^ 8) true
      else s.asciiAdjusted (al % 16) ah false) := by
  subst hal hah
  simp only [aasBody, M.bind_run, getAX_run, M.get_run, M.ite_run, setAX_run, aaaFlags_withAX]
  split <;> rfl

theorem aadBody_run (imm : Byte) (hal : s.regs.read .w16 regEAX % 2 ^ 8 = al)
    (hah : s.regs.read .w16 regEAX / 2 ^ 8 = ah) :
    aadBody imm s = .ok () (s.baseAdjusted ((ah * imm.toNat + al) % 2 ^ 8) 0) := by
  subst hal hah
  simp only [aadBody, M.bind_run, getAX_run, setAX_run, aadFlags_withAX]

/-- With base 0 the body raises #DE instead (R332). -/
theorem aamBody_run {imm : Byte} (hi : imm ≠ 0) (hal : s.regs.read .w16 regEAX % 2 ^ 8 = al) :
    aamBody imm s = .ok () (s.baseAdjusted (al % imm.toNat) (al / imm.toNat)) := by
  subst hal
  simp only [aamBody, M.bind_run, getAX_run, if_neg hi, setAX_run, aadFlags_withAX]

theorem daaBody_run (hal : s.regs.read .w16 regEAX % 2 ^ 8 = al) :
    let low := lowDigitBad al s.flags
    let high := decide (al > 0x99) || s.flags.cf
    let a1 := if low then (al + 6) % 2 ^ 8 else al
    daaBody s = .ok () (s.decimalAdjusted (if high then (a1 + 0x60) % 2 ^ 8 else a1) low high) := by
  subst hal
  simp only [daaBody, M.bind_run, getReg_run, read_al_eq_ax_mod, M.get_run, setDecimal_run]

/-- Subtracting 6 and 60H modulo 2^8 is adding 250 and 160 (R396). -/
theorem dasBody_run (hal : s.regs.read .w16 regEAX % 2 ^ 8 = al) :
    let low := lowDigitBad al s.flags
    let high := decide (al > 0x99) || s.flags.cf
    let a1 := if low then (al + 250) % 2 ^ 8 else al
    dasBody s = .ok () (s.decimalAdjusted (if high then (a1 + 160) % 2 ^ 8 else a1) low
      (high || (low && (s.flags.cf || decide (al < 6))))) := by
  subst hal
  simp only [dasBody, M.bind_run, getReg_run, read_al_eq_ax_mod, M.get_run, setDecimal_run]
  rfl

end

/-! ### The statement -/

/-- AAA and AAS complete with the low digit adjusted or not, as `low` says. -/
theorem completes_of_asciiAdjusted {i : Instr} {body : M Unit} {s : State} {low : Bool} {al₁ ah₁ al₀ ah₀ : Nat}
    (hi : exec i s = runInstr false false body s) (hr : s.Ready false)
    (hb : body s.begin = .ok () (if low then s.begin.asciiAdjusted al₁ ah₁ true else s.begin.asciiAdjusted al₀ ah₀ false)) :
    Completes i s (if low then (s.begin.asciiAdjusted al₁ ah₁ true).complete false
      else (s.begin.asciiAdjusted al₀ ah₀ false).complete false) [] := by
  cases low with
  | true => exact completes_of_ok hi hr hb rfl (keeps_of_mem rfl)
  | false => exact completes_of_ok hi hr hb rfl (keeps_of_mem rfl)

/-- Settles O9: every body leaves one of the three adjusted states, with AX and the flags its rule names. -/
theorem decimalAdjustment : Obligations.DecimalAdjustment := by
  intro imm s hr ax al ah low high finish decimal
  refine ⟨?aaa, ?aas, ?aad, ?aam, ?daa, ?das⟩
  case aaa => exact completes_of_asciiAdjusted rfl hr (aaaBody_run rfl rfl)
  case aas => exact completes_of_asciiAdjusted rfl hr (aasBody_run rfl rfl)
  case aad => exact completes_of_ok rfl hr (aadBody_run imm rfl rfl) rfl (keeps_of_mem rfl)
  case aam => exact fun hi => completes_of_ok rfl hr (aamBody_run hi rfl) rfl (keeps_of_mem rfl)
  case daa => exact completes_of_ok rfl hr (daaBody_run rfl) rfl (keeps_of_mem rfl)
  case das => exact completes_of_ok rfl hr (dasBody_run rfl) rfl (keeps_of_mem rfl)

end Sys2Proof.Machine
end

section
/-! Sign extension and the flag instructions (41_integer R372, R373, R375, R376, R401 to R405, R408): the facts about signed
values, byte and word registers and the low byte of EFLAGS that relate the bodies to their rules, then one lemma for each
kind of thing such an instruction replaces. -/
namespace Sys2Proof.Machine

/-! ### Signed values -/

/-- The model's signed reading of a value is two's complement. -/
theorem toSigned_toNat {k : Nat} (x : BitVec k) : toSigned k x.toNat = x.toInt := by
  cases k with
  | zero => rw [BitVec.of_length_zero (x := x)]; rfl
  | succ k =>
    have half : x.toNat < 2 ^ (k + 1 - 1) ↔ 2 * x.toNat < 2 ^ (k + 1) := by
      rw [Nat.add_sub_cancel, Nat.pow_succ]
      omega
    simp only [toSigned, half, BitVec.toInt_eq_toNat_cond]

/-- `sext` on numbers is sign extension of words. -/
theorem sext_toNat {k : Nat} (n : Nat) (x : BitVec k) : sext k n x.toNat = (x.signExtend n).toNat := by
  rw [sext, ofSigned, toSigned_toNat, BitVec.signExtend, BitVec.toNat_ofInt]

/-! ### The parts of EAX -/

theorem read_al_eq_toNat (r : Regs) : r.read .w8 regEAX = (r.eax.setWidth 8).toNat := (BitVec.toNat_setWidth ..).symm
theorem read_ax_eq_toNat (r : Regs) : r.read .w16 regEAX = (r.eax.setWidth 16).toNat := (BitVec.toNat_setWidth ..).symm

theorem testBit_ax_sign (r : Regs) : (r.read .w16 regEAX).testBit 15 = r.eax.getLsbD 15 := by
  rw [read_ax_eq_toNat, BitVec.testBit_toNat, BitVec.getLsbD_setWidth, decide_eq_true (by decide), Bool.true_and]

/-! ### The low byte of EFLAGS (10_state R36) -/

theorem carry_eq_toNat (c : Bool) : carry c = c.toNat := by cases c <;> rfl

/-- A word with one bit put below it, as the image of EFLAGS is built. -/
theorem toNat_append_ofBool {w : Nat} (x : BitVec w) (c : Bool) :
    (x ++ BitVec.ofBool c).toNat = x.toNat * 2 + c.toNat := BitVec.toNat_concat x c

/-- The low byte of EFLAGS is SF : ZF : 0 : AF : 0 : PF : 1 : CF (R375): its eight bits are the last ones appended. -/
theorem toBits_low_byte (f : Flags) : f.toBits.toNat % 2 ^ 8 =
    carry f.sf * 128 + carry f.zf * 64 + carry f.af * 16 + carry f.pf * 4 + 2 + carry f.cf := by
  have zero_bit : 0#1 = BitVec.ofBool false := rfl
  have one_bit : 1#1 = BitVec.ofBool true := rfl
  simp only [Flags.toBits, zero_bit, one_bit, toNat_append_ofBool, carry_eq_toNat, Bool.toNat_false, Bool.toNat_true]
  have := f.sf.toNat_lt
  have := f.zf.toNat_lt
  have := f.af.toNat_lt
  have := f.pf.toNat_lt
  have := f.cf.toNat_lt
  omega

/-- The bit of an image given as a number (R376). -/
theorem getLsbD_ofNat_32 (x : Nat) {i : Nat} (h : i < 32) : (BitVec.ofNat 32 x).getLsbD i = x.testBit i := by
  rw [BitVec.getLsbD_ofNat, decide_eq_true h, Bool.true_and]

/-! ### What such an instruction replaces -/

/-- An instruction that replaces one register and nothing else. -/
theorem completes_of_withReg {i : Instr} {body : M Unit} {s : State} {w : Width} {r : RegNum} {v : Nat}
    (hi : exec i s = runInstr false false body s) (hr : s.Ready false)
    (hb : body s.begin = .ok () (s.begin.withReg w r v)) :
    Completes i s ((s.begin.withReg w r v).complete false) [] :=
  completes_of_ok hi hr hb rfl (keeps_of_mem rfl)

/-- An instruction that replaces the flags and nothing else. -/
theorem completes_of_modFlags {i : Instr} {g : Flags → Flags} {f : Flags} {s : State}
    (hi : exec i s = runInstr false false (modFlags g) s) (hr : s.Ready false) (hg : g s.flags = f) :
    Completes i s ((s.begin.withFlags f).complete false) [] := by
  subst hg
  exact completes_of_ok hi hr (modFlags_run g s.begin) rfl (keeps_of_mem rfl)

/-! ### The bodies -/

theorem cbwBody_run_s16 {s : State} (h : s.osz = .s16) :
    cbwBody s = .ok () (s.withReg .w16 regEAX ((s.regs.eax.setWidth 8).signExtend 16).toNat) := by
  simp only [cbwBody, M.bind_run, M.get_run, h, setReg_run, read_al_eq_toNat, sext_toNat]

theorem cbwBody_run_s32 {s : State} (h : s.osz = .s32) :
    cbwBody s = .ok () (s.withReg .w32 regEAX ((s.regs.eax.setWidth 16).signExtend 32).toNat) := by
  simp only [cbwBody, M.bind_run, M.get_run, h, setReg_run, read_ax_eq_toNat, sext_toNat]

theorem cwdBody_run_s16 {s : State} (h : s.osz = .s16) :
    cwdBody s = .ok () (s.withReg .w16 regEDX (if s.regs.eax.getLsbD 15 then 0xFFFF else 0)) := by
  rw [← testBit_ax_sign]
  simp only [cwdBody, M.bind_run, M.get_run, h, setReg_run]
  rfl

theorem cwdBody_run_s32 {s : State} (h : s.osz = .s32) :
    cwdBody s = .ok () (s.withReg .w32 regEDX (if s.regs.eax.getLsbD 31 then 0xFFFFFFFF else 0)) := by
  simp only [cwdBody, M.bind_run, M.get_run, h, setReg_run]
  rfl

theorem sahf_completes {s : State} (hr : s.Ready false) {ah : Nat} (hah : s.regs.read .w8 4 = ah) :
    Completes .sahf s ((s.begin.withFlags { s.flags with
      sf := ah.testBit 7, zf := ah.testBit 6, af := ah.testBit 4, pf := ah.testBit 2, cf := ah.testBit 0 }).complete false) [] := by
  refine completes_of_modFlags rfl hr ?_
  simp only [Flags.ofBits, getLsbD_ofNat_32, hah, Nat.reduceLT]

theorem lahf_completes {s : State} (hr : s.Ready false) :
    Completes .lahf s ((s.begin.withReg .w8 4 (carry s.flags.sf * 128 + carry s.flags.zf * 64 + carry s.flags.af * 16 +
      carry s.flags.pf * 4 + 2 + carry s.flags.cf)).complete false) [] := by
  rw [← toBits_low_byte]
  exact completes_of_withReg rfl hr (setReg_run ..)

/-! ### The statement -/

/-- Settles O17: every instruction replaces one register, the flags, or nothing, by the lemma about its body. -/
theorem signExtensionsAndFlagInstructions : Obligations.SignExtensionsAndFlagInstructions := by
  refine ⟨fun s hr => ⟨?cbw, ?cwde⟩, fun s hr => ⟨?cwd, ?cdq⟩, fun s hr => ⟨?clc, ?stc, ?cmc, ?cld, ?std, ?sahf, ?lahf, ?nop⟩⟩
  case cbw => exact fun h => completes_of_withReg rfl hr (cbwBody_run_s16 (s := s.begin) h)
  case cwde => exact fun h => completes_of_withReg rfl hr (cbwBody_run_s32 (s := s.begin) h)
  case cwd => exact fun h => completes_of_withReg rfl hr (cwdBody_run_s16 (s := s.begin) h)
  case cdq => exact fun h => completes_of_withReg rfl hr (cwdBody_run_s32 (s := s.begin) h)
  case clc => exact completes_of_modFlags rfl hr rfl
  case stc => exact completes_of_modFlags rfl hr rfl
  case cmc => exact completes_of_modFlags rfl hr rfl
  case cld => exact completes_of_modFlags rfl hr rfl
  case std => exact completes_of_modFlags rfl hr rfl
  case sahf => exact sahf_completes hr rfl
  case lahf => exact lahf_completes hr
  case nop => exact completes_of_ok rfl hr (M.pure_run () s.begin) rfl (keeps_of_mem rfl)

end Sys2Proof.Machine
end

section
/-! What keeps the invariant: a computation `Keeps c` when, begun in a state that meets the invariant with CR0 = `c`, it ends
in one, whether it answers or stops. One lemma for each operation that instructions are built from. -/
set_option Elab.async false

namespace Sys2Proof.Machine

/-! ### The invariant and the fields it speaks of -/

/-- The fields of the state that the invariant speaks of. -/
def State.guarded (s : State) : Memory × DWord × DWord × DebugRegs × BitVec 2 := (s.mem, s.cr0, s.cr3, s.dbg, s.cpl)

theorem guarded_eq_iff {s t : State} : t.guarded = s.guarded ↔
    t.mem = s.mem ∧ t.cr0 = s.cr0 ∧ t.cr3 = s.cr3 ∧ t.dbg = s.dbg ∧ t.cpl = s.cpl := by
  simp only [State.guarded, Prod.mk.injEq]

/-- Of memory the invariant asks the canonical form only, of the other fields it sees all. -/
theorem State.Inv.withMem {s t : State} (h : s.Inv) (hm : Memory.wf t.mem = true)
    (e : t.guarded = (t.mem, s.guarded.2)) : t.Inv := by
  simp only [State.guarded, Prod.mk.injEq, true_and] at e
  obtain ⟨h0, h3, hd, hp⟩ := e
  exact
    { mem := hm
      cr0Reserved := h0 ▸ h.cr0Reserved
      cr3Reserved := h3 ▸ h.cr3Reserved
      dr6Reserved := hd ▸ h.dr6Reserved
      dr7Reserved := hd ▸ h.dr7Reserved
      paging := by simp only [State.pg, State.pe, h0]; exact h.paging
      caching := by simp only [State.nw, State.cd, h0]; exact h.caching
      realCpl := by simp only [State.pe, h0, hp]; exact h.realCpl }

/-- The invariant depends on the guarded fields only. -/
theorem State.Inv.congr {s t : State} (h : s.Inv) (e : t.guarded = s.guarded) : t.Inv :=
  h.withMem ((guarded_eq_iff.1 e).1 ▸ h.mem) (by rw [← e]; rfl)

/-- The invariant, with CR0 = `c`. -/
structure State.InvAt (c : DWord) (s : State) : Prop where
  inv : s.Inv
  cr0 : s.cr0 = c

theorem State.InvAt.congr {c : DWord} {s t : State} (h : s.InvAt c) (e : t.guarded = s.guarded) : t.InvAt c :=
  ⟨h.inv.congr e, (guarded_eq_iff.1 e).2.1.trans h.cr0⟩

theorem State.InvAt.touched {c : DWord} {s t : State} (h : s.InvAt c) (ht : s.Touches t) (hm : Memory.wf t.mem = true) :
    t.InvAt c :=
  ⟨h.inv.withMem hm (by rw [ht]; rfl), by rw [ht]; exact h.cr0⟩

/-! ### Computations that keep it -/

/-- The state a computation ends in, with a value or without. -/
def resultState {α : Type} : EStateM.Result Stop State α → State
  | .ok _ s => s
  | .error _ s => s

/-- Begun with the invariant and CR0 = `c`, the computation ends so, whether it answers or stops. -/
structure M.Keeps {α : Type} (c : DWord) (x : M α) : Prop where
  run : ∀ s : State, s.InvAt c → (resultState (x s)).InvAt c

section
variable {c : DWord} {α β : Type}

theorem M.Keeps.ok {x : M α} {s t : State} {a : α} (hx : M.Keeps c x) (hs : s.InvAt c) (h : x s = .ok a t) : t.InvAt c := by
  have := hx.run s hs
  rwa [h] at this

theorem M.Keeps.error {x : M α} {s t : State} {e : Stop} (hx : M.Keeps c x) (hs : s.InvAt c) (h : x s = .error e t) :
    t.InvAt c := by
  have := hx.run s hs
  rwa [h] at this

theorem M.Keeps.bind {x : M α} {f : α → M β} (hx : M.Keeps c x) (hf : ∀ a, M.Keeps c (f a)) : M.Keeps c (x >>= f) := by
  refine ⟨fun s hs => ?_⟩
  rw [M.bind_run]
  cases h : x s with
  | ok a t => exact (hf a).run t (hx.ok hs h)
  | error e t => exact hx.error hs h

/-- What is read of the state first may be used: it meets the invariant. -/
theorem M.Keeps.getBind {f : State → M β} (hf : ∀ s : State, s.InvAt c → M.Keeps c (f s)) : M.Keeps c (get >>= f) :=
  ⟨fun s hs => (hf s hs).run s hs⟩

theorem M.Keeps.ite {p : Prop} [Decidable p] {x y : M α} (hx : M.Keeps c x) (hy : M.Keeps c y) :
    M.Keeps c (if p then x else y) := by
  split
  · exact hx
  · exact hy

theorem keeps_modify {g : State → State} (h : ∀ s, (g s).guarded = s.guarded) : M.Keeps c (modify g) :=
  ⟨fun s hs => hs.congr (h s)⟩

/-- A function of the state that answers, with no guarded field changed. -/
theorem keeps_of_guarded {x : M α} (h : ∀ s, (resultState (x s)).guarded = s.guarded) : M.Keeps c x :=
  ⟨fun s hs => hs.congr (h s)⟩

@[simp] theorem keeps_pure (a : α) : M.Keeps c (pure a : M α) := ⟨fun _ h => h⟩
@[simp] theorem keeps_get : M.Keeps c get := ⟨fun _ h => h⟩
@[simp] theorem keeps_throw (e : Stop) : M.Keeps c (throw e : M α) := ⟨fun _ h => h⟩
@[simp] theorem keeps_raise (v : Byte) (k : Option Word) (l : ExnClass) : M.Keeps c (raise v k l : M α) := ⟨fun _ h => h⟩
@[simp] theorem keeps_raiseGP (k : Word) : M.Keeps c (raiseGP k : M α) := ⟨fun _ h => h⟩
@[simp] theorem keeps_raiseSS (k : Word) : M.Keeps c (raiseSS k : M α) := ⟨fun _ h => h⟩
@[simp] theorem keeps_raiseNP (k : Word) : M.Keeps c (raiseNP k : M α) := ⟨fun _ h => h⟩
@[simp] theorem keeps_raiseTS (k : Word) : M.Keeps c (raiseTS k : M α) := ⟨fun _ h => h⟩
@[simp] theorem keeps_raiseUD : M.Keeps c (raiseUD : M α) := ⟨fun _ h => h⟩
@[simp] theorem keeps_raiseDE : M.Keeps c (raiseDE : M α) := ⟨fun _ h => h⟩
@[simp] theorem keeps_raiseNM : M.Keeps c (raiseNM : M α) := ⟨fun _ h => h⟩
@[simp] theorem keeps_raiseAC : M.Keeps c (raiseAC : M α) := ⟨fun _ h => h⟩
@[simp] theorem keeps_pageFault (lin : Nat) (p w u : Bool) : M.Keeps c (pageFault lin p w u : M α) :=
  keeps_of_guarded fun _ => rfl

/-! What follows a raise is not run. -/

theorem keeps_throw_bind (e : Stop) (f : α → M β) : M.Keeps c (throw e >>= f) := ⟨fun _ h => h⟩
theorem keeps_raise_bind (v : Byte) (k : Option Word) (l : ExnClass) (f : α → M β) : M.Keeps c (raise v k l >>= f) :=
  ⟨fun _ h => h⟩
theorem keeps_raiseGP_bind (k : Word) (f : α → M β) : M.Keeps c (raiseGP k >>= f) := ⟨fun _ h => h⟩
theorem keeps_raiseSS_bind (k : Word) (f : α → M β) : M.Keeps c (raiseSS k >>= f) := ⟨fun _ h => h⟩
theorem keeps_raiseNP_bind (k : Word) (f : α → M β) : M.Keeps c (raiseNP k >>= f) := ⟨fun _ h => h⟩
theorem keeps_raiseTS_bind (k : Word) (f : α → M β) : M.Keeps c (raiseTS k >>= f) := ⟨fun _ h => h⟩
theorem keeps_raiseUD_bind (f : α → M β) : M.Keeps c (raiseUD >>= f) := ⟨fun _ h => h⟩
theorem keeps_raiseDE_bind (f : α → M β) : M.Keeps c (raiseDE >>= f) := ⟨fun _ h => h⟩
theorem keeps_raiseNM_bind (f : α → M β) : M.Keeps c (raiseNM >>= f) := ⟨fun _ h => h⟩
theorem keeps_pageFault_bind (lin : Nat) (p w u : Bool) (f : α → M β) : M.Keeps c (pageFault lin p w u >>= f) :=
  ⟨fun _ h => h.congr rfl⟩

/-- A computation put together from parts keeps the invariant if each part does: the parts are found by following its
`do` block; what is known of them is in the context or the simp set. -/
theorem M.Keeps.parts {x : M α}
    (h : M.Keeps c x := by
      repeat' first
        | with_reducible apply keeps_raiseGP_bind
        | with_reducible apply keeps_raiseNP_bind
        | with_reducible apply keeps_raiseSS_bind
        | with_reducible apply keeps_raiseTS_bind
        | with_reducible apply keeps_raiseUD_bind
        | with_reducible apply keeps_raiseDE_bind
        | with_reducible apply keeps_raiseNM_bind
        | with_reducible apply keeps_raise_bind
        | with_reducible apply keeps_throw_bind
        | with_reducible apply keeps_pageFault_bind
        | with_reducible refine M.Keeps.bind ?_ fun _ => ?_
        | with_reducible refine M.Keeps.ite ?_ ?_
        | with_reducible exact keeps_modify fun _ => rfl
        | split
        | simp [*]) : M.Keeps c x := h

/-! ### Registers, flags, segments -/

@[simp] theorem keeps_fresh : M.Keeps c fresh := keeps_of_guarded fun _ => rfl
@[simp] theorem keeps_freshBool : M.Keeps c freshBool := keeps_of_guarded fun _ => rfl
@[simp] theorem keeps_getReg (w : Width) (n : RegNum) : M.Keeps c (getReg w n) := ⟨fun _ h => h⟩
@[simp] theorem keeps_setReg (w : Width) (n : RegNum) (v : Nat) : M.Keeps c (setReg w n v) := keeps_of_guarded fun _ => rfl
@[simp] theorem keeps_modFlags (f : Flags → Flags) : M.Keeps c (modFlags f) := keeps_of_guarded fun _ => rfl
@[simp] theorem keeps_getWidth : M.Keeps c getWidth := ⟨fun _ h => h⟩
@[simp] theorem keeps_getCarry : M.Keeps c getCarry := ⟨fun _ h => h⟩
@[simp] theorem keeps_getIndex (r : RegNum) : M.Keeps c (getIndex r) := ⟨fun _ h => h⟩
@[simp] theorem keeps_advance (r : RegNum) (n : Nat) : M.Keeps c (advance r n) := keeps_of_guarded fun _ => rfl
@[simp] theorem keeps_setSP (v : Nat) : M.Keeps c (setSP v) := keeps_of_guarded fun _ => rfl
@[simp] theorem keeps_setSeg (n : SegName) (v : SegReg) : M.Keeps c (setSeg n v) := keeps_of_guarded fun _ => rfl
@[simp] theorem keeps_setEip (t : Nat) : M.Keeps c (setEip t) := keeps_of_guarded fun _ => rfl
@[simp] theorem keeps_setShadow : M.Keeps c setShadow := keeps_of_guarded fun _ => rfl
@[simp] theorem keeps_busEvent (e : BusEvent) : M.Keeps c (busEvent e) := keeps_of_guarded fun _ => rfl
@[simp] theorem keeps_modFpu (g : Fpu → Fpu) : M.Keeps c (modFpu g) := keeps_of_guarded fun _ => rfl
@[simp] theorem keeps_notePointers (i : Instr) (m : Option Mem) (u : BitVec 128) : M.Keeps c (notePointers i m u) :=
  keeps_of_guarded fun _ => rfl

/-! ### Checks: each answers in the state it was given, or raises there -/

@[simp] theorem keeps_requireCpl0 : M.Keeps c requireCpl0 := by
  refine keeps_of_guarded fun s => ?_
  unfold requireCpl0
  split <;> rfl

@[simp] theorem keeps_requireProtected : M.Keeps c requireProtected := by
  refine keeps_of_guarded fun s => ?_
  unfold requireProtected
  split <;> rfl

@[simp] theorem keeps_requireIopl : M.Keeps c requireIopl := by
  refine keeps_of_guarded fun s => ?_
  unfold requireIopl
  split <;> rfl

@[simp] theorem keeps_pendingCheck : M.Keeps c pendingCheck := by
  refine keeps_of_guarded fun s => ?_
  unfold pendingCheck
  repeat' split
  all_goals rfl

@[simp] theorem keeps_alignCheck (lin al : Nat) : M.Keeps c (alignCheck lin al) := by
  refine keeps_of_guarded fun s => ?_
  unfold alignCheck
  split <;> rfl

@[simp] theorem keeps_segFault (sr : SegName) : M.Keeps c (segFault sr : M α) := by cases sr <;> exact ⟨fun _ h => h⟩

@[simp] theorem keeps_segCheck (sr : SegName) (off n : Nat) (w : Bool) : M.Keeps c (segCheck sr off n w) := by
  refine ⟨fun s hs => ?_⟩
  simp only [segCheck]
  repeat' split
  all_goals first | exact hs | exact (keeps_segFault sr).run s hs

@[simp] theorem keeps_nearTarget (t : Nat) : M.Keeps c (nearTarget t) := by
  refine keeps_of_guarded fun s => ?_
  simp only [nearTarget]
  split <;> rfl

@[simp] theorem keeps_pushRoom : M.Keeps c pushRoom := by
  refine keeps_of_guarded fun s => ?_
  unfold pushRoom
  split <;> rfl

@[simp] theorem keeps_pushaRoom : M.Keeps c pushaRoom := by
  refine keeps_of_guarded fun s => ?_
  unfold pushaRoom
  repeat' split
  all_goals rfl

@[simp] theorem keeps_popaRoom : M.Keeps c popaRoom := by
  refine keeps_of_guarded fun s => ?_
  unfold popaRoom
  split <;> rfl

@[simp] theorem keeps_breakHit (i lin n : Nat) (w : Bool) : M.Keeps c (breakHit i lin n w) := by
  refine keeps_of_guarded fun s => ?_
  simp only [breakHit]
  repeat' split
  all_goals rfl

@[simp] theorem keeps_instrBreakHit (i lin : Nat) : M.Keeps c (instrBreakHit i lin) := by
  refine keeps_of_guarded fun s => ?_
  simp only [instrBreakHit]
  repeat' split
  all_goals rfl

@[simp] theorem keeps_instrBreaks : M.Keeps c instrBreaks := by
  unfold instrBreaks
  exact .parts

@[simp] theorem keeps_noteAccess (lin n : Nat) (w : Bool) : M.Keeps c (noteAccess lin n w) := by
  unfold noteAccess
  exact .parts

/-! ### Physical reads and writes -/

@[simp] theorem keeps_busRead (code : Bool) (attr : Attr) (a n : Nat) : M.Keeps c (busRead code attr a n) := by
  refine keeps_of_guarded fun s => ?_
  simp only [busRead]
  split <;> rfl

@[simp] theorem keeps_burst (code : Bool) (attr : Attr) (block : Nat) (os : List Nat) : M.Keeps c (burst code attr block os) := by
  induction os with
  | nil => exact keeps_pure _
  | cons o os ih => exact (keeps_busRead ..).bind fun _ => ih.bind fun _ => keeps_pure _

@[simp] theorem keeps_lineFill (attr : Attr) (a n : Nat) : M.Keeps c (lineFill attr a n) := by
  refine (keeps_burst ..).bind fun d => (keeps_modify fun s => ?_).bind fun _ => keeps_pure _
  split <;> rfl

@[simp] theorem keeps_physRead (l : Bool) (attr : Attr) (pa n : Nat) : M.Keeps c (physRead l attr pa n) := by
  refine ⟨fun s hs => ?_⟩
  simp only [physRead]
  split
  · exact hs.congr rfl
  · split
    · exact (keeps_lineFill ..).run s hs
    · exact (keeps_busRead ..).run s hs

@[simp] theorem keeps_readTransfer (l : Bool) (ps : List BytePlace) : M.Keeps c (readTransfer l ps) := by
  cases ps with
  | nil => exact keeps_pure _
  | cons p ps => exact keeps_physRead ..

@[simp] theorem keeps_readPiece (l : Bool) (ps : List BytePlace) : M.Keeps c (readPiece l ps) := by
  unfold readPiece
  exact .parts

@[simp] theorem keeps_readPieces (l : Bool) (pss : List (List BytePlace)) : M.Keeps c (readPieces l pss) := by
  induction pss with
  | nil => exact keeps_pure _
  | cons p pss ih => exact (keeps_readPiece l p).bind fun _ => ih.bind fun _ => keeps_pure _

@[simp] theorem keeps_readBytes (l : Bool) (ps : List BytePlace) : M.Keeps c (readBytes l ps) := keeps_readPieces ..

@[simp] theorem keeps_readLocked (ps : List BytePlace) : M.Keeps c (readLocked ps) := by
  unfold readLocked
  exact .parts

theorem State.InvAt.wrote {s : State} (h : s.InvAt c) (ps : List BytePlace) (v : Nat) : (s.wrote ps v).InvAt c :=
  h.touched (wrote_touches s ps v) (wrote_wf s ps v h.inv.mem)

@[simp] theorem keeps_writeBytes (ps : List BytePlace) (v : Nat) : M.Keeps c (writeBytes ps v) := ⟨fun _ h => h.wrote ps v⟩

@[simp] theorem keeps_writeAll (pss : List (List BytePlace)) (vs : List Nat) : M.Keeps c (writeAll pss vs) := by
  induction pss generalizing vs with
  | nil => exact keeps_pure _
  | cons p pss ih =>
    cases vs with
    | nil => exact keeps_pure _
    | cons v vs => exact (keeps_writeBytes p v).bind fun _ => ih vs

/-! ### Paging -/

@[simp] theorem keeps_markEntry (pa e b : Nat) (attr : Attr) : M.Keeps c (markEntry pa e b attr) := by
  unfold markEntry
  exact .parts

@[simp] theorem keeps_pageWalk (lin : Nat) (w u : Bool) : M.Keeps c (pageWalk lin w u) := by
  unfold pageWalk
  exact .parts

@[simp] theorem keeps_useEntry (e : TlbEntry) (w : Bool) : M.Keeps c (useEntry e w) := by
  refine keeps_of_guarded fun s => ?_
  unfold useEntry
  repeat' split
  all_goals rfl

@[simp] theorem keeps_translate (lin : Nat) (w u : Bool) : M.Keeps c (translate lin w u) := by
  unfold translate
  exact .parts

@[simp] theorem keeps_linLocate (lin n : Nat) (w u : Bool) : M.Keeps c (linLocate lin n w u) := by
  unfold linLocate
  exact .parts

@[simp] theorem keeps_linRead (lin n : Nat) : M.Keeps c (linRead lin n) := by
  unfold linRead
  exact .parts

/-! ### Segmented access and the stack -/

@[simp] theorem keeps_locate (sr : SegName) (off n al : Nat) (w : Bool) : M.Keeps c (locate sr off n al w) := by
  unfold locate
  exact .parts

@[simp] theorem keeps_load (sr : SegName) (off n al : Nat) : M.Keeps c (load sr off n al) := by
  unfold load
  exact .parts

theorem keeps_storePrefix (sr : SegName) (k off v : Nat) : M.Keeps c (storePrefix sr k off v) := by
  induction k generalizing off v with
  | zero => exact keeps_pure _
  | succ k ih =>
    refine ⟨fun s hs => ?_⟩
    simp only [storePrefix]
    split
    · exact hs
    next ps t h =>
      have rest : M.Keeps c (do if ← freshBool then writeBytes ps v
                                storePrefix sr k (off + 1) (v / 256)) :=
        keeps_freshBool.bind fun _ => .ite ((keeps_writeBytes ..).bind fun _ => ih _ _) ((keeps_pure _).bind fun _ => ih _ _)
      exact rest.run t ((keeps_locate ..).ok hs h)

theorem keeps_storeWith {sr : SegName} {off n al v : Nat} {write : List BytePlace → M Unit} (hw : ∀ ps, M.Keeps c (write ps)) :
    M.Keeps c (storeWith sr off n al v write) := by
  refine ⟨fun s hs => ?_⟩
  unfold storeWith
  split
  next ps t h => exact (hw ps).run t ((keeps_locate ..).ok hs h)
  next e t h =>
    have ht := (keeps_locate ..).error hs h
    split
    · exact ht
    · split
      next h' => exact ((keeps_storePrefix ..).ok ht h').congr rfl
      next h' => exact (keeps_storePrefix ..).error ht h'
  next h => exact (keeps_locate ..).error hs h

@[simp] theorem keeps_store (sr : SegName) (off n al v : Nat) : M.Keeps c (store sr off n al v) :=
  keeps_storeWith fun ps => keeps_writeBytes ps v

@[simp] theorem keeps_pushPlaces (n al k x : Nat) : M.Keeps c (pushPlaces n al k x) := by
  induction k generalizing x with
  | zero => exact keeps_pure _
  | succ k ih => exact keeps_get.bind fun _ => (keeps_locate ..).bind fun _ => (ih _).bind fun _ => keeps_pure _

@[simp] theorem keeps_pushList (n al : Nat) (vs : List Nat) : M.Keeps c (pushList n al vs) := by
  unfold pushList
  exact .parts

@[simp] theorem keeps_push (n v : Nat) : M.Keeps c (push n v) := keeps_pushList ..

@[simp] theorem keeps_pop (n : Nat) : M.Keeps c (pop n) := by
  unfold pop
  exact .parts

@[simp] theorem keeps_freeHigh (z : Size) (v : Word) : M.Keeps c (freeHigh z v) := by
  unfold freeHigh
  exact .parts

/-! ### Operands -/

@[simp] theorem keeps_loadMem (m : Mem) (d n al : Nat) : M.Keeps c (loadMem m d n al) := by
  unfold loadMem
  exact .parts

@[simp] theorem keeps_storeMem (m : Mem) (n al v : Nat) : M.Keeps c (storeMem m n al v) := by
  unfold storeMem
  exact .parts

@[simp] theorem keeps_locateMem (m : Mem) (n al : Nat) (w : Bool) : M.Keeps c (locateMem m n al w) := by
  unfold locateMem
  exact .parts

@[simp] theorem keeps_readRm (w : Width) (m : Rm) : M.Keeps c (readRm w m) := by
  cases m with
  | reg r => exact keeps_getReg ..
  | mem m => exact keeps_loadMem ..

@[simp] theorem keeps_writeRm (w : Width) (m : Rm) (v : Nat) : M.Keeps c (writeRm w m v) := by
  cases m with
  | reg r => exact keeps_setReg ..
  | mem m => exact keeps_storeMem ..

theorem keeps_modifyRm {w : Width} {m : Rm} {f : Nat → M Nat} (hf : ∀ a, M.Keeps c (f a)) : M.Keeps c (modifyRm w m f) := by
  cases m with
  | reg r => exact (keeps_getReg ..).bind fun a => (hf a).bind fun _ => keeps_setReg ..
  | mem m =>
    exact (keeps_locateMem ..).bind fun _ => (keeps_readLocked _).bind fun a => (hf a).bind fun _ => keeps_writeBytes ..

@[simp] theorem keeps_loadFar (m : Mem) (z : Size) : M.Keeps c (loadFar m z) := by
  unfold loadFar
  exact .parts

/-! ### Descriptors -/

@[simp] theorem keeps_readDesc (lin : Nat) : M.Keeps c (readDesc lin) := by
  unfold readDesc
  exact .parts

@[simp] theorem keeps_readGate (lin : Nat) : M.Keeps c (readGate lin) := by
  unfold readGate
  exact .parts

@[simp] theorem keeps_findDesc (sel : Word) : M.Keeps c (findDesc sel) := by
  unfold findDesc
  exact .parts

theorem keeps_needDesc {sel : Word} {bad : M (Nat × Desc)} (hb : M.Keeps c bad) : M.Keeps c (needDesc sel bad) := by
  refine (keeps_findDesc sel).bind fun d => ?_
  cases d with
  | some d => exact keeps_pure d
  | none => exact hb

@[simp] theorem keeps_needDesc_raiseGP (sel k : Word) : M.Keeps c (needDesc sel (raiseGP k)) := keeps_needDesc (keeps_raiseGP k)

@[simp] theorem keeps_descSpot (lin : Nat) : M.Keeps c (descSpot lin) := by
  unfold descSpot
  exact .parts

@[simp] theorem keeps_markSpot (lin : Nat) (d : Desc) : M.Keeps c (markSpot lin d) := by
  unfold markSpot
  exact .parts

@[simp] theorem keeps_setMark (sp : Spot) (bits : BitVec 4) : M.Keeps c (setMark sp bits) := by
  cases sp with
  | none => exact keeps_pure _
  | some ps => exact (keeps_readBytes ..).bind fun _ => keeps_writeBytes ..

@[simp] theorem keeps_accessed (a : Nat) (d : Desc) : M.Keeps c (accessed a d) := by
  unfold accessed
  exact .parts

theorem keeps_checkSS {sel : Word} {cpl : BitVec 2} {null : M (Hidden × Spot)} {bad : M (Nat × Desc)}
    (hn : M.Keeps c null) (hb : M.Keeps c bad) : M.Keeps c (checkSS sel cpl null bad) := by
  have := keeps_needDesc (sel := sel) hb
  unfold checkSS
  refine .ite hn (this.bind fun p => ?_)
  have rest : M.Keeps c (do if !p.2.present then raiseSS (selCode sel)
                            let sp ← markSpot p.1 p.2
                            pure (p.2.marked, sp)) := .parts
  exact .ite (hb.bind fun _ => rest) rest

@[simp] theorem keeps_loadDataSeg (n : SegName) (sel : Word) : M.Keeps c (loadDataSeg n sel) := by
  unfold loadDataSeg
  exact .parts

@[simp] theorem keeps_loadSeg (n : SegName) (sel : Word) : M.Keeps c (loadSeg n sel) := by
  have hss : ∀ cpl, M.Keeps c (checkSS sel cpl (raiseGP 0) (raiseGP (selCode sel))) :=
    fun _ => keeps_checkSS (keeps_raiseGP _) (keeps_raiseGP _)
  refine keeps_get.bind fun s => .ite (keeps_setSeg ..) ?_
  cases n with
  | ss => exact (hss _).bind fun _ => (keeps_setMark ..).bind fun _ => keeps_setSeg ..
  | es | cs | ds | fs | gs => exact keeps_loadDataSeg ..

/-! ### Ports -/

@[simp] theorem keeps_ioPermission (port n : Nat) : M.Keeps c (ioPermission port n) := by
  unfold ioPermission
  exact .parts

@[simp] theorem keeps_ioCheck (port n : Nat) : M.Keeps c (ioCheck port n) := by
  unfold ioCheck
  exact .parts

@[simp] theorem keeps_ioReadCycle (port n : Nat) : M.Keeps c (ioReadCycle port n) := keeps_of_guarded fun _ => rfl
@[simp] theorem keeps_ioWriteCycle (port n v : Nat) : M.Keeps c (ioWriteCycle port n v) := keeps_of_guarded fun _ => rfl

@[simp] theorem keeps_ioReadWrapped (port n : Nat) : M.Keeps c (ioReadWrapped port n) := by
  induction n generalizing port with
  | zero => exact keeps_pure _
  | succ n ih => exact (keeps_ioReadCycle ..).bind fun _ => (ih _).bind fun _ => keeps_pure _

@[simp] theorem keeps_ioWriteWrapped (port n v : Nat) : M.Keeps c (ioWriteWrapped port n v) := by
  induction n generalizing port v with
  | zero => exact keeps_pure _
  | succ n ih => exact (keeps_ioWriteCycle ..).bind fun _ => ih _ _

@[simp] theorem keeps_ioRead (port n : Nat) : M.Keeps c (ioRead port n) := by
  unfold ioRead
  exact .parts

@[simp] theorem keeps_ioWrite (port n v : Nat) : M.Keeps c (ioWrite port n v) := by
  unfold ioWrite
  exact .parts

/-! ### Control transfers -/

@[simp] theorem keeps_nearJump (t : Nat) : M.Keeps c (nearJump t) := by
  unfold nearJump
  exact .parts

@[simp] theorem keeps_farSystem (sel : Word) (type : BitVec 4) : M.Keeps c (farSystem sel type) := by
  unfold farSystem
  exact .parts

@[simp] theorem keeps_farTarget (sel : Word) (off : DWord) : M.Keeps c (farTarget sel off) := by
  unfold farTarget
  exact .parts

@[simp] theorem keeps_commitFar (t : FarTarget) : M.Keeps c (commitFar t) := by
  unfold commitFar
  exact .parts

@[simp] theorem keeps_returnTarget (sel : Word) (off : DWord) : M.Keeps c (returnTarget sel off) := by
  unfold returnTarget
  exact .parts

end
end Sys2Proof.Machine
end

section
/-! The bodies of the integer and system instructions, and what wraps them, keep the invariant. -/
set_option Elab.async false

namespace Sys2Proof.Machine
section
variable {c : DWord} {α β : Type}

/-! ### Arithmetic and logic -/

@[simp] theorem keeps_logicOp (n r : Nat) : M.Keeps c (logicOp n r) := by
  unfold logicOp
  exact .parts

@[simp] theorem keeps_addOp (n a b : Nat) : M.Keeps c (addOp n a b) := by
  unfold addOp
  exact .parts

@[simp] theorem keeps_adcOp (n a b : Nat) : M.Keeps c (adcOp n a b) := by
  unfold adcOp
  exact .parts

@[simp] theorem keeps_subOp (n a b : Nat) : M.Keeps c (subOp n a b) := by
  unfold subOp
  exact .parts

@[simp] theorem keeps_sbbOp (n a b : Nat) : M.Keeps c (sbbOp n a b) := by
  unfold sbbOp
  exact .parts

@[simp] theorem keeps_cmpOp (n a b : Nat) : M.Keeps c (cmpOp n a b) := keeps_modFlags _

theorem keeps_aluWrite {op : Nat → Nat → Nat → M Nat} (h : ∀ n a b, M.Keeps c (op n a b)) (f : AluForm) :
    M.Keeps c (aluWrite op f) := by
  have hm : ∀ (w : Width) (m : Rm) (n b : Nat), M.Keeps c (modifyRm w m (fun a => op n a b)) :=
    fun _ _ n b => keeps_modifyRm fun a => h n a b
  refine keeps_getWidth.bind fun v => ?_
  cases f with
  | ebGb | evGv => exact (keeps_getReg ..).bind fun _ => hm ..
  | gbEb | gvEv => exact (keeps_readRm ..).bind fun _ => hm ..
  | alIb | eaxIv | eb80 | ev81 | eb82 | ev83 => exact hm ..

theorem keeps_aluRead {op : Nat → Nat → Nat → M Unit} (h : ∀ n a b, M.Keeps c (op n a b)) (f : AluForm) :
    M.Keeps c (aluRead op f) := by
  refine keeps_getWidth.bind fun v => ?_
  cases f with
  | ebGb | evGv => exact (keeps_readRm ..).bind fun _ => (keeps_getReg ..).bind fun _ => h ..
  | gbEb | gvEv => exact (keeps_getReg ..).bind fun _ => (keeps_readRm ..).bind fun _ => h ..
  | alIb | eaxIv => exact (keeps_getReg ..).bind fun _ => h ..
  | eb80 | ev81 | eb82 | ev83 => exact (keeps_readRm ..).bind fun _ => h ..

@[simp] theorem keeps_testBody (f : TestForm) : M.Keeps c (testBody f) := by
  unfold testBody
  exact .parts

@[simp] theorem keeps_incOp (n a : Nat) : M.Keeps c (incOp n a) := by
  unfold incOp
  exact .parts

@[simp] theorem keeps_decOp (n a : Nat) : M.Keeps c (decOp n a) := by
  unfold decOp
  exact .parts

@[simp] theorem keeps_negOp (n a : Nat) : M.Keeps c (negOp n a) := by
  unfold negOp
  exact .parts

theorem keeps_incBody {op : Nat → Nat → M Nat} (h : ∀ n a, M.Keeps c (op n a)) (f : IncForm) : M.Keeps c (incBody op f) := by
  refine keeps_getWidth.bind fun v => ?_
  cases f with
  | reg | eb | ev => exact keeps_modifyRm (h _)

theorem keeps_unaryBody {op : Nat → Nat → M Nat} (h : ∀ n a, M.Keeps c (op n a)) (f : UnaryForm) :
    M.Keeps c (unaryBody op f) :=
  keeps_getWidth.bind fun _ => keeps_modifyRm (h _)

@[simp] theorem keeps_setDouble (w : Width) (v : Nat) : M.Keeps c (setDouble w v) := by
  unfold setDouble
  exact .parts

@[simp] theorem keeps_getDouble (w : Width) : M.Keeps c (getDouble w) := by
  unfold getDouble
  exact .parts

@[simp] theorem keeps_mulFlags (b : Bool) : M.Keeps c (mulFlags b) := by
  unfold mulFlags
  exact .parts

@[simp] theorem keeps_mulBody (f : UnaryForm) : M.Keeps c (mulBody f) := by
  unfold mulBody
  exact .parts

@[simp] theorem keeps_imulWide (w : Width) (m : Rm) : M.Keeps c (imulWide w m) := by
  unfold imulWide
  exact .parts

@[simp] theorem keeps_imulNarrow (w : Width) (r : RegNum) (a b : Nat) : M.Keeps c (imulNarrow w r a b) := by
  unfold imulNarrow
  exact .parts

@[simp] theorem keeps_imulBody (f : ImulForm) : M.Keeps c (imulBody f) := by
  unfold imulBody
  exact .parts

@[simp] theorem keeps_setQuotient (w : Width) (q r : Nat) : M.Keeps c (setQuotient w q r) := by
  unfold setQuotient
  exact .parts

@[simp] theorem keeps_divBody (f : UnaryForm) : M.Keeps c (divBody f) := by
  unfold divBody
  exact .parts

@[simp] theorem keeps_idivBody (f : UnaryForm) : M.Keeps c (idivBody f) := by
  unfold idivBody
  exact .parts

@[simp] theorem keeps_xaddBody (f : XaddForm) : M.Keeps c (xaddBody f) :=
  keeps_getWidth.bind fun _ => (keeps_getReg ..).bind fun _ => keeps_modifyRm fun _ => .parts

@[simp] theorem keeps_cmpxchgBody (f : XaddForm) : M.Keeps c (cmpxchgBody f) :=
  keeps_getWidth.bind fun _ => (keeps_getReg ..).bind fun _ => (keeps_getReg ..).bind fun _ => keeps_modifyRm fun _ => .parts

@[simp] theorem keeps_getAX : M.Keeps c getAX := by
  unfold getAX
  exact .parts

@[simp] theorem keeps_setAX (al ah : Nat) : M.Keeps c (setAX al ah) := keeps_setReg ..

@[simp] theorem keeps_aaaFlags (b : Bool) : M.Keeps c (aaaFlags b) := by
  unfold aaaFlags
  exact .parts

@[simp] theorem keeps_aadFlags (al : Nat) : M.Keeps c (aadFlags al) := by
  unfold aadFlags
  exact .parts

@[simp] theorem keeps_setDecimal (al : Nat) (af cf : Bool) : M.Keeps c (setDecimal al af cf) := by
  unfold setDecimal
  exact .parts

@[simp] theorem keeps_aaaBody : M.Keeps c aaaBody := by
  unfold aaaBody
  exact .parts

@[simp] theorem keeps_aasBody : M.Keeps c aasBody := by
  unfold aasBody
  exact .parts

@[simp] theorem keeps_aadBody (imm : Byte) : M.Keeps c (aadBody imm) := by
  unfold aadBody
  exact .parts

@[simp] theorem keeps_aamBody (imm : Byte) : M.Keeps c (aamBody imm) := by
  unfold aamBody
  exact .parts

@[simp] theorem keeps_daaBody : M.Keeps c daaBody := by
  unfold daaBody
  exact .parts

@[simp] theorem keeps_dasBody : M.Keeps c dasBody := by
  unfold dasBody
  exact .parts

/-! ### Shifts, rotates and bits -/

@[simp] theorem keeps_orFree (b : Option Bool) : M.Keeps c (orFree b) := by
  unfold orFree
  exact .parts

@[simp] theorem keeps_rotateFlags (x : Shifted) : M.Keeps c (rotateFlags x) := by
  unfold rotateFlags
  exact .parts

@[simp] theorem keeps_shiftFlags (n : Nat) (x : Shifted) : M.Keeps c (shiftFlags n x) := by
  unfold shiftFlags
  exact .parts

@[simp] theorem keeps_shiftWith (op : Nat → Nat → Nat → Shifted) (n k a : Nat) : M.Keeps c (shiftWith op n k a) := by
  unfold shiftWith
  exact .parts

theorem keeps_groupTwo {live : Nat → Nat → Bool} {op : Nat → Nat → Nat → M Nat} (h : ∀ n k a, M.Keeps c (op n k a))
    (w : Width) (m : Rm) (count : Nat) : M.Keeps c (groupTwo live op w m count) := by
  refine .ite (keeps_modifyRm (h _ _)) ?_
  cases m with
  | reg r => exact keeps_pure _
  | mem m => exact (keeps_readRm ..).bind fun _ => keeps_pure _

theorem keeps_shiftBody {live : Nat → Nat → Bool} {op : Nat → Nat → Nat → M Nat} (h : ∀ n k a, M.Keeps c (op n k a))
    (f : ShiftForm) : M.Keeps c (shiftBody live op f) := by
  refine keeps_getWidth.bind fun _ => (keeps_getReg ..).bind fun _ => ?_
  cases f <;> exact keeps_groupTwo h ..

@[simp] theorem keeps_dshiftOp (r : Nat → Nat → Nat → Nat → Nat) (cf : Nat → Nat → Nat → Bool) (b n k a : Nat) :
    M.Keeps c (dshiftOp r cf b n k a) := by
  unfold dshiftOp
  exact .parts

theorem keeps_dshiftBody {op : Nat → Nat → Nat → Nat → M Nat} (h : ∀ b n k a, M.Keeps c (op b n k a)) (f : DshiftForm) :
    M.Keeps c (dshiftBody op f) := by
  refine keeps_getWidth.bind fun _ => (keeps_getReg ..).bind fun _ => ?_
  cases f <;> exact (keeps_getReg ..).bind fun _ => keeps_groupTwo (h _) ..

@[simp] theorem keeps_selectBit (f : BitForm) : M.Keeps c (selectBit f) := by
  unfold selectBit
  exact .parts

@[simp] theorem keeps_bitFlags (b : Bool) : M.Keeps c (bitFlags b) := by
  unfold bitFlags
  exact .parts

@[simp] theorem keeps_btBody (f : BitForm) : M.Keeps c (btBody f) := by
  unfold btBody
  exact .parts

@[simp] theorem keeps_bitModify (new : Bool → Bool) (f : BitForm) : M.Keeps c (bitModify new f) := by
  unfold bitModify
  exact .parts

@[simp] theorem keeps_scanBody (index : Nat → Nat → Nat) (r : RegNum) (m : Rm) : M.Keeps c (scanBody index r m) := by
  unfold scanBody
  exact .parts

/-! ### Control transfer -/

@[simp] theorem keeps_jmpBody (f : JmpForm) : M.Keeps c (jmpBody f) := by
  unfold jmpBody
  exact .parts

@[simp] theorem keeps_jccBody (cc : Cond) (f : JccForm) : M.Keeps c (jccBody cc f) := by
  unfold jccBody
  exact .parts

@[simp] theorem keeps_jcxzBody (rel : Byte) : M.Keeps c (jcxzBody rel) := by
  unfold jcxzBody
  exact .parts

@[simp] theorem keeps_loopBody (ok : Bool → Bool) (rel : Byte) : M.Keeps c (loopBody ok rel) := by
  unfold loopBody
  exact .parts

@[simp] theorem keeps_nearCall (t : Nat) : M.Keeps c (nearCall t) := by
  unfold nearCall
  exact .parts

@[simp] theorem keeps_farCall (sel : Word) (off : DWord) : M.Keeps c (farCall sel off) := by
  unfold farCall
  exact .parts

@[simp] theorem keeps_callBody (f : CallForm) : M.Keeps c (callBody f) := by
  unfold callBody
  exact .parts

@[simp] theorem keeps_retBody (f : RetForm) : M.Keeps c (retBody f) := by
  unfold retBody
  exact .parts

/-- CPL may change where PE is 1: the invariant fixes it in real mode only. -/
theorem keeps_setCpl {g : State → State} (hc : c.getLsbD 0 = true)
    (h : ∀ s, (g s).guarded = (s.mem, s.cr0, s.cr3, s.dbg, (g s).cpl)) : M.Keeps c (modify g) := by
  refine ⟨fun s hs => ?_⟩
  have e := h s
  simp only [State.guarded, Prod.mk.injEq, and_true] at e
  obtain ⟨hm, h0, h3, hd⟩ := e
  have hp : (g s).pe = true := by rw [State.pe, h0, hs.cr0, hc]
  have keepsRest : (g s).Inv :=
    { mem := hm ▸ hs.inv.mem
      cr0Reserved := h0 ▸ hs.inv.cr0Reserved
      cr3Reserved := h3 ▸ hs.inv.cr3Reserved
      dr6Reserved := hd ▸ hs.inv.dr6Reserved
      dr7Reserved := hd ▸ hs.inv.dr7Reserved
      paging := fun _ => hp
      caching := by simp only [State.nw, State.cd, h0]; exact hs.inv.caching
      realCpl := fun hf => absurd (hf.symm.trans hp) (by decide) }
  exact ⟨keepsRest, h0.trans hs.cr0⟩

/-- A protection-enable bit that is read of the state is that of CR0. -/
theorem State.InvAt.pe_eq {s : State} (h : s.InvAt c) : s.pe = c.getLsbD 0 := by rw [State.pe, h.cr0]

@[simp] theorem keeps_checkSS_raiseGP (sel : Word) (cpl : BitVec 2) (k l : Word) :
    M.Keeps c (checkSS sel cpl (raiseGP k) (raiseGP l)) := keeps_checkSS (keeps_raiseGP k) (keeps_raiseGP l)

@[simp] theorem keeps_checkSS_raiseTS (sel : Word) (cpl : BitVec 2) (k l : Word) :
    M.Keeps c (checkSS sel cpl (raiseTS k) (raiseTS l)) := keeps_checkSS (keeps_raiseTS k) (keeps_raiseTS l)

@[simp] theorem keeps_farReturn (n imm : Nat) (sel : Word) (off : DWord) : M.Keeps c (farReturn n imm sel off) := by
  refine .getBind fun s hs => ?_
  cases hp : c.getLsbD 0 with
  | false =>
    rw [if_pos (by rw [hs.pe_eq, hp]; rfl)]
    exact .parts
  | true =>
    rw [if_neg (by rw [hs.pe_eq, hp]; decide)]
    refine (keeps_returnTarget ..).bind fun p => .ite .parts ?_
    refine (keeps_setSP _).bind fun _ => (keeps_pop _).bind fun _ => (keeps_pop _).bind fun _ => ?_
    refine (keeps_checkSS_raiseGP ..).bind fun _ => (keeps_markSpot ..).bind fun _ => ?_
    refine (keeps_setMark ..).bind fun _ => (keeps_setMark ..).bind fun _ => ?_
    exact M.Keeps.bind (keeps_setCpl hp fun _ => rfl) fun _ => keeps_setSP _

@[simp] theorem keeps_retfBody (f : RetForm) : M.Keeps c (retfBody f) := by
  unfold retfBody
  exact .parts

@[simp] theorem keeps_interruptReturn : M.Keeps c interruptReturn := by
  unfold interruptReturn
  exact .parts

@[simp] theorem keeps_loadBound (m : Mem) (k n : Nat) : M.Keeps c (loadBound m k n) := by
  refine ⟨fun s hs => ?_⟩
  unfold loadBound
  split
  · exact hs
  · exact (keeps_loadMem ..).run s hs

@[simp] theorem keeps_boundBody (r : RegNum) (m : Mem) : M.Keeps c (boundBody r m) := by
  unfold boundBody
  exact .parts

@[simp] theorem keeps_framePlaces (n bits k bp : Nat) : M.Keeps c (framePlaces n bits k bp) := by
  induction k generalizing bp with
  | zero => exact keeps_pure _
  | succ k ih => exact (keeps_locate ..).bind fun _ => (ih _).bind fun _ => keeps_pure _

@[simp] theorem keeps_copyFrames (srcs dsts : List (List BytePlace)) : M.Keeps c (copyFrames srcs dsts) := by
  induction srcs generalizing dsts with
  | nil => exact keeps_pure _
  | cons src srcs ih =>
    cases dsts with
    | nil => exact keeps_pure _
    | cons dst dsts => exact (keeps_readBytes ..).bind fun _ => (keeps_writeBytes ..).bind fun _ => ih dsts

@[simp] theorem keeps_enterBody (size : Word) (level : Byte) : M.Keeps c (enterBody size level) := by
  unfold enterBody
  exact .parts

@[simp] theorem keeps_leaveBody : M.Keeps c leaveBody := by
  unfold leaveBody
  exact .parts

/-! ### The entry to a handler -/

theorem Event.effects_cr0 (ev : Event) (s : State) : (ev.effects s).cr0 = s.cr0 := by
  unfold Event.effects
  repeat' split
  all_goals rfl

/-- Bits that a mask clears stay clear when more are cleared. -/
theorem and_and_eq_zero {n : Nat} {x m : BitVec n} (h : x &&& m = 0) (y : BitVec n) : x &&& y &&& m = 0 := by
  rw [BitVec.and_assoc, BitVec.and_comm y m, ← BitVec.and_assoc, h]
  exact BitVec.zero_and

/-- Clearing DR7.GD touches no reserved bit (10_state R50). -/
theorem State.Inv.effects {s : State} (h : s.Inv) (ev : Event) : (ev.effects s).Inv := by
  unfold Event.effects
  split
  · exact h.congr rfl
  · split
    · exact { h with dr7Reserved := and_and_eq_zero h.dr7Reserved _ }
    · exact h
  · exact h

theorem keeps_modify_effects (ev : Event) {g : State → State} (h : ∀ s, (g s).guarded = s.guarded) :
    M.Keeps c (modify fun s => ev.effects (g s)) :=
  ⟨fun s hs => ⟨(hs.inv.congr (h s)).effects ev, (ev.effects_cr0 _).trans (hs.congr (h s)).cr0⟩⟩

@[simp] theorem keeps_enterReal (ev : Event) : M.Keeps c (enterReal ev) := by
  have rest : ∀ s : State, M.Keeps c (do
      pushList 2 1 [(ev.image s.flags).toNat % 2 ^ 16, ev.cs.toNat, ev.ip.toNat % 2 ^ 16]
      let off ← linRead (s.idtr.base.toNat + 4 * ev.vector.toNat) 2
      let sel ← linRead (s.idtr.base.toNat + 4 * ev.vector.toNat + 2) 2
      modify (fun s => ev.effects { s with
        flags := { s.flags with intf := false, tf := false }
        segs := s.segs.set .cs (s.segs.cs.realLoad (BitVec.ofNat 16 sel))
        eip := BitVec.ofNat 32 off })) := fun _ =>
    (keeps_pushList ..).bind fun _ => (keeps_linRead ..).bind fun _ => (keeps_linRead ..).bind fun _ =>
      keeps_modify_effects ev fun _ => rfl
  exact keeps_get.bind fun s => .ite (keeps_raiseGP_bind ..) (rest s)

@[simp] theorem keeps_pushedCode (v : Byte) (z : Size) (k : Word) : M.Keeps c (pushedCode v z k) := by
  unfold pushedCode
  exact .parts

@[simp] theorem keeps_entryItems (ev : Event) (f : Flags) (z : Size) : M.Keeps c (entryItems ev f z) := by
  unfold entryItems
  exact .parts

@[simp] theorem keeps_finishEntry (ev : Event) (g d : Desc) (a : Nat) (z : Size) (sp : Spot) (items : List Nat) :
    M.Keeps c (finishEntry ev g d a z sp items) := by
  refine (keeps_pushPlaces ..).bind fun pss => .ite (keeps_raiseGP_bind ..) ?_
  refine (keeps_markSpot ..).bind fun _ => (keeps_setMark ..).bind fun _ => (keeps_setMark ..).bind fun _ => ?_
  refine (keeps_writeAll ..).bind fun _ => keeps_get.bind fun s => (keeps_setSP _).bind fun _ => ?_
  exact keeps_modify_effects ev fun _ => rfl

@[simp] theorem keeps_innerStack (n : Nat) : M.Keeps c (innerStack n) := by
  unfold innerStack
  exact .parts

theorem keeps_enterInner (hc : c.getLsbD 0 = true) (ev : Event) (g d : Desc) (a : Nat) (z : Size) :
    M.Keeps c (enterInner ev g d a z) := by
  refine keeps_get.bind fun s => (keeps_innerStack _).bind fun _ => (keeps_checkSS_raiseTS ..).bind fun _ => ?_
  refine M.Keeps.bind (keeps_setCpl hc fun _ => rfl) fun _ => ?_
  exact (keeps_freeHigh ..).bind fun _ => (keeps_entryItems ..).bind fun _ => keeps_finishEntry ..

theorem keeps_enterProtected (hc : c.getLsbD 0 = true) (ev : Event) : M.Keeps c (enterProtected ev) := by
  have := fun g d a z => keeps_enterInner hc ev g d a z
  unfold enterProtected
  exact .parts

@[simp] theorem keeps_enterHandler (ev : Event) : M.Keeps c (enterHandler ev) := by
  refine .getBind fun s hs => ?_
  split
  next hp => exact keeps_enterProtected (hs.pe_eq ▸ hp) ev
  next => exact keeps_enterReal ev

@[simp] theorem keeps_softInt (v : Byte) : M.Keeps c (softInt v) := by
  unfold softInt
  exact .parts

@[simp] theorem keeps_intoBody : M.Keeps c intoBody := by
  unfold intoBody
  exact .parts

/-! ### System instructions -/

@[simp] theorem keeps_loadTable (m : Mem) : M.Keeps c (loadTable m) := by
  unfold loadTable
  exact .parts

@[simp] theorem keeps_lgdtBody (m : Mem) : M.Keeps c (lgdtBody m) := by
  unfold lgdtBody
  exact .parts

@[simp] theorem keeps_lidtBody (m : Mem) : M.Keeps c (lidtBody m) := by
  unfold lidtBody
  exact .parts

@[simp] theorem keeps_tableAlign (sr : SegName) (off : Nat) : M.Keeps c (tableAlign sr off) := by
  have aligned : ∀ lin, M.Keeps c (do alignCheck lin 2
                                      alignCheck (lin + 2) 4) := fun _ => .parts
  refine ⟨fun s hs => ?_⟩
  unfold tableAlign
  split
  next lin t h => exact (aligned lin).run t ((keeps_segCheck ..).ok hs h)
  next => exact hs

@[simp] theorem keeps_storeTable (t : TableReg) (m : Mem) : M.Keeps c (storeTable t m) := by
  have write : ∀ limit base ps, M.Keeps c (writeTable limit base ps) := fun _ _ _ =>
    (keeps_writeBytes ..).bind fun _ => keeps_writeBytes ..
  refine keeps_get.bind fun s => M.Keeps.bind .parts fun base => ?_
  exact (keeps_tableAlign ..).bind fun _ => keeps_storeWith (write _ _)

@[simp] theorem keeps_sgdtBody (m : Mem) : M.Keeps c (sgdtBody m) := by
  unfold sgdtBody
  exact .parts

@[simp] theorem keeps_sidtBody (m : Mem) : M.Keeps c (sidtBody m) := by
  unfold sidtBody
  exact .parts

@[simp] theorem keeps_gdtDesc (sel : Word) : M.Keeps c (gdtDesc sel) := by
  unfold gdtDesc
  exact .parts

@[simp] theorem keeps_lldtBody (m : Rm) : M.Keeps c (lldtBody m) := by
  unfold lldtBody
  exact .parts

@[simp] theorem keeps_ltrBody (m : Rm) : M.Keeps c (ltrBody m) := by
  unfold ltrBody
  exact .parts

@[simp] theorem keeps_writeSystemWord (m : Rm) (v : Word) : M.Keeps c (writeSystemWord m v) := by
  unfold writeSystemWord
  exact .parts

@[simp] theorem keeps_sldtBody (m : Rm) : M.Keeps c (sldtBody m) := by
  unfold sldtBody
  exact .parts

@[simp] theorem keeps_strBody (m : Rm) : M.Keeps c (strBody m) := by
  unfold strBody
  exact .parts

@[simp] theorem keeps_smswBody (m : Rm) : M.Keeps c (smswBody m) := by
  unfold smswBody
  exact .parts

@[simp] theorem keeps_freeFlags : M.Keeps c freeFlags := by
  unfold freeFlags
  exact .parts

@[simp] theorem keeps_movFromCr (n r : RegNum) : M.Keeps c (movFromCr n r) := by
  unfold movFromCr
  exact .parts

@[simp] theorem keeps_movFromTr (n r : RegNum) : M.Keeps c (movFromTr n r) := by
  unfold movFromTr
  exact .parts

@[simp] theorem keeps_movToTr (n r : RegNum) : M.Keeps c (movToTr n r) := by
  unfold movToTr
  exact .parts

@[simp] theorem keeps_inspect (sel : Word) : M.Keeps c (inspect sel) := by
  unfold inspect
  exact .parts

@[simp] theorem keeps_setZF (b : Bool) : M.Keeps c (setZF b) := keeps_modFlags _

@[simp] theorem keeps_inspectInto (types : BitVec 4 → Bool) (value : Size → Desc → Nat) (r : RegNum) (m : Rm) :
    M.Keeps c (inspectInto types value r m) := by
  unfold inspectInto
  exact .parts

@[simp] theorem keeps_verify (ok : Desc → BitVec 2 → Word → Bool) (m : Rm) : M.Keeps c (verify ok m) := by
  unfold verify
  exact .parts

@[simp] theorem keeps_arplBody (r : RegNum) (m : Rm) : M.Keeps c (arplBody r m) := by
  have raised : ∀ k : Nat, M.Keeps c (modifyRm .w16 m (fun d => pure (d / 4 * 4 + k % 4))) :=
    fun _ => keeps_modifyRm fun _ => keeps_pure _
  unfold arplBody
  exact .parts

@[simp] theorem keeps_invdBody : M.Keeps c invdBody := by
  unfold invdBody
  exact .parts

@[simp] theorem keeps_wbinvdBody : M.Keeps c wbinvdBody := by
  unfold wbinvdBody
  exact .parts

@[simp] theorem keeps_invlpgBody (m : Mem) : M.Keeps c (invlpgBody m) := by
  unfold invlpgBody
  exact .parts

@[simp] theorem keeps_hltBody : M.Keeps c hltBody := by
  unfold hltBody
  exact .parts

/-! ### Debug registers: reserved bits of DR6 and DR7 are fixed (10_state R50, R54) -/

/-- An update of the debug registers that leaves the reserved bits as they read. -/
theorem State.Inv.withDbg {s : State} (h : s.Inv) {d : DebugRegs} (h6 : d.dr6 &&& 0xFFFF1FF0 = 0xFFFF0FF0)
    (h7 : d.dr7 &&& 0x0000DC00 = 0) : { s with dbg := d }.Inv :=
  { h with dr6Reserved := h6, dr7Reserved := h7 }

/-- Bits that a mask does not show may be set. -/
theorem or_and_of_and_eq_zero {n : Nat} {x y m : BitVec n} (h : y &&& m = 0) : (x ||| y) &&& m = x &&& m := by
  rw [BitVec.and_comm, BitVec.and_or_distrib_left, BitVec.and_comm m y, h, BitVec.and_comm m x]
  exact BitVec.or_zero

theorem DebugRegs.set_dr6_reserved {d : DebugRegs} (h : d.dr6 &&& 0xFFFF1FF0 = 0xFFFF0FF0) (n : RegNum) (v : DWord) :
    (d.set n v).dr6 &&& 0xFFFF1FF0 = 0xFFFF0FF0 := by
  unfold DebugRegs.set
  split
  case h_5 | h_6 =>
    rw [BitVec.or_comm]
    exact or_and_of_and_eq_zero (by rw [BitVec.and_assoc]; exact BitVec.and_zero)
  all_goals exact h

theorem DebugRegs.set_dr7_reserved {d : DebugRegs} (h : d.dr7 &&& 0x0000DC00 = 0) (n : RegNum) (v : DWord) :
    (d.set n v).dr7 &&& 0x0000DC00 = 0 := by
  unfold DebugRegs.set
  split
  case h_7 => rw [BitVec.and_assoc]; exact BitVec.and_zero
  all_goals exact h

@[simp] theorem keeps_setDebugReg (n : RegNum) (v : DWord) :
    M.Keeps c (modify fun s => { s with dbg := s.dbg.set n v }) :=
  ⟨fun _ hs => ⟨hs.inv.withDbg (DebugRegs.set_dr6_reserved hs.inv.dr6Reserved n v)
    (DebugRegs.set_dr7_reserved hs.inv.dr7Reserved n v), hs.cr0⟩⟩

/-- General detect sets DR6.BD, which is no reserved bit (R550). -/
@[simp] theorem keeps_debugAccess : M.Keeps c debugAccess := by
  refine keeps_requireCpl0.bind fun _ => ⟨fun s hs => ?_⟩
  have detected : { s with dbg := { s.dbg with dr6 := setBit s.dbg.dr6 13 true } }.InvAt c :=
    ⟨hs.inv.withDbg ((or_and_of_and_eq_zero (by decide)).trans hs.inv.dr6Reserved) hs.inv.dr7Reserved, hs.cr0⟩
  simp only [M.bind_run, M.get_run]
  split
  · exact detected
  · exact hs

@[simp] theorem keeps_movFromDr (n r : RegNum) : M.Keeps c (movFromDr n r) := by
  unfold movFromDr
  exact .parts

@[simp] theorem keeps_movToDr (n r : RegNum) : M.Keeps c (movToDr n r) :=
  keeps_debugAccess.bind fun _ => (keeps_getReg ..).bind fun _ => (keeps_setDebugReg ..).bind fun _ => keeps_freeFlags

/-! ### Data movement, the stack, strings, the FPU -/

@[simp] theorem keeps_movFromSeg (r : RegNum) (m : Rm) : M.Keeps c (movFromSeg r m) := by
  unfold movFromSeg
  exact .parts

@[simp] theorem keeps_movToSeg (r : RegNum) (m : Rm) : M.Keeps c (movToSeg r m) := by
  unfold movToSeg
  exact .parts

@[simp] theorem keeps_loadMoffs (w : Width) (off : DWord) : M.Keeps c (loadMoffs w off) := by
  unfold loadMoffs
  exact .parts

@[simp] theorem keeps_storeMoffs (w : Width) (off : DWord) : M.Keeps c (storeMoffs w off) := by
  unfold storeMoffs
  exact .parts

@[simp] theorem keeps_movxBody (extend : Nat → Nat → Nat → Nat) (f : MovxForm) : M.Keeps c (movxBody extend f) := by
  unfold movxBody
  exact .parts

@[simp] theorem keeps_exchange (w : Width) (r : RegNum) (m : Rm) : M.Keeps c (exchange w r m) := by
  unfold exchange
  exact .parts

@[simp] theorem keeps_xchgBody (f : XchgForm) : M.Keeps c (xchgBody f) := by
  unfold xchgBody
  exact .parts

@[simp] theorem keeps_bswapBody (r : RegNum) : M.Keeps c (bswapBody r) := by
  unfold bswapBody
  exact .parts

@[simp] theorem keeps_pushValue (f : PushForm) : M.Keeps c (pushValue f) := by
  unfold pushValue
  exact .parts

@[simp] theorem keeps_pushBody (f : PushForm) : M.Keeps c (pushBody f) := by
  unfold pushBody
  exact .parts

@[simp] theorem keeps_popSeg (n : SegName) : M.Keeps c (popSeg n) := by
  unfold popSeg
  exact .parts

@[simp] theorem keeps_popBody (f : PopForm) : M.Keeps c (popBody f) := by
  unfold popBody
  exact .parts

@[simp] theorem keeps_pushaBody : M.Keeps c pushaBody := by
  unfold pushaBody
  exact .parts

@[simp] theorem keeps_skipStack (n : Nat) : M.Keeps c (skipStack n) := by
  unfold skipStack
  exact .parts

@[simp] theorem keeps_popaBody : M.Keeps c popaBody := by
  unfold popaBody
  exact .parts

@[simp] theorem keeps_pushfBody : M.Keeps c pushfBody := by
  unfold pushfBody
  exact .parts

@[simp] theorem keeps_popfBody : M.Keeps c popfBody := by
  unfold popfBody
  exact .parts

@[simp] theorem keeps_leaBody (r : RegNum) (m : Mem) : M.Keeps c (leaBody r m) := by
  unfold leaBody
  exact .parts

@[simp] theorem keeps_xlatBody : M.Keeps c xlatBody := by
  unfold xlatBody
  exact .parts

@[simp] theorem keeps_cbwBody : M.Keeps c cbwBody := by
  unfold cbwBody
  exact .parts

@[simp] theorem keeps_cwdBody : M.Keeps c cwdBody := by
  unfold cwdBody
  exact .parts

@[simp] theorem keeps_loadPointer (n : SegName) (r : RegNum) (m : Mem) : M.Keeps c (loadPointer n r m) := by
  unfold loadPointer
  exact .parts

@[simp] theorem keeps_cliBody : M.Keeps c cliBody := by
  unfold cliBody
  exact .parts

@[simp] theorem keeps_stiBody : M.Keeps c stiBody := by
  unfold stiBody
  exact .parts

@[simp] theorem keeps_setccBody (cc : Cond) (m : Rm) : M.Keeps c (setccBody cc m) := by
  unfold setccBody
  exact .parts

@[simp] theorem keeps_inPort (w : Width) (port : Nat) : M.Keeps c (inPort w port) := by
  unfold inPort
  exact .parts

@[simp] theorem keeps_inBody (f : InForm) : M.Keeps c (inBody f) := by
  unfold inBody
  exact .parts

@[simp] theorem keeps_outPort (w : Width) (port : Nat) : M.Keeps c (outPort w port) := by
  unfold outPort
  exact .parts

@[simp] theorem keeps_outBody (f : OutForm) : M.Keeps c (outBody f) := by
  unfold outBody
  exact .parts

@[simp] theorem keeps_loadSource (n : Nat) : M.Keeps c (loadSource n) := by
  unfold loadSource
  exact .parts

@[simp] theorem keeps_loadDest (n : Nat) : M.Keeps c (loadDest n) := by
  unfold loadDest
  exact .parts

@[simp] theorem keeps_destPlaces (n : Nat) : M.Keeps c (destPlaces n) := by
  unfold destPlaces
  exact .parts

@[simp] theorem keeps_movsOnce (w : Width) : M.Keeps c (movsOnce w) := by
  unfold movsOnce
  exact .parts

@[simp] theorem keeps_cmpsOnce (w : Width) : M.Keeps c (cmpsOnce w) := by
  unfold cmpsOnce
  exact .parts

@[simp] theorem keeps_scasOnce (w : Width) : M.Keeps c (scasOnce w) := by
  unfold scasOnce
  exact .parts

@[simp] theorem keeps_lodsOnce (w : Width) : M.Keeps c (lodsOnce w) := by
  unfold lodsOnce
  exact .parts

@[simp] theorem keeps_stosOnce (w : Width) : M.Keeps c (stosOnce w) := by
  unfold stosOnce
  exact .parts

@[simp] theorem keeps_insOnce (w : Width) : M.Keeps c (insOnce w) := by
  unfold insOnce
  exact .parts

@[simp] theorem keeps_outsOnce (w : Width) : M.Keeps c (outsOnce w) := by
  unfold outsOnce
  exact .parts

theorem keeps_repeated {once : M Unit} (h : M.Keeps c once) (scan : Bool) : M.Keeps c (repeated scan once) := by
  unfold repeated
  exact .parts

theorem keeps_wordString {once : Width → M Unit} (h : ∀ w, M.Keeps c (once w)) (scan : Bool) :
    M.Keeps c (wordString scan once) :=
  keeps_getWidth.bind fun w => keeps_repeated (h w) scan

@[simp] theorem keeps_escCheck (waits : Bool) : M.Keeps c (escCheck waits) := by
  unfold escCheck
  exact .parts

@[simp] theorem keeps_loadEnvironment (m : Mem) (n : Nat) : M.Keeps c (loadEnvironment m n) := by
  refine ⟨fun s hs => ?_⟩
  unfold loadEnvironment
  split
  next h => exact (keeps_loadMem ..).ok hs h
  next h =>
    have ht := (keeps_loadMem ..).error hs h
    split
    · exact ht.congr rfl
    · exact ht
  next h => exact (keeps_loadMem ..).error hs h

end
end Sys2Proof.Machine
end

section
/-! Every step keeps the invariant: the instructions that load CR0 and CR3, then the envelopes, the delivery of events, the
fetch, and the step. -/
set_option Elab.async false

namespace Sys2Proof.Machine

/-! ### Loads of CR0 and CR3 -/

/-- Begun with the invariant, the computation ends with it; CR0 may change. -/
structure M.KeepsInv {α : Type} (x : M α) : Prop where
  run : ∀ s : State, s.Inv → (resultState (x s)).Inv

section
variable {α β : Type}

theorem M.KeepsInv.ok {x : M α} {s t : State} {a : α} (hx : x.KeepsInv) (hs : s.Inv) (h : x s = .ok a t) : t.Inv := by
  have := hx.run s hs
  rwa [h] at this

theorem M.KeepsInv.error {x : M α} {s t : State} {e : Stop} (hx : x.KeepsInv) (hs : s.Inv) (h : x s = .error e t) :
    t.Inv := by
  have := hx.run s hs
  rwa [h] at this

theorem M.KeepsInv.of_keeps {x : M α} (h : ∀ c, M.Keeps c x) : x.KeepsInv := ⟨fun s hs => ((h s.cr0).run s ⟨hs, rfl⟩).inv⟩

theorem M.KeepsInv.bind {x : M α} {f : α → M β} (hx : x.KeepsInv) (hf : ∀ a, (f a).KeepsInv) : (x >>= f).KeepsInv := by
  refine ⟨fun s hs => ?_⟩
  rw [M.bind_run]
  cases h : x s with
  | ok a t => exact (hf a).run t (hx.ok hs h)
  | error e t => exact hx.error hs h

/-- A reserved bit of CR0 is not written (10_state R54). -/
theorem loadedCr0_reserved {old v : DWord} (h : old &&& ~~~cr0Mask = 0) :
    ((old &&& ~~~cr0Mask) ||| (v &&& cr0Mask)) &&& ~~~cr0Mask = 0 := by
  rw [or_and_of_and_eq_zero (by rw [BitVec.and_assoc]; exact BitVec.and_zero), h]
  exact BitVec.zero_and

/-- A defined bit of CR0 is that of the value loaded. -/
theorem loadedCr0_getLsbD {old v : DWord} {i : Nat} (hi : cr0Mask.getLsbD i = true) :
    ((old &&& ~~~cr0Mask) ||| (v &&& cr0Mask)).getLsbD i = v.getLsbD i := by
  simp [hi]

/-- CR0 may be replaced where PG needs PE, NW needs CD, and PE is cleared at privilege level 0 only. -/
theorem State.Inv.withCr0 {s : State} (h : s.Inv) {new : DWord} (hr : new &&& ~~~cr0Mask = 0)
    (hpg : new.getLsbD 31 = true → new.getLsbD 0 = true) (hnw : new.getLsbD 29 = true → new.getLsbD 30 = true)
    (hcpl : new.getLsbD 0 = false → s.cpl = 0) : { s with cr0 := new }.Inv :=
  { h with cr0Reserved := hr, paging := hpg, caching := hnw, realCpl := hcpl }

theorem setCr0_inv {v : DWord} {s : State} (hs : s.Inv)
    (hpg : v.getLsbD 31 = true → v.getLsbD 0 = true) (hnw : v.getLsbD 29 = true → v.getLsbD 30 = true)
    (hcpl : v.getLsbD 0 = false → s.cpl = 0) : (resultState (setCr0 v s)).Inv := by
  have loaded : { s with cr0 := (s.cr0 &&& ~~~cr0Mask) ||| (v &&& cr0Mask) }.Inv := by
    refine hs.withCr0 (loadedCr0_reserved hs.cr0Reserved) ?_ ?_ ?_
    · rwa [loadedCr0_getLsbD (i := 31) rfl, loadedCr0_getLsbD (i := 0) rfl]
    · rwa [loadedCr0_getLsbD (i := 29) rfl, loadedCr0_getLsbD (i := 30) rfl]
    · rwa [loadedCr0_getLsbD (i := 0) rfl]
  simp only [setCr0, resultState]
  split
  · exact loaded.congr rfl
  · exact loaded

theorem requireCpl0_inv {s t : State} (hs : s.Inv) (h : requireCpl0 s = .ok () t) : t = s ∧ s.cpl = 0 := by
  unfold requireCpl0 at h
  split at h
  · cases h
  next hp =>
    cases h
    refine ⟨rfl, ?_⟩
    cases hpe : s.pe with
    | false => exact hs.realCpl hpe
    | true => simpa [hpe] using hp

/-- LMSW loads four bits: PE is set or stays, no other bit that the invariant speaks of changes. -/
theorem keepsInv_lmswBody (m : Rm) : (lmswBody m).KeepsInv := by
  refine .bind (.of_keeps fun _ => keeps_requireCpl0) fun _ => .bind (.of_keeps fun _ => keeps_readRm ..) fun v => ⟨fun s hs => ?_⟩
  have low : ∀ i, 4 ≤ i → (v % 16).testBit i = false := fun i hi =>
    Nat.testBit_lt_two_pow (lt_of_lt_of_le (Nat.mod_lt v (by decide)) (Nat.pow_le_pow_right (n := 2) (i := 4) (by decide) hi))
  have high : ∀ i, 4 ≤ i → i < 32 → ((s.cr0 &&& 0xFFFFFFF1) ||| BitVec.ofNat 32 (v % 16)).getLsbD i =
      (s.cr0.getLsbD i && (0xFFFFFFF1#32).getLsbD i) := by
    intro i h4 hi
    rw [BitVec.getLsbD_or, BitVec.getLsbD_and, BitVec.getLsbD_ofNat, low i h4, Bool.and_false, Bool.or_false]
    rfl
  have pe : ((s.cr0 &&& 0xFFFFFFF1) ||| BitVec.ofNat 32 (v % 16)).getLsbD 0 = (s.pe || (v % 16).testBit 0) := by
    rw [BitVec.getLsbD_or, BitVec.getLsbD_and, BitVec.getLsbD_ofNat, State.pe]
    exact congrArg (· || _) (Bool.and_true _)
  refine setCr0_inv hs ?paging ?caching ?realCpl
  case paging =>
    rw [high 31 (by decide) (by decide), pe, Bool.and_eq_true, Bool.or_eq_true]
    exact fun h => .inl (hs.paging h.1)
  case caching =>
    rw [high 29 (by decide) (by decide), high 30 (by decide) (by decide), Bool.and_eq_true, Bool.and_eq_true]
    exact fun h => ⟨hs.caching h.1, rfl⟩
  case realCpl =>
    rw [pe, Bool.or_eq_false_iff]
    exact fun h => hs.realCpl h.1

theorem keepsInv_cltsBody : cltsBody.KeepsInv := by
  refine .bind (.of_keeps fun _ => keeps_requireCpl0) fun _ => ⟨fun s hs => ?_⟩
  have cleared : ∀ i, (~~~(1#32 <<< 3)).getLsbD i = true → (setBit s.cr0 3 false).getLsbD i = s.cr0.getLsbD i :=
    fun i hi => (BitVec.getLsbD_and ..).trans (by rw [hi, Bool.and_true])
  refine hs.withCr0 (and_and_eq_zero hs.cr0Reserved _) ?_ ?_ ?_
  · rw [cleared 31 (by decide), cleared 0 (by decide)]; exact hs.paging
  · rw [cleared 29 (by decide), cleared 30 (by decide)]; exact hs.caching
  · rw [cleared 0 (by decide)]; exact hs.realCpl

/-- A load of CR3 leaves its reserved bits 0 (10_state R48). -/
theorem State.Inv.withCr3 {s : State} (h : s.Inv) (v : DWord) (t : Tlb) : { s with cr3 := v &&& 0xFFFFF018, tlb := t }.Inv :=
  have clear : v &&& 0xFFFFF018 &&& 0x00000FE7 = 0 := by
    rw [BitVec.and_assoc]
    exact BitVec.and_zero
  { h with cr3Reserved := clear }

/-- What follows the privilege check runs at privilege level 0, in the same state. -/
theorem keepsInv_requireCpl0_bind {f : Unit → M α} (hf : ∀ s : State, s.Inv → s.cpl = 0 → (resultState (f () s)).Inv) :
    (requireCpl0 >>= f).KeepsInv := by
  refine ⟨fun s hs => ?_⟩
  rw [M.bind_run]
  cases h : requireCpl0 s with
  | error e t => exact (M.KeepsInv.of_keeps fun _ => keeps_requireCpl0).error hs h
  | ok _ t =>
    obtain ⟨rfl, hcpl⟩ := requireCpl0_inv hs h
    exact hf t hs hcpl

/-- MOV to CR0 is refused where PG needs PE or NW needs CD; privilege level 0 is required (R549). -/
theorem keepsInv_movToCr (n r : RegNum) : (movToCr n r).KeepsInv := by
  have flags : ∀ t : State, t.Inv → (resultState (freeFlags t)).Inv := (M.KeepsInv.of_keeps fun _ => keeps_freeFlags).run
  have load : (requireCpl0 >>= fun _ => getReg .w32 r >>= fun v => do
      match n.toNat with
      | 0 => do
        if (BitVec.ofNat 32 v).getLsbD 31 && !(BitVec.ofNat 32 v).getLsbD 0 then raiseGP 0
        if !(BitVec.ofNat 32 v).getLsbD 30 && (BitVec.ofNat 32 v).getLsbD 29 then raiseGP 0
        setCr0 (BitVec.ofNat 32 v)
      | 2 => modify (fun s => { s with cr2 := BitVec.ofNat 32 v })
      | _ => modify (fun s => { s with cr3 := BitVec.ofNat 32 v &&& 0xFFFFF018, tlb := s.tlb.flush })
      freeFlags : M Unit).KeepsInv := by
    refine keepsInv_requireCpl0_bind fun s hs hcpl => ?_
    simp only [M.bind_run, getReg_run]
    generalize n.toNat = k, BitVec.ofNat 32 (s.regs.read .w32 r) = v
    have cr3 := flags _ (hs.withCr3 v s.tlb.flush)
    match k with
    | 0 =>
      simp only [M.ite_run, M.bind_run, raiseGP_run]
      split
      · exact hs
      next hpg =>
        split
        · exact hs
        next hnw =>
          refine flags _ (setCr0_inv hs (by simpa using hpg) (fun h => ?_) fun _ => hcpl)
          by_contra hc
          rw [Bool.not_eq_true] at hc
          exact hnw (by rw [h, hc]; rfl)
    | 2 => exact flags { s with cr2 := v } (hs.congr rfl)
    | 1 | _ + 3 => exact cr3
  unfold movToCr
  refine ⟨fun s hs => ?_⟩
  rw [M.ite_run]
  split
  · exact hs
  · exact load.run s hs

theorem keepsInv_movBody (f : MovForm) : (movBody f).KeepsInv := by
  refine .bind (.of_keeps fun _ => keeps_getWidth) fun v => ?_
  cases f with
  | toCr mode n r => exact keepsInv_movToCr n r
  | ebGb | evGv | gbEb | gvEv | ewSw | swEw | alOb | eaxOv | obAl | ovEax | r8Ib | regIv | ebIb | evIv | fromCr | fromDr | toDr
  | fromTr | toTr =>
    refine .of_keeps fun _ => ?_
    dsimp only
    exact .parts

end

/-! ### What wraps a body -/

/-- Of an outcome: a next state meets the invariant. -/
def SafeOutcome (o : Host.Outcome State Fault Refusal) : Prop := ∀ t, o = .next t → t.Inv

theorem safe_next {t : State} (h : t.Inv) : SafeOutcome (.next t) := fun _ e => by cases e; exact h
theorem safe_refused (r : Refusal) : SafeOutcome (.refused r) := fun _ e => by cases e
theorem safe_fault (r : Fault) : SafeOutcome (.fault r) := fun _ e => by cases e

/-- What an abandoned instruction leaves is guarded by the state before it and the state it stopped in. -/
theorem State.Inv.rollback {s t : State} (hs : s.Inv) (ht : t.Inv) : (rollback s t).Inv :=
  { hs with mem := ht.mem, dr6Reserved := ht.dr6Reserved, dr7Reserved := ht.dr7Reserved }

theorem deliver_safe (k : Nat) (ev : Event) {s : State} (hs : s.Inv) : SafeOutcome (deliver k ev s) := by
  have enter : (enterHandler ev).KeepsInv := .of_keeps fun _ => keeps_enterHandler ev
  induction k generalizing ev s with
  | zero => exact safe_next (hs.congr rfl)
  | succ k ih =>
    unfold deliver
    split
    next h => exact safe_next (enter.ok hs h)
    next => exact safe_refused _
    next e t h =>
      have ht := hs.rollback (enter.error hs h)
      simp only
      split
      · exact safe_next (ht.congr rfl)
      · split
        · exact ih _ (ht.congr rfl) (.of_keeps fun _ => keeps_enterHandler _)
        · exact ih _ ht (.of_keeps fun _ => keeps_enterHandler _)
    next e t _ _ h => exact safe_next ((hs.rollback (enter.error hs h)).congr rfl)

theorem deliverExn_safe (e : Exn) {s : State} (hs : s.Inv) : SafeOutcome (deliverExn e s) := deliver_safe _ _ hs

/-- An instruction keeps the invariant if its body does. -/
theorem runInstr_safe {body : M Unit} (hb : body.KeepsInv) (l k : Bool) {s : State} (hs : s.Inv) :
    SafeOutcome (runInstr l k body s) := by
  have begun : s.begin.Inv := hs.congr rfl
  have checked : (if s.dec.lock && !l then raiseUD else body : M Unit).KeepsInv := by
    split
    · exact .of_keeps fun _ => keeps_raiseUD
    · exact hb
  have abandoned : ∀ {t : State}, t.Inv → (rollback s t).abandon.Inv := fun ht => (hs.rollback ht).congr rfl
  unfold runInstr
  split
  · exact safe_refused _
  · split
    next t h => exact safe_next ((checked.ok begun h).congr rfl)
    next e t h => exact deliverExn_safe e (abandoned (checked.error begun h))
    next => exact safe_refused _
    next t h => exact safe_next ((abandoned (checked.error begun h)).congr rfl)
    next t h => exact safe_next ((abandoned (checked.error begun h)).congr rfl)

theorem runInstr_safe_of_keeps {body : M Unit} (hb : ∀ c, M.Keeps c body) (l k : Bool) {s : State} (hs : s.Inv) :
    SafeOutcome (runInstr l k body s) := runInstr_safe (.of_keeps hb) l k hs

section
variable {s : State}

theorem escRegister_safe (i : Instr) (g : BitVec 128 → Fpu → Fpu) (hs : s.Inv) : SafeOutcome (escRegister i g s) :=
  runInstr_safe_of_keeps (fun _ => .parts) _ _ hs

theorem escRegister2_safe (i : Instr) (g : BitVec 128 → BitVec 128 → Fpu → Fpu) (hs : s.Inv) :
    SafeOutcome (escRegister2 i g s) := runInstr_safe_of_keeps (fun _ => .parts) _ _ hs

theorem escLoad_safe (i : Instr) (m : Mem) (n al : Nat) (g : Nat → BitVec 128 → Fpu → Fpu) (hs : s.Inv) :
    SafeOutcome (escLoad i m n al g s) := runInstr_safe_of_keeps (fun _ => .parts) _ _ hs

theorem escStore_safe (i : Instr) (m : Mem) (n al : Nat) (g : BitVec 128 → Fpu → Fpu × Option Nat) (hs : s.Inv) :
    SafeOutcome (escStore i m n al g s) := by
  refine runInstr_safe_of_keeps (fun _ => ?_) _ _ hs
  refine (keeps_escCheck _).bind fun _ => keeps_fresh.bind fun u => keeps_get.bind fun t => ?_
  cases h : (g u t.fpu).2 <;> simp only [h] <;> exact .parts

theorem escControl_safe {body : M Unit} (hb : ∀ c, M.Keeps c body) (waits : Bool) (hs : s.Inv) :
    SafeOutcome (escControl waits body s) :=
  runInstr_safe_of_keeps (fun c => (keeps_escCheck waits).bind fun _ => hb c) _ _ hs

/-! ### The instructions -/

theorem basicReal_safe (op : BasicOp) (i : Instr) (f : FarithForm) (hs : s.Inv) : SafeOutcome (basicReal op i f s) := by
  cases f with
  | m32 | m64 => exact escLoad_safe _ _ _ _ _ hs
  | stSti | stiSt => exact escRegister_safe _ _ hs

theorem basicInteger_safe (op : BasicOp) (i : Instr) (f : FistForm) (hs : s.Inv) : SafeOutcome (basicInteger op i f s) := by
  cases f with
  | m16 | m32 => exact escLoad_safe _ _ _ _ _ hs

theorem compareReal_safe (i : Instr) (f : FstForm) (post : Fpu → Fpu) (hs : s.Inv) : SafeOutcome (compareReal i f post s) := by
  cases f with
  | m32 | m64 => exact escLoad_safe _ _ _ _ _ hs
  | st => exact escRegister_safe _ _ hs

theorem compareInteger_safe (i : Instr) (f : FistForm) (post : Fpu → Fpu) (hs : s.Inv) :
    SafeOutcome (compareInteger i f post s) := by
  cases f with
  | m16 | m32 => exact escLoad_safe _ _ _ _ _ hs

theorem execFst_safe (f : FstForm) (hs : s.Inv) : SafeOutcome (execFst f s) := by
  cases f with
  | m32 | m64 =>
    unfold execFst
    exact escStore_safe _ _ _ _ _ hs
  | st => exact escRegister_safe _ _ hs

theorem execFstp_safe (f : FldForm) (hs : s.Inv) : SafeOutcome (execFstp f s) := by
  cases f with
  | m32 | m64 | m80 =>
    unfold execFstp
    exact escStore_safe _ _ _ _ _ hs
  | st => exact escRegister_safe _ _ hs

theorem execFist_safe (f : FistForm) (hs : s.Inv) : SafeOutcome (execFist f s) := by
  unfold execFist
  cases f <;> exact escStore_safe _ _ _ _ _ hs

theorem execFistp_safe (f : FildForm) (hs : s.Inv) : SafeOutcome (execFistp f s) := by
  unfold execFistp
  cases f <;> exact escStore_safe _ _ _ _ _ hs

theorem execFbstp_safe (m : Mem) (hs : s.Inv) : SafeOutcome (execFbstp m s) := by
  unfold execFbstp
  exact escStore_safe _ _ _ _ _ hs

/-- An instruction that answers a next state keeps the invariant. -/
theorem exec_safe (i : Instr) (hs : s.Inv) : SafeOutcome (exec i s) := by
  cases i with
  -- prefixes
  | repPrefix | repnePrefix | lockPrefix | csPrefix | ssPrefix | dsPrefix | esPrefix | fsPrefix | gsPrefix | opsizePrefix
  | addrsizePrefix => exact safe_next (hs.congr rfl)
  -- loads of CR0
  | mov f => exact runInstr_safe (keepsInv_movBody f) _ _ hs
  | lmsw m => exact runInstr_safe (keepsInv_lmswBody m) _ _ hs
  | clts => exact runInstr_safe keepsInv_cltsBody _ _ hs
  -- arithmetic and logic
  | add f => exact runInstr_safe_of_keeps (fun _ => keeps_aluWrite keeps_addOp f) _ _ hs
  | adc f => exact runInstr_safe_of_keeps (fun _ => keeps_aluWrite keeps_adcOp f) _ _ hs
  | sub f => exact runInstr_safe_of_keeps (fun _ => keeps_aluWrite keeps_subOp f) _ _ hs
  | sbb f => exact runInstr_safe_of_keeps (fun _ => keeps_aluWrite keeps_sbbOp f) _ _ hs
  | and f | or f | xor f => exact runInstr_safe_of_keeps (fun _ => keeps_aluWrite (fun _ _ _ => keeps_logicOp ..) f) _ _ hs
  | cmp f => exact runInstr_safe_of_keeps (fun _ => keeps_aluRead keeps_cmpOp f) _ _ hs
  | test f => exact runInstr_safe_of_keeps (fun _ => keeps_testBody f) _ _ hs
  | inc f => exact runInstr_safe_of_keeps (fun _ => keeps_incBody keeps_incOp f) _ _ hs
  | dec f => exact runInstr_safe_of_keeps (fun _ => keeps_incBody keeps_decOp f) _ _ hs
  | neg f => exact runInstr_safe_of_keeps (fun _ => keeps_unaryBody keeps_negOp f) _ _ hs
  | not f => exact runInstr_safe_of_keeps (fun _ => keeps_unaryBody (fun _ _ => keeps_pure _) f) _ _ hs
  | mul f => exact runInstr_safe_of_keeps (fun _ => keeps_mulBody f) _ _ hs
  | imul f => exact runInstr_safe_of_keeps (fun _ => keeps_imulBody f) _ _ hs
  | div f => exact runInstr_safe_of_keeps (fun _ => keeps_divBody f) _ _ hs
  | idiv f => exact runInstr_safe_of_keeps (fun _ => keeps_idivBody f) _ _ hs
  | xadd f => exact runInstr_safe_of_keeps (fun _ => keeps_xaddBody f) _ _ hs
  | cmpxchg f => exact runInstr_safe_of_keeps (fun _ => keeps_cmpxchgBody f) _ _ hs
  | aaa => exact runInstr_safe_of_keeps (fun _ => keeps_aaaBody) _ _ hs
  | aas => exact runInstr_safe_of_keeps (fun _ => keeps_aasBody) _ _ hs
  | aad imm => exact runInstr_safe_of_keeps (fun _ => keeps_aadBody imm) _ _ hs
  | aam imm => exact runInstr_safe_of_keeps (fun _ => keeps_aamBody imm) _ _ hs
  | daa => exact runInstr_safe_of_keeps (fun _ => keeps_daaBody) _ _ hs
  | das => exact runInstr_safe_of_keeps (fun _ => keeps_dasBody) _ _ hs
  -- shifts, rotates and bits
  | rol f | ror f | rcl f | rcr f =>
    exact runInstr_safe_of_keeps (fun _ => keeps_shiftBody (fun _ _ _ => .parts) f) _ _ hs
  | shl f | shr f | sar f => exact runInstr_safe_of_keeps (fun _ => keeps_shiftBody (keeps_shiftWith _) _) _ _ hs
  | shld f | shrd f => exact runInstr_safe_of_keeps (fun _ => keeps_dshiftBody (keeps_dshiftOp _ _) f) _ _ hs
  | bt f => exact runInstr_safe_of_keeps (fun _ => keeps_btBody f) _ _ hs
  | bts f | btr f | btc f => exact runInstr_safe_of_keeps (fun _ => keeps_bitModify _ f) _ _ hs
  | bsf r m | bsr r m => exact runInstr_safe_of_keeps (fun _ => keeps_scanBody _ r m) _ _ hs
  -- data movement
  | movsx f | movzx f => exact runInstr_safe_of_keeps (fun _ => keeps_movxBody _ f) _ _ hs
  | xchg f => exact runInstr_safe_of_keeps (fun _ => keeps_xchgBody f) _ _ hs
  | bswap r => exact runInstr_safe_of_keeps (fun _ => keeps_bswapBody r) _ _ hs
  | lea r m => exact runInstr_safe_of_keeps (fun _ => keeps_leaBody r m) _ _ hs
  | xlat => exact runInstr_safe_of_keeps (fun _ => keeps_xlatBody) _ _ hs
  | cbw => exact runInstr_safe_of_keeps (fun _ => keeps_cbwBody) _ _ hs
  | cwd => exact runInstr_safe_of_keeps (fun _ => keeps_cwdBody) _ _ hs
  | les r m | lds r m | lss r m | lfs r m | lgs r m =>
    exact runInstr_safe_of_keeps (fun _ => keeps_loadPointer _ r m) _ _ hs
  | push f => exact runInstr_safe_of_keeps (fun _ => keeps_pushBody f) _ _ hs
  | pop f => exact runInstr_safe_of_keeps (fun _ => keeps_popBody f) _ _ hs
  | pusha => exact runInstr_safe_of_keeps (fun _ => keeps_pushaBody) _ _ hs
  | popa => exact runInstr_safe_of_keeps (fun _ => keeps_popaBody) _ _ hs
  | pushf => exact runInstr_safe_of_keeps (fun _ => keeps_pushfBody) _ _ hs
  | popf => exact runInstr_safe_of_keeps (fun _ => keeps_popfBody) _ _ hs
  | lahf => exact runInstr_safe_of_keeps (fun _ => keeps_setReg ..) _ _ hs
  | sahf | clc | stc | cmc | cld | std => exact runInstr_safe_of_keeps (fun _ => keeps_modFlags _) _ _ hs
  | nop => exact runInstr_safe_of_keeps (fun _ => keeps_pure ()) _ _ hs
  | cli => exact runInstr_safe_of_keeps (fun _ => keeps_cliBody) _ _ hs
  | sti => exact runInstr_safe_of_keeps (fun _ => keeps_stiBody) _ _ hs
  | setO r m | setNo r m | setB r m | setAe r m | setE r m | setNe r m | setBe r m | setA r m | setS r m | setNs r m | setP r m
  | setNp r m | setL r m | setGe r m | setLe r m | setG r m =>
    exact runInstr_safe_of_keeps (fun _ => keeps_setccBody _ m) _ _ hs
  | in_ f => exact runInstr_safe_of_keeps (fun _ => keeps_inBody f) _ _ hs
  | out f => exact runInstr_safe_of_keeps (fun _ => keeps_outBody f) _ _ hs
  -- control transfer
  | jO f | jNo f | jB f | jAe f | jE f | jNe f | jBe f | jA f | jS f | jNs f | jP f | jNp f | jL f | jGe f | jLe f | jG f =>
    exact runInstr_safe_of_keeps (fun _ => keeps_jccBody _ f) _ _ hs
  | jcxz rel => exact runInstr_safe_of_keeps (fun _ => keeps_jcxzBody rel) _ _ hs
  | loop rel | loope rel | loopne rel => exact runInstr_safe_of_keeps (fun _ => keeps_loopBody _ rel) _ _ hs
  | jmp f => exact runInstr_safe_of_keeps (fun _ => keeps_jmpBody f) _ _ hs
  | call f => exact runInstr_safe_of_keeps (fun _ => keeps_callBody f) _ _ hs
  | ret f => exact runInstr_safe_of_keeps (fun _ => keeps_retBody f) _ _ hs
  | retf f => exact runInstr_safe_of_keeps (fun _ => keeps_retfBody f) _ _ hs
  | intIb v => exact runInstr_safe_of_keeps (fun _ => keeps_softInt v) _ _ hs
  | int3 => exact runInstr_safe_of_keeps (fun _ => keeps_softInt 3) _ _ hs
  | into => exact runInstr_safe_of_keeps (fun _ => keeps_intoBody) _ _ hs
  | iret => exact runInstr_safe_of_keeps (fun _ => keeps_interruptReturn) _ _ hs
  | bound r m => exact runInstr_safe_of_keeps (fun _ => keeps_boundBody r m) _ _ hs
  | enter n k => exact runInstr_safe_of_keeps (fun _ => keeps_enterBody n k) _ _ hs
  | leave => exact runInstr_safe_of_keeps (fun _ => keeps_leaveBody) _ _ hs
  | undefined f => exact runInstr_safe_of_keeps (fun _ => keeps_raiseUD) _ _ hs
  -- strings
  | movsb => exact runInstr_safe_of_keeps (fun _ => keeps_repeated (keeps_movsOnce _) _) _ _ hs
  | movsv => exact runInstr_safe_of_keeps (fun _ => keeps_wordString keeps_movsOnce _) _ _ hs
  | cmpsb => exact runInstr_safe_of_keeps (fun _ => keeps_repeated (keeps_cmpsOnce _) _) _ _ hs
  | cmpsv => exact runInstr_safe_of_keeps (fun _ => keeps_wordString keeps_cmpsOnce _) _ _ hs
  | scasb => exact runInstr_safe_of_keeps (fun _ => keeps_repeated (keeps_scasOnce _) _) _ _ hs
  | scasv => exact runInstr_safe_of_keeps (fun _ => keeps_wordString keeps_scasOnce _) _ _ hs
  | lodsb => exact runInstr_safe_of_keeps (fun _ => keeps_repeated (keeps_lodsOnce _) _) _ _ hs
  | lodsv => exact runInstr_safe_of_keeps (fun _ => keeps_wordString keeps_lodsOnce _) _ _ hs
  | stosb => exact runInstr_safe_of_keeps (fun _ => keeps_repeated (keeps_stosOnce _) _) _ _ hs
  | stosv => exact runInstr_safe_of_keeps (fun _ => keeps_wordString keeps_stosOnce _) _ _ hs
  | insb => exact runInstr_safe_of_keeps (fun _ => keeps_repeated (keeps_insOnce _) _) _ _ hs
  | insv => exact runInstr_safe_of_keeps (fun _ => keeps_wordString keeps_insOnce _) _ _ hs
  | outsb => exact runInstr_safe_of_keeps (fun _ => keeps_repeated (keeps_outsOnce _) _) _ _ hs
  | outsv => exact runInstr_safe_of_keeps (fun _ => keeps_wordString keeps_outsOnce _) _ _ hs
  -- system
  | sldt m => exact runInstr_safe_of_keeps (fun _ => keeps_sldtBody m) _ _ hs
  | str m => exact runInstr_safe_of_keeps (fun _ => keeps_strBody m) _ _ hs
  | lldt m => exact runInstr_safe_of_keeps (fun _ => keeps_lldtBody m) _ _ hs
  | ltr m => exact runInstr_safe_of_keeps (fun _ => keeps_ltrBody m) _ _ hs
  | sgdt m => exact runInstr_safe_of_keeps (fun _ => keeps_sgdtBody m) _ _ hs
  | sidt m => exact runInstr_safe_of_keeps (fun _ => keeps_sidtBody m) _ _ hs
  | lgdt m => exact runInstr_safe_of_keeps (fun _ => keeps_lgdtBody m) _ _ hs
  | lidt m => exact runInstr_safe_of_keeps (fun _ => keeps_lidtBody m) _ _ hs
  | smsw m => exact runInstr_safe_of_keeps (fun _ => keeps_smswBody m) _ _ hs
  | verr m | verw m => exact runInstr_safe_of_keeps (fun _ => keeps_verify _ m) _ _ hs
  | lar r m | lsl r m => exact runInstr_safe_of_keeps (fun _ => keeps_inspectInto _ _ r m) _ _ hs
  | arpl r m => exact runInstr_safe_of_keeps (fun _ => keeps_arplBody r m) _ _ hs
  | invd => exact runInstr_safe_of_keeps (fun _ => keeps_invdBody) _ _ hs
  | wbinvd => exact runInstr_safe_of_keeps (fun _ => keeps_wbinvdBody) _ _ hs
  | invlpg m => exact runInstr_safe_of_keeps (fun _ => keeps_invlpgBody m) _ _ hs
  | hlt => exact runInstr_safe_of_keeps (fun _ => keeps_hltBody) _ _ hs
  -- the floating-point unit
  | wait | undefinedEsc f => exact runInstr_safe_of_keeps (fun _ => .parts) _ _ hs
  | fld f =>
    cases f with
    | m32 | m64 | m80 => exact escLoad_safe _ _ _ _ _ hs
    | st => exact escRegister_safe _ _ hs
  | fild f => cases f <;> exact escLoad_safe _ _ _ _ _ hs
  | fbld m => exact escLoad_safe _ _ _ _ _ hs
  | fst f => exact execFst_safe f hs
  | fstp f => exact execFstp_safe f hs
  | fist f => exact execFist_safe f hs
  | fistp f => exact execFistp_safe f hs
  | fbstp m => exact execFbstp_safe m hs
  | fadd f | fmul f | fsub f | fsubr f | fdiv f | fdivr f => exact basicReal_safe _ _ f hs
  | fiadd f | fimul f | fisub f | fisubr f | fidiv f | fidivr f => exact basicInteger_safe _ _ f hs
  | fcom f | fcomp f => exact compareReal_safe _ f _ hs
  | ficom f | ficomp f => exact compareInteger_safe _ f _ hs
  | faddp i | fmulp i | fsubp i | fsubrp i | fdivp i | fdivrp i | fxch i | fucom i | fucomp i => exact escRegister_safe _ _ hs
  | fld1 | fldl2t | fldl2e | fldpi | fldlg2 | fldln2 | fldz | fsqrt | fscale | fprem | fprem1 | frndint | fxtract | fabs | fchs
  | fcompp | fucompp | ftst | fxam | fptan | fpatan | fsin | fcos | fsincos | fyl2x => exact escRegister_safe _ _ hs
  | f2xm1 | fyl2xp1 => exact escRegister2_safe _ _ hs
  | fninit | fldcw m | fnstcw m | fnstsw m | fnclex | fincstp | fdecstp | ffree i | fnop | feni | fdisi | fsetpm | fnstenv m
  | fldenv m | fnsave m | frstor m => exact escControl_safe (fun _ => .parts) _ hs

end
end Sys2Proof.Machine
end

section
/-! One step of the machine keeps the invariant: fetch and prefetch, the events of the boundary, RESET, the pins. -/
set_option Elab.async false

namespace Sys2Proof.Machine

/-! ### Fetching -/

section
variable {c : DWord}

@[simp] theorem keeps_queuedByte (lin : Nat) (v : Byte) (cs : List Host.Cell) : M.Keeps c (queuedByte lin v cs) := by
  induction cs with
  | nil => exact keeps_pure _
  | cons d ds ih =>
    unfold queuedByte
    exact .ite (keeps_freshBool.bind fun _ => .ite (keeps_pure _) ih) ih

@[simp] theorem keeps_codeRead (lin pa : Nat) (attr : Attr) : M.Keeps c (codeRead lin pa attr) := by
  refine ⟨fun s hs => ?_⟩
  unfold codeRead
  simp only
  split
  · exact hs.congr rfl
  · split
    · exact hs
    · refine M.Keeps.run ((keeps_burst ..).bind fun d => (keeps_modify fun t => ?_).bind fun _ => keeps_pure _) s hs
      split <;> exact guarded_eq_iff.2 ⟨rfl, rfl, rfl, rfl, rfl⟩

@[simp] theorem keeps_fetchByte (off : Nat) : M.Keeps c (fetchByte off) := by
  refine keeps_get.bind fun s => .ite (keeps_raiseGP_bind ..) ((keeps_translate ..).bind fun p => ?_)
  dsimp only
  generalize s.prefetch.held.find? _ = held
  cases held with
  | some d => exact keeps_pure _
  | none => exact (keeps_codeRead ..).bind fun _ => keeps_queuedByte ..

@[simp] theorem keeps_checkLength (n : Nat) : M.Keeps c (checkLength n) := by
  unfold checkLength
  exact .parts

@[simp] theorem keeps_fetchItem (k : Nat) (bs : List Byte) : M.Keeps c (fetchItem k bs) := by
  induction k generalizing bs with
  | zero => exact keeps_raiseGP 0
  | succ k ih =>
    refine .getBind fun s hs => ?_
    have counted : M.Keeps c (set { s with dec := { s.dec with len := s.dec.len + bs.length } } : M PUnit) :=
      ⟨fun _ _ => hs.congr rfl⟩
    split
    · exact counted.bind fun _ => keeps_pure _
    · exact (keeps_checkLength _).bind fun _ => keeps_raiseUD
    · exact (keeps_fetchByte _).bind fun _ => ih _

theorem keeps_readAhead (off : Nat) : M.Keeps c (readAhead off) := by
  refine ⟨fun s hs => ?_⟩
  unfold readAhead
  simp only
  split
  · exact hs
  split
  · exact hs.congr rfl
  have drawn : { s with freeCtr := s.freeCtr + 1 }.InvAt c := hs.congr rfl
  split
  · exact drawn
  next h =>
    have located := (keeps_translate ..).ok drawn h
    split
    next h' => exact (keeps_codeRead ..).ok located h'
    next => exact drawn

end

theorem State.Inv.prefetched {s : State} (h : s.Inv) : s.prefetched.Inv := by
  have ahead : ∀ a b, (readAhead a >>= fun _ => readAhead b).KeepsInv := fun a b =>
    .of_keeps fun _ => (keeps_readAhead a).bind fun _ => keeps_readAhead b
  unfold State.prefetched
  simp only
  split
  next h' => exact (ahead _ _).ok h h'
  next h' => exact (ahead _ _).error h h'

theorem State.Inv.retire {t : State} (h : t.Inv) (s : State) : (s.retire t).Inv := by
  unfold State.retire
  split
  · exact State.Inv.prefetched (h.congr rfl)
  · exact h.congr rfl

theorem retired_safe {s : State} {o : Host.Outcome State Fault Refusal} (h : SafeOutcome o) : SafeOutcome (retired s o) := by
  cases o with
  | next t => exact safe_next ((h t rfl).retire s)
  | fault r => exact safe_fault r
  | refused r => exact safe_refused r

theorem afterInstr_safe {s : State} {o : Host.Outcome State Fault Refusal} (h : SafeOutcome o) :
    SafeOutcome (afterInstr s o) := by
  cases o with
  | next t => exact safe_next ((h t rfl).congr rfl)
  | fault r => exact safe_fault r
  | refused r => exact safe_refused r

theorem runItems_safe {start : State} (h0 : start.Inv) (k : Nat) {s : State} (hs : s.Inv) :
    SafeOutcome (runItems start k s) := by
  have fetch : (fetchItem (maxLength + 1) []).KeepsInv := .of_keeps fun _ => keeps_fetchItem _ _
  induction k generalizing s with
  | zero => exact safe_fault _
  | succ k ih =>
    unfold runItems
    split
    next i t h =>
      have ht := fetch.ok hs h
      split
      · split
        next h' => exact ih (exec_safe i ht _ h')
        next => exact exec_safe i ht
      · split
        · exact deliverExn_safe _ ((h0.rollback ht).congr rfl)
        · exact retired_safe (exec_safe i ht)
    next h => exact deliverExn_safe _ ((h0.rollback (fetch.error hs h)).congr rfl)
    next => exact safe_refused _
    next h => exact safe_next ((h0.rollback (fetch.error hs h)).congr rfl)

/-! ### Events of the boundary -/

/-- B0 to B3 and BS of DR6 are no reserved bits (10_state R50). -/
theorem State.Inv.reportDebug {s : State} (h : s.Inv) (hits : BitVec 4) (single : Bool) : (s.reportDebug hits single).Inv := by
  have shown : (hits.setWidth 32 &&& 0xFFFF1FF0 : DWord) = 0 := by revert hits; decide
  have trap : ((BitVec.ofBool single).setWidth 32 <<< 14 &&& 0xFFFF1FF0 : DWord) = 0 := by revert single; decide
  refine h.withDbg ?_ h.dr7Reserved
  show (s.dbg.dr6 ||| hits.setWidth 32 ||| ((BitVec.ofBool single).setWidth 32 <<< 14)) &&& 0xFFFF1FF0 = 0xFFFF0FF0
  rw [or_and_of_and_eq_zero trap, or_and_of_and_eq_zero shown, h.dr6Reserved]

theorem runOne_safe {s : State} (hs : s.Inv) : SafeOutcome (runOne s) := by
  have breaks : instrBreaks.KeepsInv := .of_keeps fun _ => keeps_instrBreaks
  unfold runOne
  split
  · exact safe_refused _
  · split
    next hits t h =>
      have ht := breaks.ok hs h
      split
      · exact deliverExn_safe _ ((ht.reportDebug hits false).congr rfl)
      · exact afterInstr_safe (runItems_safe ht _ (ht.congr rfl))
    next h => exact safe_next (breaks.error hs h)

theorem debugTrap_safe {s : State} (hs : s.Inv) : SafeOutcome s.debugTrap :=
  deliver_safe _ _ ((hs.reportDebug _ _).congr rfl)

theorem nmi_safe {s : State} (hs : s.Inv) : SafeOutcome s.nmi := by
  unfold State.nmi
  simp only
  split <;> exact deliver_safe _ _ (hs.congr rfl)

theorem intr_safe {s : State} (hs : s.Inv) : SafeOutcome s.intr := deliver_safe _ _ (hs.congr rfl)

theorem boundary_safe {s : State} (hs : s.Inv) : SafeOutcome s.boundary := by
  unfold State.boundary
  split
  · exact debugTrap_safe hs
  split
  · exact nmi_safe hs
  split
  · exact intr_safe hs
  split
  · exact runOne_safe hs
  · exact safe_next hs

/-! ### Pins and RESET -/

theorem State.Inv.otherWrite {s : State} (h : s.Inv) (d : Host.Cell) : (s.otherWrite d).Inv := by
  unfold State.otherWrite
  split
  next hd => exact h.withMem (memWrite_wf h.mem hd.1) rfl
  next => exact h

theorem State.Inv.snooped {s : State} (h : s.Inv) : s.snooped.Inv := by
  have written : ∀ (ds : List Host.Cell) (t : State), t.Inv → (ds.foldl State.otherWrite t).Inv := by
    intro ds
    induction ds with
    | nil => exact fun _ ht => ht
    | cons d ds ih => exact fun t ht => ih _ (ht.otherWrite d)
  have invalidated : ∀ t : State, t.Inv → t.externalInvalidate.Inv := by
    intro t ht
    unfold State.externalInvalidate
    split
    · exact ht
    · exact ht.congr rfl
  unfold State.snooped
  simp only
  split
  · exact (invalidated _ (written _ _ h)).congr rfl
  · exact invalidated _ (written _ _ h)

theorem State.Inv.sample {s : State} (h : s.Inv) : s.sample.Inv := by
  have other : s.otherAgents.Inv := by
    unfold State.otherAgents
    split
    · exact h.snooped.congr rfl
    · exact h
  exact other.congr rfl

theorem State.Inv.nextPins {s : State} (h : s.Inv) : s.nextPins.Inv := by
  unfold State.nextPins
  split
  · exact h
  · exact h.congr rfl

/-- Settles O57: every part of the invariant is a fact about the values of the reset tables (70_reset R928 to R930). -/
theorem resetMeetsInvariant : Obligations.ResetMeetsInvariant where
  mem := rfl
  cr0Reserved := by decide
  cr3Reserved := by decide
  dr6Reserved := by decide
  dr7Reserved := by decide
  paging := by decide
  caching := by decide
  realCpl := fun _ => rfl

/-- RESET leaves the reset state, but for memory (70_reset R921). -/
theorem onReset_safe {s : State} (hs : s.Inv) : SafeOutcome s.onReset := by
  unfold State.onReset
  split
  · exact safe_refused _
  · exact safe_next (resetMeetsInvariant.withMem hs.mem rfl)

theorem cycle_safe {s : State} (hs : s.Inv) : SafeOutcome (cycle s) := by
  unfold cycle
  split
  · exact onReset_safe hs.nextPins.sample
  · exact boundary_safe hs.nextPins.sample

/-- Settles O58: a step is RESET or an event or instruction of the boundary, and each keeps the invariant. -/
theorem stepKeepsInvariant : Obligations.StepKeepsInvariant := fun _ t hs h => cycle_safe hs t h

end Sys2Proof.Machine
end

section
/-! The prefixes and the words of the table: closed facts about the model's definitions. -/
set_option Elab.async false

namespace Sys2Proof.Machine

/-- Settles O1: each of these items answers the state with its decode variable set. -/
theorem prefixesSetDecodeVariables : Obligations.PrefixesSetDecodeVariables := fun _ =>
  ⟨rfl, rfl, rfl, rfl, rfl, rfl, rfl, rfl, rfl, rfl, rfl⟩

/-- Settles O59: the decoder evaluated on the words. -/
theorem tableWordsDecode : Obligations.TableWordsDecode := by
  refine ⟨?_, ?_, ?_, ?_, ?_, ?_, ?_, ?_, ?_, ?_⟩ <;> decide

end Sys2Proof.Machine
end

section
/-! ## Decoder and encoder: the pieces of an item

What each reader of the decoder accepts, as an `↔` with the bytes the encoder writes: reading gives a value exactly when the
bytes are that value's, and the value is one the field can hold. Both directions of the round trip use these. -/
set_option Elab.async false

namespace Sys2Proof

/-! ### A reader followed by a constructor -/

/-- What a reader answers, with its value put through `f`. -/
def mapRead (f : α → β) : Except DecodeError (α × List Byte) → Except DecodeError (β × List Byte)
  | .ok (v, bs) => .ok (f v, bs)
  | .error e => .error e

theorem mapRead_eq_ok {f : α → β} {x : Except DecodeError (α × List Byte)} {y : β} {r : List Byte} :
    mapRead f x = .ok (y, r) ↔ ∃ v, f v = y ∧ x = .ok (v, r) := by
  rcases x with _ | ⟨v, bs⟩ <;> simp [mapRead]

theorem mapRead_eq_error {f : α → β} {x : Except DecodeError (α × List Byte)} {e : DecodeError} :
    mapRead f x = .error e ↔ x = .error e := by
  rcases x with _ | ⟨v, bs⟩ <;> simp [mapRead]

/-! ### Little-endian pieces -/

theorem take1_eq_ok {bs r : List Byte} {b : Byte} : take1 bs = .ok (b, r) ↔ bs = b :: r := by
  cases bs <;> simp [take1]

theorem bytes2_append (b0 b1 : Byte) : bytes2 (b1 ++ b0) = [b0, b1] := by
  rw [bytes2, BitVec.extractLsb'_append_eq_right, BitVec.extractLsb'_append_eq_left]

theorem append_bytes2 (w : Word) : w.extractLsb' 8 8 ++ w.extractLsb' 0 8 = w :=
  BitVec.extractLsb'_append_extractLsb'

theorem take2_eq_ok {bs r : List Byte} {w : Word} : take2 bs = .ok (w, r) ↔ bs = bytes2 w ++ r := by
  constructor
  · intro h
    match bs with
    | [] | [_] => simp [take2] at h
    | b0 :: b1 :: bs =>
      simp only [take2, Except.ok.injEq, Prod.mk.injEq] at h
      obtain ⟨rfl, rfl⟩ := h
      simp [bytes2_append]
  · rintro rfl
    simp [bytes2, take2, append_bytes2]

theorem getLsbD_append_byte (hi : BitVec n) (lo : Byte) (i : Nat) :
    (hi ++ lo).getLsbD (8 + i) = hi.getLsbD i := by
  simp [BitVec.getLsbD_append]

theorem extract_append_byte (hi : BitVec n) (lo : Byte) (k : Nat) :
    (hi ++ lo).extractLsb' (8 + k) 8 = hi.extractLsb' k 8 := by
  ext i h
  simp [Nat.add_assoc, getLsbD_append_byte]

theorem bytes4_append (b0 b1 b2 b3 : Byte) : bytes4 (b3 ++ b2 ++ b1 ++ b0) = [b0, b1, b2, b3] := by
  rw [bytes4, extract_append_byte _ _ 0, extract_append_byte _ _ 8, extract_append_byte _ _ 16,
    extract_append_byte _ _ 0, extract_append_byte _ _ 8, BitVec.extractLsb'_append_eq_right,
    BitVec.extractLsb'_append_eq_right, BitVec.extractLsb'_append_eq_right, BitVec.extractLsb'_append_eq_left]

theorem append_bytes4 (d : DWord) :
    d.extractLsb' 24 8 ++ d.extractLsb' 16 8 ++ d.extractLsb' 8 8 ++ d.extractLsb' 0 8 = d := by
  ext i hi
  simp only [BitVec.getElem_append, BitVec.getElem_extractLsb']
  grind

theorem take4_eq_ok {bs r : List Byte} {d : DWord} : take4 bs = .ok (d, r) ↔ bs = bytes4 d ++ r := by
  constructor
  · intro h
    match bs with
    | [] | [_] | [_, _] | [_, _, _] => simp [take4] at h
    | b0 :: b1 :: b2 :: b3 :: bs =>
      simp only [take4, Except.ok.injEq, Prod.mk.injEq] at h
      obtain ⟨rfl, rfl⟩ := h
      simp [bytes4_append]
  · rintro rfl
    simp [bytes4, take4, append_bytes4]

theorem fits_s16_iff {v : DWord} : fits .s16 v = true ↔ (v.setWidth 16).setWidth 32 = v := by
  simp only [fits, decide_eq_true_eq]
  constructor
  · intro h; bv_omega
  · intro h; rw [← h]; simp; omega

theorem takeV_s16 (bs : List Byte) : takeV .s16 bs = mapRead (·.setWidth 32) (take2 bs) := by
  unfold takeV; cases take2 bs <;> rfl

theorem takeV_eq_ok {z : Size} {bs r : List Byte} {v : DWord} :
    takeV z bs = .ok (v, r) ↔ fits z v = true ∧ bs = bytesV z v ++ r := by
  cases z with
  | s32 => simpa [takeV, fits, bytesV] using take4_eq_ok
  | s16 =>
    rw [fits_s16_iff, takeV_s16, mapRead_eq_ok]
    simp only [take2_eq_ok, bytesV]
    constructor
    · rintro ⟨w, rfl, h⟩
      simpa using h
    · rintro ⟨hv, h⟩
      exact ⟨_, hv, h⟩

/-! ### A byte of three fields: ModR/M and SIB -/

theorem fields_of_byte (b : Byte) :
    (b.extractLsb' 6 2 ++ b.extractLsb' 3 3 ++ b.extractLsb' 0 3 : BitVec 8) = b := by
  revert b; decide

theorem mode_of_fields (m : BitVec 2) (x y : RegNum) : (m ++ x ++ y : BitVec 8).extractLsb' 6 2 = m := by
  revert m x y; decide

theorem mid_of_fields (m : BitVec 2) (x y : RegNum) : (m ++ x ++ y : BitVec 8).extractLsb' 3 3 = x := by
  revert m x y; decide

theorem low_of_fields (m : BitVec 2) (x y : RegNum) : (m ++ x ++ y : BitVec 8).extractLsb' 0 3 = y := by
  revert m x y; decide

/-! ### Displacements -/

theorem mode_cases (mode : BitVec 2) (h : mode ≠ 3) : mode = 0 ∨ mode = 1 ∨ mode = 2 := by
  revert mode; decide

theorem takeDisp16_eq_ok {mode : BitVec 2} {bs r : List Byte} {d : Disp} (hm : mode ≠ 3) :
    takeDisp16 mode bs = .ok (d, r) ↔ d.mode = mode ∧ d.wf16 = true ∧ bs = d.bytes ++ r := by
  have zero : takeDisp16 0 bs = .ok (.none, bs) := rfl
  have one : takeDisp16 1 bs = mapRead .d8 (take1 bs) := by cases bs <;> rfl
  have two : takeDisp16 2 bs = mapRead .d16 (take2 bs) := by simp only [takeDisp16]; cases take2 bs <;> rfl
  obtain rfl | rfl | rfl := mode_cases mode hm
  · rw [zero]; cases d <;> simp [Disp.mode, Disp.bytes, Disp.wf16, eq_comm]
  · rw [one]; cases d <;> simp [mapRead_eq_ok, take1_eq_ok, Disp.mode, Disp.bytes, Disp.wf16]
  · rw [two]; cases d <;> simp [mapRead_eq_ok, take2_eq_ok, Disp.mode, Disp.bytes, Disp.wf16]

theorem takeDisp32_eq_ok {mode : BitVec 2} {bs r : List Byte} {d : Disp} (hm : mode ≠ 3) :
    takeDisp32 mode bs = .ok (d, r) ↔ d.mode = mode ∧ d.wf32 = true ∧ bs = d.bytes ++ r := by
  have zero : takeDisp32 0 bs = .ok (.none, bs) := rfl
  have one : takeDisp32 1 bs = mapRead .d8 (take1 bs) := by cases bs <;> rfl
  have two : takeDisp32 2 bs = mapRead .d32 (take4 bs) := by simp only [takeDisp32]; cases take4 bs <;> rfl
  obtain rfl | rfl | rfl := mode_cases mode hm
  · rw [zero]; cases d <;> simp [Disp.mode, Disp.bytes, Disp.wf32, eq_comm]
  · rw [one]; cases d <;> simp [mapRead_eq_ok, take1_eq_ok, Disp.mode, Disp.bytes, Disp.wf32]
  · rw [two]; cases d <;> simp [mapRead_eq_ok, take4_eq_ok, Disp.mode, Disp.bytes, Disp.wf32]

theorem Disp.mode_ne_three (d : Disp) : d.mode ≠ 3 := by cases d <;> simp [Disp.mode]

theorem Disp.eq_none_iff {d : Disp} : d = .none ↔ d.mode = 0 := by cases d <;> simp [Disp.mode]

theorem Mem.mode_ne_three : (m : Mem) → m.mode ≠ 3
  | .a16 _ d | .a32 _ d | .sib _ _ _ d => d.mode_ne_three
  | .abs16 _ | .abs32 _ | .sibAbs _ _ _ => by simp [Mem.mode]

/-! ### Memory forms -/

theorem takeMem16_eq (mode : BitVec 2) (rm : RegNum) (bs : List Byte) :
    takeMem16 mode rm bs = if mode = 0 ∧ rm = 6 then mapRead .abs16 (take2 bs)
      else mapRead (.a16 rm) (takeDisp16 mode bs) := by
  unfold takeMem16; cases take2 bs <;> cases takeDisp16 mode bs <;> rfl

theorem takeMem16_eq_ok {mode : BitVec 2} {rm : RegNum} {bs r : List Byte} {m : Mem} (hm : mode ≠ 3) :
    takeMem16 mode rm bs = .ok (m, r) ↔
      m.wf .s16 = true ∧ m.mode = mode ∧ m.rmField = rm ∧ bs = m.restBytes ++ r := by
  rw [takeMem16_eq]
  split
  next hc =>
    cases m <;> simp [mapRead_eq_ok, take2_eq_ok, hc, Mem.wf, Mem.mode, Mem.rmField, Mem.restBytes,
      Disp.eq_none_iff]
    grind
  next hc =>
    cases m <;> simp [mapRead_eq_ok, takeDisp16_eq_ok hm, Mem.wf, Mem.mode, Mem.rmField, Mem.restBytes,
      Disp.eq_none_iff]
    all_goals grind

/-- What `takeSib` does with the fields of its byte. -/
theorem takeSib_cons (mode ss : BitVec 2) (index base : RegNum) (bs : List Byte) :
    takeSib mode ((ss ++ index ++ base) :: bs) =
      if mode = 0 ∧ base = 5 then mapRead (.sibAbs ss index) (take4 bs)
      else mapRead (.sib ss index base) (takeDisp32 mode bs) := by
  have h : takeSib mode ((ss ++ index ++ base) :: bs) =
      (fun ss index base => if mode = 0 ∧ base = 5 then mapRead (.sibAbs ss index) (take4 bs)
        else mapRead (.sib ss index base) (takeDisp32 mode bs))
        ((ss ++ index ++ base : Byte).extractLsb' 6 2) ((ss ++ index ++ base : Byte).extractLsb' 3 3)
        ((ss ++ index ++ base : Byte).extractLsb' 0 3) := by
    simp only [takeSib, take1]; cases take4 bs <;> cases takeDisp32 mode bs <;> rfl
  rw [h, mode_of_fields, mid_of_fields, low_of_fields]

theorem fields_eq_iff {m m' : BitVec 2} {x y x' y' : RegNum} :
    (m ++ x ++ y : Byte) = m' ++ x' ++ y' ↔ m = m' ∧ x = x' ∧ y = y' := by
  constructor
  · intro h
    have mode := mode_of_fields m x y
    have mid := mid_of_fields m x y
    have low := low_of_fields m x y
    rw [h] at mode mid low
    exact ⟨mode.symm.trans (mode_of_fields ..), mid.symm.trans (mid_of_fields ..), low.symm.trans (low_of_fields ..)⟩
  · rintro ⟨rfl, rfl, rfl⟩; rfl

/-- A byte is three fields. -/
theorem exists_fields (b : Byte) : ∃ (m : BitVec 2) (x y : RegNum), b = m ++ x ++ y :=
  ⟨_, _, _, (fields_of_byte b).symm⟩

/-- The SIB forms are those with r/m = 100. -/
theorem Mem.sib_of_rmField {m : Mem} (hw : m.wf .s32 = true) (h : m.rmField = 4) :
    ∃ b bs, m.restBytes = b :: bs := by
  cases m <;> simp_all [Mem.wf, Mem.rmField, Mem.restBytes]

theorem takeSib_eq_ok {mode : BitVec 2} {bs r : List Byte} {m : Mem} (hm : mode ≠ 3) :
    takeSib mode bs = .ok (m, r) ↔ m.wf .s32 = true ∧ m.mode = mode ∧ m.rmField = 4 ∧ bs = m.restBytes ++ r := by
  cases bs with
  | nil =>
    constructor
    · intro h; cases h
    · rintro ⟨hw, -, h4, h⟩
      obtain ⟨b, bs, hb⟩ := Mem.sib_of_rmField hw h4
      simp [hb] at h
  | cons b bs =>
    obtain ⟨ss, index, base, rfl⟩ := exists_fields b
    rw [takeSib_cons]
    split
    next hc =>
      cases m <;> simp [mapRead_eq_ok, take4_eq_ok, hc, Mem.wf, Mem.mode, Mem.rmField, Mem.restBytes,
        Disp.eq_none_iff, fields_eq_iff]
      all_goals grind
    next hc =>
      cases m <;> simp [mapRead_eq_ok, takeDisp32_eq_ok hm, Mem.wf, Mem.mode, Mem.rmField, Mem.restBytes,
        Disp.eq_none_iff, fields_eq_iff]
      all_goals grind

theorem takeMem32_eq (mode : BitVec 2) (rm : RegNum) (bs : List Byte) :
    takeMem32 mode rm bs = if rm = 4 then takeSib mode bs
      else if mode = 0 ∧ rm = 5 then mapRead .abs32 (take4 bs)
      else mapRead (.a32 rm) (takeDisp32 mode bs) := by
  unfold takeMem32; cases take4 bs <;> cases takeDisp32 mode bs <;> rfl

theorem takeMem32_eq_ok {mode : BitVec 2} {rm : RegNum} {bs r : List Byte} {m : Mem} (hm : mode ≠ 3) :
    takeMem32 mode rm bs = .ok (m, r) ↔
      m.wf .s32 = true ∧ m.mode = mode ∧ m.rmField = rm ∧ bs = m.restBytes ++ r := by
  rw [takeMem32_eq]
  split
  next hc => rw [takeSib_eq_ok hm, hc]
  next hs =>
    split
    next hc =>
      cases m <;> simp [mapRead_eq_ok, take4_eq_ok, hc, Mem.wf, Mem.mode, Mem.rmField, Mem.restBytes,
        Disp.eq_none_iff]
      all_goals grind
    next hc =>
      cases m <;> simp [mapRead_eq_ok, takeDisp32_eq_ok hm, Mem.wf, Mem.mode, Mem.rmField, Mem.restBytes,
        Disp.eq_none_iff]
      all_goals grind

/-! ### ModR/M -/

/-- Reads a memory form of the address size. -/
def takeMem (a : Size) (mode : BitVec 2) (rm : RegNum) (bs : List Byte) : Except DecodeError (Mem × List Byte) :=
  match a with
  | .s16 => takeMem16 mode rm bs
  | .s32 => takeMem32 mode rm bs

theorem takeMem_eq_ok {a : Size} {mode : BitVec 2} {rm : RegNum} {bs r : List Byte} {m : Mem} (hm : mode ≠ 3) :
    takeMem a mode rm bs = .ok (m, r) ↔ m.wf a = true ∧ m.mode = mode ∧ m.rmField = rm ∧ bs = m.restBytes ++ r := by
  cases a
  · exact takeMem16_eq_ok hm
  · exact takeMem32_eq_ok hm

/-- What `takeRm` does with the fields of ModR/M. -/
theorem takeRm_cons (a : Size) (mode : BitVec 2) (reg rm : RegNum) (bs : List Byte) :
    takeRm a ((mode ++ reg ++ rm) :: bs) =
      if mode = 3 then .ok ((reg, .reg rm), bs) else mapRead (fun m => (reg, .mem m)) (takeMem a mode rm bs) := by
  simp only [takeRm, take1, mode_of_fields, mid_of_fields, low_of_fields]
  split
  next => rfl
  next =>
    cases a
    · simp only [takeMem]; cases takeMem16 mode rm bs <;> rfl
    · simp only [takeMem]; cases takeMem32 mode rm bs <;> rfl

theorem takeRm_eq_ok {a : Size} {reg : RegNum} {m : Rm} {bs r : List Byte} :
    takeRm a bs = .ok ((reg, m), r) ↔ m.wf a = true ∧ bs = encodeRm reg m ++ r := by
  cases bs with
  | nil => cases m <;> simp [takeRm, take1, encodeRm]
  | cons b bs =>
    obtain ⟨mode, reg', rm, rfl⟩ := exists_fields b
    rw [takeRm_cons]
    split
    next hc =>
      cases m with
      | reg i => simp [Rm.wf, encodeRm, fields_eq_iff, hc, and_assoc]
      | mem m => simp [encodeRm, fields_eq_iff, hc]; exact fun _ h => absurd h.symm m.mode_ne_three
    next hc =>
      cases m with
      | reg i => simp [mapRead_eq_ok, Rm.wf, encodeRm, fields_eq_iff]; exact fun h => absurd h hc
      | mem m => simp [mapRead_eq_ok, takeMem_eq_ok hc, Rm.wf, encodeRm, fields_eq_iff]; grind

end Sys2Proof
end

section
/-! ## Decoder and encoder: the layout of an item

`Raw.Layout` says which layouts the decoder can read: the opcode decides the kinds of the ModR/M part and of the immediate part,
and both hold what their fields can. -/
set_option Elab.async false

namespace Sys2Proof

/-! ### The two parts -/

/-- The kind of a ModR/M part. -/
def Tail.kind : Tail → TailKind
  | .none => .none
  | .opreg _ => .opreg
  | .rm _ _ => .rm
  | .raw _ _ _ => .raw

/-- A ModR/M part whose memory form is one of the address size. -/
def Tail.wf (a : Size) : Tail → Bool
  | .rm _ m => m.wf a
  | _ => true

/-- The kind of an immediate part. -/
def Imm.kind : Imm → ImmKind
  | .none => .none
  | .ib _ => .ib
  | .iw _ => .iw
  | .iv _ => .iv
  | .cp _ _ => .cp
  | .moffs _ => .moffs
  | .enter _ _ => .enter

/-- An immediate part whose value fits its field. -/
def Imm.wf (z a : Size) : Imm → Bool
  | .iv v => fits z v
  | .cp v _ => fits z v
  | .moffs v => fits a v
  | _ => true

theorem takeTail_eq_ok {a : Size} {k : TailKind} {op : Byte} {bs r : List Byte} {t : Tail} :
    takeTail a k op bs = .ok (t, r) ↔
      t.kind = k ∧ t.wf a = true ∧ (∀ i, t = .opreg i → i = op.extractLsb' 0 3) ∧ bs = t.bytes ++ r := by
  cases k with
  | none => cases t <;> simp [takeTail, Tail.kind, Tail.wf, Tail.bytes]
  | opreg => cases t <;> simp [takeTail, Tail.kind, Tail.wf, Tail.bytes]; grind
  | rm =>
    have e : takeTail a .rm op bs = mapRead (fun x => .rm x.1 x.2) (takeRm a bs) := by
      simp only [takeTail]; rcases takeRm a bs with _ | ⟨⟨_, _⟩, _⟩ <;> rfl
    rw [e, mapRead_eq_ok]
    cases t <;> simp [Tail.kind, Tail.wf, Tail.bytes, takeRm_eq_ok]
  | raw =>
    have e : takeTail a .raw op bs = mapRead
        (fun b => .raw (b.extractLsb' 6 2) (b.extractLsb' 3 3) (b.extractLsb' 0 3)) (take1 bs) := by
      cases bs <;> rfl
    rw [e, mapRead_eq_ok]
    cases t with
    | raw mode reg rm =>
      simp only [Tail.kind, Tail.wf, Tail.bytes, take1_eq_ok]
      constructor
      · rintro ⟨b, h, rfl⟩
        obtain ⟨m, x, y, rfl⟩ := exists_fields b
        simp only [mode_of_fields, mid_of_fields, low_of_fields, Tail.raw.injEq] at h
        simp [h]
      · rintro ⟨-, -, -, rfl⟩
        exact ⟨_, by rw [mode_of_fields, mid_of_fields, low_of_fields], rfl⟩
    | _ => simp [Tail.kind]

/-- Reads two pieces, one after the other; the first may say what the second is. -/
def takePair (x : Except DecodeError (α × List Byte)) (f : α → List Byte → Except DecodeError (β × List Byte)) :
    Except DecodeError ((α × β) × List Byte) :=
  match x with
  | .ok (v, bs) => mapRead (fun w => (v, w)) (f v bs)
  | .error e => .error e

theorem takePair_eq_ok {x : Except DecodeError (α × List Byte)}
    {f : α → List Byte → Except DecodeError (β × List Byte)} {v : α} {w : β} {r : List Byte} :
    takePair x f = .ok ((v, w), r) ↔ ∃ bs, x = .ok (v, bs) ∧ f v bs = .ok (w, r) := by
  rcases x with _ | ⟨v', bs⟩
  · simp [takePair]
  · simp only [takePair, mapRead_eq_ok, Prod.mk.injEq, Except.ok.injEq]; grind

theorem takeImm_cp (z a : Size) (bs : List Byte) :
    takeImm z a .cp bs = mapRead (fun x => .cp x.1 x.2) (takePair (takeV z bs) fun _ => take2) := by
  simp only [takeImm]
  rcases takeV z bs with _ | ⟨v, bs'⟩
  · rfl
  · simp only [takePair]; rcases take2 bs' with _ | ⟨w, bs''⟩ <;> rfl

theorem takeImm_enter (z a : Size) (bs : List Byte) :
    takeImm z a .enter bs = mapRead (fun x => .enter x.1 x.2) (takePair (take2 bs) fun _ => take1) := by
  simp only [takeImm]
  rcases take2 bs with _ | ⟨v, bs'⟩
  · rfl
  · simp only [takePair]; rcases take1 bs' with _ | ⟨w, bs''⟩ <;> rfl

theorem takeImm_eq_ok {z a : Size} {k : ImmKind} {bs r : List Byte} {im : Imm} :
    takeImm z a k bs = .ok (im, r) ↔ im.kind = k ∧ im.wf z a = true ∧ bs = im.bytes z a ++ r := by
  cases k with
  | none => cases im <;> simp [takeImm, Imm.kind, Imm.wf, Imm.bytes]
  | ib =>
    have e : takeImm z a .ib bs = mapRead .ib (take1 bs) := by cases bs <;> rfl
    cases im <;> simp [e, mapRead_eq_ok, take1_eq_ok, Imm.kind, Imm.wf, Imm.bytes]
  | iw =>
    have e : takeImm z a .iw bs = mapRead .iw (take2 bs) := by simp only [takeImm]; cases take2 bs <;> rfl
    cases im <;> simp [e, mapRead_eq_ok, take2_eq_ok, Imm.kind, Imm.wf, Imm.bytes]
  | iv =>
    have e : takeImm z a .iv bs = mapRead .iv (takeV z bs) := by simp only [takeImm]; cases takeV z bs <;> rfl
    cases im <;> simp [e, mapRead_eq_ok, takeV_eq_ok, Imm.kind, Imm.wf, Imm.bytes]
  | moffs =>
    have e : takeImm z a .moffs bs = mapRead .moffs (takeV a bs) := by simp only [takeImm]; cases takeV a bs <;> rfl
    cases im <;> simp [e, mapRead_eq_ok, takeV_eq_ok, Imm.kind, Imm.wf, Imm.bytes]
  | cp =>
    cases im <;> simp [takeImm_cp, mapRead_eq_ok, takePair_eq_ok, takeV_eq_ok, take2_eq_ok, Imm.kind, Imm.wf, Imm.bytes]
  | enter =>
    cases im <;> simp [takeImm_enter, mapRead_eq_ok, takePair_eq_ok, take1_eq_ok, take2_eq_ok, Imm.kind, Imm.wf, Imm.bytes]

/-! ### The opcode byte -/

/-- The opcode byte has its low three bits free for the register number, if it holds one. -/
def Tail.regFree (op : Byte) : Tail → Bool
  | .opreg _ => op &&& 0xF8 == op
  | _ => true

/-- The opcodes that hold a register number, without it. -/
def opregBases (two : Bool) : List Byte := if two then [0xC8] else [0x40, 0x48, 0x50, 0x58, 0x90, 0xB0, 0xB8]

theorem mem_opregBases : ∀ (two : Bool) (op : Byte), tailKind two op.toNat = .opreg → op &&& 0xF8 ∈ opregBases two := by
  decide +kernel

/-- Putting a register number in the opcode byte does not change what follows it, and base and number can be read off. -/
theorem opreg_byte : ∀ two, ∀ op ∈ opregBases two, ∀ r : RegNum,
    tailKind two (op ||| r.setWidth 8).toNat = .opreg ∧ opBase .opreg (op ||| r.setWidth 8) = op ∧
      (op ||| r.setWidth 8).extractLsb' 0 3 = r ∧ op ||| r.setWidth 8 ≠ 0x0F ∧ op ≠ 0x0F := by
  decide +kernel

theorem opregBases_kind : ∀ two, ∀ op ∈ opregBases two, tailKind two op.toNat = .opreg ∧ op &&& 0xF8 = op := by
  decide +kernel

/-- An opcode byte is its base and its register number. -/
theorem byte_of_opreg : ∀ op : Byte, opBase .opreg op ||| (op.extractLsb' 0 3).setWidth 8 = op := by
  decide +kernel

/-- The parts of a layout are of the kinds its opcode asks for. -/
def Raw.kindsAgree (w : Raw) : Bool :=
  w.tail.kind == tailKind w.two w.op.toNat && (w.imm.kind == immKind w.two w.op.toNat w.tail.regField && w.tail.regFree w.op)

/-- The parts of a layout hold what their fields can; only these immediates have values that do not fit. -/
def Raw.partsFit (z a : Size) (w : Raw) : Bool :=
  match w.imm with
  | .iv v | .cp v _ => w.tail.wf a && fits z v
  | .moffs v => w.tail.wf a && fits a v
  | _ => w.tail.wf a

theorem Raw.partsFit_iff {z a : Size} {w : Raw} : w.partsFit z a = true ↔ w.tail.wf a = true ∧ w.imm.wf z a = true := by
  obtain ⟨_, _, _, im⟩ := w
  cases im <;> simp [Raw.partsFit, Imm.wf]

/-- A layout the decoder can read: the escape byte 0FH is no opcode of its own. -/
structure Raw.Layout (z a : Size) (w : Raw) : Prop where
  kinds : w.kindsAgree = true
  escape : (w.two || w.op != 0x0F) = true
  parts : w.partsFit z a = true

theorem Raw.kindsAgree_iff {w : Raw} : w.kindsAgree = true ↔
    w.tail.kind = tailKind w.two w.op.toNat ∧ w.imm.kind = immKind w.two w.op.toNat w.tail.regField ∧
      w.tail.regFree w.op = true := by
  simp [Raw.kindsAgree]

theorem opBase_of_ne {k : TailKind} (h : k ≠ .opreg) (op : Byte) : opBase k op = op := by
  cases k <;> simp_all [opBase]

/-- An opcode byte with the ModR/M part that follows it: the base and the number in it, and the kind of the part. -/
theorem opByte_eq_iff {two : Bool} {op base : Byte} {t : Tail} :
    (t.kind = tailKind two op.toNat ∧ (∀ i, t = .opreg i → i = op.extractLsb' 0 3) ∧
        base = opBase (tailKind two op.toNat) op) ↔
      op = opByte base t ∧ t.kind = tailKind two base.toNat ∧ (∀ i, t = .opreg i → base &&& 0xF8 = base) := by
  by_cases ht : ∃ i, t = .opreg i
  · obtain ⟨i, rfl⟩ := ht
    constructor
    · rintro ⟨hk, hi, rfl⟩
      obtain rfl := hi i rfl
      obtain ⟨htail, hbase⟩ := opregBases_kind two _ (mem_opregBases two op hk.symm)
      rw [← hk]
      exact ⟨(byte_of_opreg op).symm, htail.symm, fun _ _ => hbase⟩
    · rintro ⟨rfl, hk, hb⟩
      have hmem : base ∈ opregBases two := hb i rfl ▸ mem_opregBases two base hk.symm
      obtain ⟨htail, hbase, hr, -⟩ := opreg_byte two base hmem i
      exact ⟨htail.symm, fun j hj => by cases hj; exact hr.symm, by rw [opByte, htail]; exact hbase.symm⟩
  · have hne : t.kind ≠ .opreg := by cases t <;> simp_all [Tail.kind]
    have hop : opByte base t = base := by cases t <;> simp_all [opByte]
    rw [hop]
    constructor
    · rintro ⟨hk, -, hb⟩
      rw [opBase_of_ne (hk ▸ hne)] at hb
      subst hb
      exact ⟨rfl, hk, fun i hi => absurd ⟨i, hi⟩ ht⟩
    · rintro ⟨rfl, hk, -⟩
      exact ⟨hk, fun i hi => absurd ⟨i, hi⟩ ht, (opBase_of_ne (hk ▸ hne) _).symm⟩

theorem Tail.regFree_iff {op : Byte} {t : Tail} : t.regFree op = true ↔ ∀ i, t = .opreg i → op &&& 0xF8 = op := by
  cases t <;> simp [Tail.regFree]

theorem takeItem_eq (z a : Size) (two : Bool) (op : Byte) (bs : List Byte) :
    takeItem z a two op bs = mapRead (fun x => ⟨two, opBase (tailKind two op.toNat) op, x.1, x.2⟩)
      (takePair (takeTail a (tailKind two op.toNat) op bs)
        fun t => takeImm z a (immKind two (opBase (tailKind two op.toNat) op).toNat t.regField)) := by
  simp only [takeItem]
  rcases takeTail a (tailKind two op.toNat) op bs with _ | ⟨t, bs'⟩
  · rfl
  · simp only [takePair]
    rcases takeImm z a (immKind two (opBase (tailKind two op.toNat) op).toNat t.regField) bs' with _ | ⟨im, r⟩ <;> rfl

theorem takeItem_eq_ok {z a : Size} {two : Bool} {op : Byte} {bs r : List Byte} {w : Raw} :
    takeItem z a two op bs = .ok (w, r) ↔
      w.two = two ∧ op = opByte w.op w.tail ∧ w.kindsAgree = true ∧ w.partsFit z a = true ∧
        bs = w.tail.bytes ++ (w.imm.bytes z a ++ r) := by
  obtain ⟨two', base, t, im⟩ := w
  rw [takeItem_eq, mapRead_eq_ok, Raw.kindsAgree_iff, Tail.regFree_iff]
  simp only [Prod.exists, takePair_eq_ok, takeTail_eq_ok, takeImm_eq_ok, Raw.mk.injEq, Raw.partsFit_iff]
  constructor
  · rintro ⟨_, _, ⟨rfl, hb, rfl, rfl⟩, _, ⟨hk, htw, hr, rfl⟩, hik, hiw, rfl⟩
    obtain ⟨hop, hk', hreg⟩ := opByte_eq_iff.1 ⟨hk, hr, hb.symm⟩
    exact ⟨rfl, hop, ⟨hk', hb ▸ hik, hreg⟩, ⟨htw, hiw⟩, rfl⟩
  · rintro ⟨rfl, hop, ⟨hk', hik, hreg⟩, ⟨htw, hiw⟩, rfl⟩
    obtain ⟨hk, hr, hb⟩ := opByte_eq_iff.2 ⟨hop, hk', hreg⟩
    exact ⟨t, im, ⟨rfl, hb.symm, rfl, rfl⟩, _, ⟨hk, htw, hr, rfl⟩, hb ▸ hik, hiw, rfl⟩

/-! ### An item -/

theorem opByte_eq_escape_iff {w : Raw} (h : w.kindsAgree = true) : opByte w.op w.tail = 0x0F ↔ w.op = 0x0F := by
  obtain ⟨hk, -, hreg⟩ := Raw.kindsAgree_iff.1 h
  cases ht : w.tail with
  | opreg i =>
    rw [ht] at hk
    have hmem : w.op ∈ opregBases w.two := Tail.regFree_iff.1 hreg i ht ▸ mem_opregBases w.two w.op hk.symm
    obtain ⟨-, -, -, hbyte, hop⟩ := opreg_byte w.two w.op hmem i
    exact iff_of_false hbyte hop
  | _ => rfl

theorem takeRaw_escape (z a : Size) (op : Byte) (bs : List Byte) :
    takeRaw z a (0x0F :: op :: bs) = takeItem z a true op bs := rfl

theorem takeRaw_of_ne {b : Byte} (h : b ≠ 0x0F) (z a : Size) (bs : List Byte) :
    takeRaw z a (b :: bs) = takeItem z a false b bs := if_neg h

/-- What the decoder reads are the layouts, each from its own bytes. -/
theorem takeRaw_eq_ok {z a : Size} {bs r : List Byte} {w : Raw} :
    takeRaw z a bs = .ok (w, r) ↔ w.Layout z a ∧ bs = w.bytes z a ++ r := by
  constructor
  · intro h
    match bs with
    | [] => cases h
    | b :: bs =>
      by_cases hb : b = 0x0F
      · subst hb
        match bs with
        | [] => cases h
        | op :: bs =>
          obtain ⟨htwo, hop, hk, hp, rfl⟩ := takeItem_eq_ok.1 (takeRaw_escape z a op bs ▸ h)
          exact ⟨⟨hk, by simp [htwo], hp⟩, by simp [Raw.bytes, htwo, hop]⟩
      · have h' : takeItem z a false b bs = .ok (w, r) := (if_neg hb).symm.trans h
        obtain ⟨htwo, hop, hk, hp, rfl⟩ := takeItem_eq_ok.1 h'
        have hne : w.op ≠ 0x0F := fun e => hb (hop.trans ((opByte_eq_escape_iff hk).2 e))
        exact ⟨⟨hk, by simpa using .inr hne, hp⟩, by simp [Raw.bytes, htwo, hop]⟩
  · rintro ⟨⟨hk, hesc, hp⟩, rfl⟩
    have item : takeItem z a w.two (opByte w.op w.tail) (w.tail.bytes ++ (w.imm.bytes z a ++ r)) = .ok (w, r) :=
      takeItem_eq_ok.2 ⟨rfl, rfl, hk, hp, rfl⟩
    cases htwo : w.two with
    | true =>
      rw [htwo] at item
      have bytes : w.bytes z a ++ r = 0x0F :: opByte w.op w.tail :: (w.tail.bytes ++ (w.imm.bytes z a ++ r)) := by
        simp [Raw.bytes, htwo]
      rw [bytes, takeRaw_escape, item]
    | false =>
      rw [htwo] at item hesc
      have hne : opByte w.op w.tail ≠ 0x0F := fun e => by
        simp [(opByte_eq_escape_iff hk).1 e] at hesc
      simpa [Raw.bytes, htwo, takeRaw_of_ne hne] using item

/-! ### The readers run out of bytes at most -/

theorem take1_error {bs : List Byte} {e : DecodeError} (h : take1 bs = .error e) : e = .truncated := by
  cases bs <;> simp_all [take1]

theorem take2_error {bs : List Byte} {e : DecodeError} (h : take2 bs = .error e) : e = .truncated := by
  unfold take2 at h; split at h <;> simp_all

theorem take4_error {bs : List Byte} {e : DecodeError} (h : take4 bs = .error e) : e = .truncated := by
  unfold take4 at h; split at h <;> simp_all

theorem takeV_error {z : Size} {bs : List Byte} {e : DecodeError} (h : takeV z bs = .error e) : e = .truncated := by
  cases z with
  | s16 => rw [takeV_s16, mapRead_eq_error] at h; exact take2_error h
  | s32 => exact take4_error h

theorem takeDisp16_error {mode : BitVec 2} {bs : List Byte} {e : DecodeError} (h : takeDisp16 mode bs = .error e) :
    e = .truncated := by
  unfold takeDisp16 at h
  split at h
  · cases h
  · split at h <;> cases h; exact take1_error ‹_›
  · split at h <;> cases h; exact take2_error ‹_›

theorem takeDisp32_error {mode : BitVec 2} {bs : List Byte} {e : DecodeError} (h : takeDisp32 mode bs = .error e) :
    e = .truncated := by
  unfold takeDisp32 at h
  split at h
  · cases h
  · split at h <;> cases h; exact take1_error ‹_›
  · split at h <;> cases h; exact take4_error ‹_›

theorem takeMem16_error {mode : BitVec 2} {rm : RegNum} {bs : List Byte} {e : DecodeError}
    (h : takeMem16 mode rm bs = .error e) : e = .truncated := by
  rw [takeMem16_eq] at h
  split at h
  · exact take2_error (mapRead_eq_error.1 h)
  · exact takeDisp16_error (mapRead_eq_error.1 h)

theorem takeSib_error {mode : BitVec 2} {bs : List Byte} {e : DecodeError} (h : takeSib mode bs = .error e) :
    e = .truncated := by
  cases bs with
  | nil => exact take1_error (bs := []) (by simpa [takeSib, take1] using h)
  | cons b bs =>
    obtain ⟨ss, index, base, rfl⟩ := exists_fields b
    rw [takeSib_cons] at h
    split at h
    · exact take4_error (mapRead_eq_error.1 h)
    · exact takeDisp32_error (mapRead_eq_error.1 h)

theorem takeMem32_error {mode : BitVec 2} {rm : RegNum} {bs : List Byte} {e : DecodeError}
    (h : takeMem32 mode rm bs = .error e) : e = .truncated := by
  rw [takeMem32_eq] at h
  split at h
  · exact takeSib_error h
  · split at h
    · exact take4_error (mapRead_eq_error.1 h)
    · exact takeDisp32_error (mapRead_eq_error.1 h)

theorem takeRm_error {a : Size} {bs : List Byte} {e : DecodeError} (h : takeRm a bs = .error e) : e = .truncated := by
  cases bs with
  | nil => exact take1_error (bs := []) (by simpa [takeRm, take1] using h)
  | cons b bs =>
    obtain ⟨mode, reg, rm, rfl⟩ := exists_fields b
    rw [takeRm_cons] at h
    split at h
    · cases h
    · cases a
      · exact takeMem16_error (mapRead_eq_error.1 h)
      · exact takeMem32_error (mapRead_eq_error.1 h)

theorem takeTail_error {a : Size} {k : TailKind} {op : Byte} {bs : List Byte} {e : DecodeError}
    (h : takeTail a k op bs = .error e) : e = .truncated := by
  cases k with
  | none | opreg => cases h
  | rm => simp only [takeTail] at h; split at h <;> cases h; exact takeRm_error ‹_›
  | raw => simp only [takeTail] at h; split at h <;> cases h; exact take1_error ‹_›

theorem takeImm_error {z a : Size} {k : ImmKind} {bs : List Byte} {e : DecodeError}
    (h : takeImm z a k bs = .error e) : e = .truncated := by
  cases k with
  | none => cases h
  | ib => simp only [takeImm] at h; split at h <;> cases h; exact take1_error ‹_›
  | iw => simp only [takeImm] at h; split at h <;> cases h; exact take2_error ‹_›
  | iv | moffs => simp only [takeImm] at h; split at h <;> cases h; exact takeV_error ‹_›
  | cp =>
    simp only [takeImm] at h
    split at h
    · split at h <;> cases h; exact take2_error ‹_›
    · cases h; exact takeV_error ‹_›
  | enter =>
    simp only [takeImm] at h
    split at h
    · split at h <;> cases h; exact take1_error ‹_›
    · cases h; exact take2_error ‹_›

theorem takeItem_error {z a : Size} {two : Bool} {op : Byte} {bs : List Byte} {e : DecodeError}
    (h : takeItem z a two op bs = .error e) : e = .truncated := by
  simp only [takeItem] at h
  split at h
  · cases h; exact takeTail_error ‹_›
  · split at h <;> cases h; exact takeImm_error ‹_›

theorem takeRaw_error {z a : Size} {bs : List Byte} {e : DecodeError} (h : takeRaw z a bs = .error e) :
    e = .truncated := by
  simp only [takeRaw] at h
  split at h
  · cases h; exact take1_error ‹_›
  · split at h
    · split at h
      · cases h; exact take1_error ‹_›
      · exact takeItem_error h
    · exact takeItem_error h

end Sys2Proof
end

section
/-! ## Decoder and encoder: layouts and instructions

The layout of a well-formed instruction is one the decoder can read, and every such layout is that of a well-formed
instruction. The rows of the table are taken by the kinds of their two parts. -/
set_option Elab.async false

namespace Sys2Proof
open Laws.RawRoundTrip (reg_cases)

/-! ### The layout of an instruction -/

theorem Raw.layout_mk {z a : Size} {two : Bool} {op : Byte} {t : Tail} {im : Imm} (ht : t.kind = tailKind two op.toNat)
    (hi : im.kind = immKind two op.toNat t.regField) (hr : t.regFree op = true)
    (he : (two || op != 0x0F) = true) (hp : Raw.partsFit z a ⟨two, op, t, im⟩ = true) : Raw.Layout z a ⟨two, op, t, im⟩ :=
  ⟨Raw.kindsAgree_iff.2 ⟨ht, hi, hr⟩, he, hp⟩

/-- The two groups whose reg field decides on an immediate have none when it is not 0. -/
theorem immKind_group : ∀ op ∈ [(0xC6 : Byte), 0xC7], ∀ r : RegNum, (r != 0) = true →
    immKind false op.toNat r.toNat = .none := by decide

/-- 0F BA has no immediate before /4. -/
theorem immKind_0FBA : ∀ r : RegNum, decide (r.toNat < 4) = true → immKind true 0xBA r.toNat = .none := by decide

/-- An undefined second byte is followed by nothing. -/
theorem undefTwoByte_kinds : ∀ b : Byte, undefTwoByteWf b none = true →
    tailKind true b.toNat = .none ∧ immKind true b.toNat 0 = .none := by decide +kernel

/-- A memory-only second byte with mod = 11B is followed by ModR/M. -/
theorem undefTwoByte_rm_kinds {b : Byte} {r i : RegNum} (h : undefTwoByteWf b (some (r, i)) = true) :
    tailKind true b.toNat = .rm ∧ immKind true b.toNat r.toNat = .none := by
  have hb : ((b = 0x01 ∨ b = 0xB2) ∨ b = 0xB4) ∨ b = 0xB5 := by
    simp only [undefTwoByteWf, Bool.or_eq_true, Bool.and_eq_true, beq_iff_eq] at h
    tauto
  obtain ((rfl | rfl) | rfl) | rfl := hb <;> exact ⟨rfl, rfl⟩

theorem UndefForm.raw_layout {z a : Size} {f : UndefForm} (h : (Instr.undefined f).wf z a = true) :
    (Instr.undefined f).raw.Layout z a := by
  cases f
  case op0F b m =>
    cases m with
    | none =>
      obtain ⟨ht, hi⟩ := undefTwoByte_kinds b h
      exact Raw.layout_mk ht.symm hi.symm rfl rfl rfl
    | some ri =>
      obtain ⟨ht, hi⟩ := undefTwoByte_rm_kinds (i := ri.2) h
      exact Raw.layout_mk ht.symm hi.symm rfl rfl rfl
  case opFE r m =>
    exact Raw.layout_mk rfl rfl rfl rfl (Bool.and_eq_true_iff.1 h).1
  case op8F r m => exact Raw.layout_mk rfl rfl rfl rfl (Bool.and_eq_true_iff.1 h).1
  case opC6 r m =>
    obtain ⟨hm, hr⟩ := Bool.and_eq_true_iff.1 h
    exact Raw.layout_mk rfl (immKind_group 0xC6 (by decide) r hr).symm rfl rfl hm
  case opC7 r m =>
    obtain ⟨hm, hr⟩ := Bool.and_eq_true_iff.1 h
    exact Raw.layout_mk rfl (immKind_group 0xC7 (by decide) r hr).symm rfl rfl hm
  case op0FBA r m =>
    obtain ⟨hm, hr⟩ := Bool.and_eq_true_iff.1 h
    exact Raw.layout_mk rfl (immKind_0FBA r hr).symm rfl rfl hm
  all_goals exact Raw.layout_mk rfl rfl rfl rfl h

theorem Instr.raw_layout {z a : Size} {i : Instr} (h : i.wf z a = true) : i.raw.Layout z a := by
  cases i
  case undefined f => exact UndefForm.raw_layout h
  case undefinedEsc f =>
    cases f <;> exact Raw.layout_mk rfl rfl rfl rfl (Bool.and_eq_true_iff.1 h).1
  case xchg f =>
    cases f with
    | eaxReg r => exact Raw.layout_mk rfl rfl rfl rfl rfl
    | _ => exact Raw.layout_mk rfl rfl rfl rfl h
  case add f | or f | adc f | sbb f | and f | sub f | xor f | cmp f | push f | pop f | inc f | dec f | imul f | jO f | jNo f | jB f
      | jAe f | jE f | jNe f | jBe f | jA f | jS f | jNs f | jP f | jNp f | jL f | jGe f | jLe f | jG f | test f | mov f
      | call f | rol f | ror f | rcl f | rcr f | shl f | shr f | sar f | ret f | retf f | in_ f | out f | jmp f | not f | neg f
      | mul f | div f | idiv f | bt f | shld f | bts f | shrd f | cmpxchg f | btr f | movzx f | btc f | movsx f | xadd f | fld f
      | fild f | fst f | fist f | fstp f | fistp f | fadd f | fiadd f | fmul f | fimul f | fsub f | fisub f | fsubr f | fisubr f
      | fdiv f | fidiv f | fdivr f | fidivr f | fcom f | fcomp f | ficom f | ficomp f | fnstsw f =>
    cases f <;> exact Raw.layout_mk rfl rfl rfl rfl h
  all_goals exact Raw.layout_mk rfl rfl rfl rfl h

end Sys2Proof
end

section
/-! ## Decoder and encoder: every readable layout is an instruction's

The rows of the table, taken by what follows the opcode; in each group the layout is read as an instruction that has it. -/
set_option Elab.async false

namespace Sys2Proof
open Laws.RawRoundTrip (reg_cases)

/-- The layout is read as a well-formed instruction, whose layout it is. -/
def Raw.Reads (z a : Size) (w : Raw) : Prop := ∃ i, w.instr = some i ∧ i.raw = w ∧ i.wf z a = true

/-- The same, as a test for layouts without operands of a size. -/
def Raw.readsBack (w : Raw) : Bool :=
  match w.instr with
  | some i => decide (i.raw = w) && [Size.s16, .s32].all fun z => [Size.s16, .s32].all fun a => i.wf z a
  | none => false

theorem Raw.reads_of_readsBack {z a : Size} {w : Raw} (h : w.readsBack = true) : w.Reads z a := by
  unfold Raw.readsBack at h
  split at h
  next i hi =>
    obtain ⟨hraw, hwf⟩ := Bool.and_eq_true_iff.1 h
    have size : ∀ z : Size, z ∈ [Size.s16, .s32] := by intro z; cases z <;> simp
    exact ⟨i, hi, of_decide_eq_true hraw, List.all_eq_true.1 (List.all_eq_true.1 hwf z (size z)) a (size a)⟩
  next => cases h

/-! ### Without ModR/M -/

/-- The opcodes with a byte behind them. -/
def byteOpcodes : List Byte :=
  [0x04, 0x0C, 0x14, 0x1C, 0x24, 0x2C, 0x34, 0x3C, 0x6A, 0x70, 0x71, 0x72, 0x73, 0x74, 0x75, 0x76, 0x77, 0x78, 0x79, 0x7A,
    0x7B, 0x7C, 0x7D, 0x7E, 0x7F, 0xA8, 0xCD, 0xD4, 0xD5, 0xE0, 0xE1, 0xE2, 0xE3, 0xE4, 0xE5, 0xE6, 0xE7, 0xEB]

theorem byte_reads {z a : Size} {v : Byte} : ∀ op ∈ byteOpcodes, Raw.Reads z a ⟨false, op, .none, .ib v⟩ := by
  intro op h
  fin_cases h <;> exact ⟨_, rfl, rfl, rfl⟩

/-- The opcodes with a value of the operand size behind them, with or without the escape. -/
def valueOpcodes : List (Bool × Byte) :=
  [(false, 0x05), (false, 0x0D), (false, 0x15), (false, 0x1D), (false, 0x25), (false, 0x2D), (false, 0x35), (false, 0x3D),
    (false, 0x68), (false, 0xA9), (false, 0xE8), (false, 0xE9), (true, 0x80), (true, 0x81), (true, 0x82), (true, 0x83),
    (true, 0x84), (true, 0x85), (true, 0x86), (true, 0x87), (true, 0x88), (true, 0x89), (true, 0x8A), (true, 0x8B),
    (true, 0x8C), (true, 0x8D), (true, 0x8E), (true, 0x8F)]

theorem value_reads {z a : Size} {v : DWord} (hv : fits z v = true) :
    ∀ x ∈ valueOpcodes, Raw.Reads z a ⟨x.1, x.2, .none, .iv v⟩ := by
  intro x h
  fin_cases h <;> exact ⟨_, rfl, rfl, hv⟩

/-- What an opcode without ModR/M must be, by what follows it. -/
def bareRow (two : Bool) (op : Byte) : ImmKind → Bool
  | .none => !(two || op != 0x0F) || Raw.readsBack ⟨two, op, .none, .none⟩
  | .ib => !two && decide (op ∈ byteOpcodes)
  | .iv => decide ((two, op) ∈ valueOpcodes)
  | .iw => !two && decide (op ∈ [(0xC2 : Byte), 0xCA])
  | .cp => !two && decide (op ∈ [(0x9A : Byte), 0xEA])
  | .moffs => !two && decide (op ∈ [(0xA0 : Byte), 0xA1, 0xA2, 0xA3])
  | .enter => !two && decide (op = 0xC8)

theorem bareRow_of_kinds : ∀ (two : Bool) (op : Byte), tailKind two op.toNat = .none →
    bareRow two op (immKind two op.toNat 0) = true := by
  decide +kernel

/-- A row without the escape. -/
theorem one_byte_row {two : Bool} {p : Prop} [Decidable p] (h : (!two && decide p) = true) : two = false ∧ p := by
  simpa using h

/-- The layouts with nothing between opcode and immediate. -/
theorem Raw.Layout.reads_none {z a : Size} {two : Bool} {op : Byte} {im : Imm} (h : Raw.Layout z a ⟨two, op, .none, im⟩) :
    Raw.Reads z a ⟨two, op, .none, im⟩ := by
  obtain ⟨ht, hi, -⟩ := Raw.kindsAgree_iff.1 h.kinds
  have hp := (Raw.partsFit_iff.1 h.parts).2
  have row := bareRow_of_kinds two op ht.symm
  rw [← show im.kind = immKind two op.toNat 0 from hi] at row
  cases im with
  | none =>
    have hesc : (two || op != 0x0F) = true := h.escape
    have back : (!(two || op != 0x0F) || Raw.readsBack ⟨two, op, .none, .none⟩) = true := row
    rw [hesc] at back
    exact Raw.reads_of_readsBack back
  | ib v =>
    obtain ⟨rfl, hop⟩ := one_byte_row row
    exact byte_reads op hop
  | iv v => exact value_reads hp (two, op) (of_decide_eq_true row)
  | iw v =>
    obtain ⟨rfl, hop⟩ := one_byte_row row
    fin_cases hop <;> exact ⟨_, rfl, rfl, rfl⟩
  | cp off sel =>
    obtain ⟨rfl, hop⟩ := one_byte_row row
    fin_cases hop <;> exact ⟨_, rfl, rfl, hp⟩
  | moffs v =>
    obtain ⟨rfl, hop⟩ := one_byte_row row
    fin_cases hop <;> exact ⟨_, rfl, rfl, hp⟩
  | enter w b =>
    obtain ⟨rfl, rfl⟩ := one_byte_row row
    exact ⟨_, rfl, rfl, rfl⟩

/-! ### With a register number in the opcode -/

theorem Imm.eq_none_of_kind {im : Imm} (h : im.kind = .none) : im = .none := by cases im <;> simp_all [Imm.kind]

theorem Imm.ib_of_kind {im : Imm} (h : im.kind = .ib) : ∃ v, im = .ib v := by cases im <;> simp_all [Imm.kind]

theorem Imm.iv_of_kind {im : Imm} (h : im.kind = .iv) : ∃ v, im = .iv v := by cases im <;> simp_all [Imm.kind]

theorem Raw.Layout.reads_opreg {z a : Size} {two : Bool} {op : Byte} {r : RegNum} {im : Imm}
    (h : Raw.Layout z a ⟨two, op, .opreg r, im⟩) : Raw.Reads z a ⟨two, op, .opreg r, im⟩ := by
  obtain ⟨ht, hi, hr⟩ := Raw.kindsAgree_iff.1 h.kinds
  have hbase : op &&& 0xF8 = op := Tail.regFree_iff.1 hr r rfl
  have hop : op ∈ opregBases two := hbase ▸ mem_opregBases two op ht.symm
  cases two with
  | true =>
    fin_cases hop
    obtain rfl := Imm.eq_none_of_kind hi
    exact ⟨_, rfl, rfl, rfl⟩
  | false =>
    have split : op ∈ [(0x40 : Byte), 0x48, 0x50, 0x58] ∨ op = 0x90 ∨ op = 0xB0 ∨ op = 0xB8 := by
      simpa [opregBases, or_assoc] using hop
    rcases split with plain | rfl | rfl | rfl
    · fin_cases plain <;> obtain rfl := Imm.eq_none_of_kind hi <;> exact ⟨_, rfl, rfl, rfl⟩
    · obtain rfl := Imm.eq_none_of_kind hi
      obtain rfl | rfl | rfl | rfl | rfl | rfl | rfl | rfl := reg_cases r <;> exact ⟨_, rfl, rfl, rfl⟩
    · obtain ⟨v, rfl⟩ := Imm.ib_of_kind hi
      exact ⟨_, rfl, rfl, rfl⟩
    · obtain ⟨v, rfl⟩ := Imm.iv_of_kind hi
      exact ⟨_, rfl, rfl, (Raw.partsFit_iff.1 h.parts).2⟩

/-! ### With a ModR/M byte whose mod field is ignored -/

theorem raw_opcode : ∀ (two : Bool) (op : Byte), tailKind two op.toNat = .raw →
    immKind two op.toNat 0 = .none ∧ two = true ∧ op ∈ [(0x20 : Byte), 0x21, 0x22, 0x23, 0x24, 0x25, 0x26] := by decide +kernel

theorem Raw.Layout.reads_raw {z a : Size} {two : Bool} {op : Byte} {mode : BitVec 2} {reg rm : RegNum} {im : Imm}
    (h : Raw.Layout z a ⟨two, op, .raw mode reg rm, im⟩) : Raw.Reads z a ⟨two, op, .raw mode reg rm, im⟩ := by
  obtain ⟨ht, hi, -⟩ := Raw.kindsAgree_iff.1 h.kinds
  obtain ⟨hk, rfl, hop⟩ := raw_opcode two op ht.symm
  obtain rfl := Imm.eq_none_of_kind (hi.trans hk)
  fin_cases hop <;> exact ⟨_, rfl, rfl, rfl⟩

end Sys2Proof
end

section
/-! ## Decoder and encoder: the rows with ModR/M, and the round trip -/
set_option Elab.async false

namespace Sys2Proof
open Laws.RawRoundTrip (reg_cases)

/-! ### One-byte opcodes with ModR/M and no immediate -/

/-- The opcodes whose ModR/M part may be any. -/
def plainOpcodes : List Byte :=
  [0x00, 0x01, 0x02, 0x03, 0x08, 0x09, 0x0A, 0x0B, 0x10, 0x11, 0x12, 0x13, 0x18, 0x19, 0x1A, 0x1B, 0x20, 0x21, 0x22, 0x23,
    0x28, 0x29, 0x2A, 0x2B, 0x30, 0x31, 0x32, 0x33, 0x38, 0x39, 0x3A, 0x3B, 0x63, 0x84, 0x85, 0x86, 0x87, 0x88, 0x89, 0x8A,
    0x8B, 0x8C, 0x8E]

theorem plain_reads {z a : Size} {r : RegNum} {m : Rm} (hm : m.wf a = true) :
    ∀ op ∈ plainOpcodes, Raw.Reads z a ⟨false, op, .rm r m, .none⟩ := by
  intro op h
  fin_cases h <;> exact ⟨_, rfl, rfl, hm⟩

/-- The opcodes that take a memory operand only. -/
def memoryOnlyOpcodes : List Byte := [0x62, 0x8D, 0xC4, 0xC5]

theorem memoryOnly_reads {z a : Size} {r : RegNum} {m : Rm} (hm : m.wf a = true) :
    ∀ op ∈ memoryOnlyOpcodes, Raw.Reads z a ⟨false, op, .rm r m, .none⟩ := by
  intro op h
  cases m <;> fin_cases h <;> exact ⟨_, rfl, rfl, hm⟩

/-- Shifts and rotates by 1 and by CL. -/
def shiftOpcodes : List Byte := [0xD0, 0xD1, 0xD2, 0xD3]

theorem shift_reads {z a : Size} {r : RegNum} {m : Rm} (hm : m.wf a = true) :
    ∀ op ∈ shiftOpcodes, Raw.Reads z a ⟨false, op, .rm r m, .none⟩ := by
  intro op h
  obtain rfl | rfl | rfl | rfl | rfl | rfl | rfl | rfl := reg_cases r <;>
    fin_cases h <;> exact ⟨_, rfl, rfl, hm⟩

theorem op8F_reads {z a : Size} {r : RegNum} {m : Rm} (hm : m.wf a = true) :
    Raw.Reads z a ⟨false, 0x8F, .rm r m, .none⟩ := by
  obtain rfl | rfl | rfl | rfl | rfl | rfl | rfl | rfl := reg_cases r
  · exact ⟨_, rfl, rfl, hm⟩
  all_goals exact ⟨_, rfl, rfl, Bool.and_eq_true_iff.2 ⟨hm, rfl⟩⟩

theorem opFE_reads {z a : Size} {r : RegNum} {m : Rm} (hm : m.wf a = true) :
    Raw.Reads z a ⟨false, 0xFE, .rm r m, .none⟩ := by
  obtain rfl | rfl | rfl | rfl | rfl | rfl | rfl | rfl := reg_cases r
  · exact ⟨_, rfl, rfl, hm⟩
  · exact ⟨_, rfl, rfl, hm⟩
  all_goals exact ⟨_, rfl, rfl, Bool.and_eq_true_iff.2 ⟨hm, rfl⟩⟩

theorem opFF_reads {z a : Size} {r : RegNum} {m : Rm} (hm : m.wf a = true) :
    Raw.Reads z a ⟨false, 0xFF, .rm r m, .none⟩ := by
  obtain rfl | rfl | rfl | rfl | rfl | rfl | rfl | rfl := reg_cases r <;> cases m <;> exact ⟨_, rfl, rfl, hm⟩

/-- C6 and C7 but for /0. -/
theorem undefinedMov_reads {z a : Size} {r : RegNum} {m : Rm} (hm : m.wf a = true) (hr : r ≠ 0) :
    ∀ op ∈ [(0xC6 : Byte), 0xC7], Raw.Reads z a ⟨false, op, .rm r m, .none⟩ := by
  intro op h
  obtain rfl | rfl | rfl | rfl | rfl | rfl | rfl | rfl := reg_cases r
  · exact absurd rfl hr
  all_goals fin_cases h <;> exact ⟨_, rfl, rfl, Bool.and_eq_true_iff.2 ⟨hm, rfl⟩⟩

/-- F6 and F7 but for /0. -/
theorem unary_reads {z a : Size} {r : RegNum} {m : Rm} (hm : m.wf a = true) (hr : r ≠ 0) :
    ∀ op ∈ [(0xF6 : Byte), 0xF7], Raw.Reads z a ⟨false, op, .rm r m, .none⟩ := by
  intro op h
  obtain rfl | rfl | rfl | rfl | rfl | rfl | rfl | rfl := reg_cases r
  · exact absurd rfl hr
  all_goals fin_cases h <;> exact ⟨_, rfl, rfl, hm⟩

/-- The ESC opcodes. -/
def escOpcodes : List Byte := [0xD8, 0xD9, 0xDA, 0xDB, 0xDC, 0xDD, 0xDE, 0xDF]

theorem esc_register_reads : ∀ op ∈ escOpcodes, ∀ r i : RegNum,
    Raw.readsBack ⟨false, op, .rm r (.reg i), .none⟩ = true := by decide +kernel

/-- An ESC opcode with a memory operand: a row of its own, or the row of undefined ones. -/
theorem esc_memory_reads {z a : Size} {r : RegNum} {m : Mem} (hm : m.wf a = true) :
    ∀ op ∈ escOpcodes, Raw.Reads z a ⟨false, op, .rm r (.mem m), .none⟩ := by
  intro op h
  obtain rfl | rfl | rfl | rfl | rfl | rfl | rfl | rfl := reg_cases r <;> fin_cases h <;>
    first | exact ⟨_, rfl, rfl, hm⟩ | exact ⟨_, rfl, rfl, Bool.and_eq_true_iff.2 ⟨hm, rfl⟩⟩

theorem esc_reads {z a : Size} {r : RegNum} {m : Rm} (hm : m.wf a = true) (op : Byte) (h : op ∈ escOpcodes) :
    Raw.Reads z a ⟨false, op, .rm r m, .none⟩ := by
  cases m with
  | reg i => exact Raw.reads_of_readsBack (esc_register_reads op h r i)
  | mem m => exact esc_memory_reads hm op h

/-! ### One-byte opcodes with ModR/M and an immediate -/

/-- Groups 1 and 2 with a byte. -/
def byteGroupOpcodes : List Byte := [0x80, 0x82, 0x83, 0xC0, 0xC1]

theorem byteGroup_reads {z a : Size} {r : RegNum} {m : Rm} {v : Byte} (hm : m.wf a = true) :
    ∀ op ∈ byteGroupOpcodes, Raw.Reads z a ⟨false, op, .rm r m, .ib v⟩ := by
  intro op h
  obtain rfl | rfl | rfl | rfl | rfl | rfl | rfl | rfl := reg_cases r <;>
    fin_cases h <;> exact ⟨_, rfl, rfl, hm⟩

theorem op81_reads {z a : Size} {r : RegNum} {m : Rm} {v : DWord} (hm : m.wf a = true) (hv : fits z v = true) :
    Raw.Reads z a ⟨false, 0x81, .rm r m, .iv v⟩ := by
  obtain rfl | rfl | rfl | rfl | rfl | rfl | rfl | rfl := reg_cases r <;>
    exact ⟨_, rfl, rfl, Bool.and_eq_true_iff.2 ⟨hm, hv⟩⟩

/-! ### Two-byte opcodes with ModR/M -/

/-- The second bytes whose ModR/M part may be any. -/
def plainSecondBytes : List Byte :=
  [0x02, 0x03, 0x90, 0x91, 0x92, 0x93, 0x94, 0x95, 0x96, 0x97, 0x98, 0x99, 0x9A, 0x9B, 0x9C, 0x9D, 0x9E, 0x9F, 0xA3, 0xA5, 0xAB,
    0xAD, 0xAF, 0xB0, 0xB1, 0xB3, 0xB6, 0xB7, 0xBB, 0xBC, 0xBD, 0xBE, 0xBF, 0xC0, 0xC1]

theorem plainSecond_reads {z a : Size} {r : RegNum} {m : Rm} (hm : m.wf a = true) :
    ∀ op ∈ plainSecondBytes, Raw.Reads z a ⟨true, op, .rm r m, .none⟩ := by
  intro op h
  fin_cases h <;> exact ⟨_, rfl, rfl, hm⟩

theorem op0F00_reads {z a : Size} {r : RegNum} {m : Rm} (hm : m.wf a = true) :
    Raw.Reads z a ⟨true, 0x00, .rm r m, .none⟩ := by
  obtain rfl | rfl | rfl | rfl | rfl | rfl | rfl | rfl := reg_cases r <;> exact ⟨_, rfl, rfl, hm⟩

theorem op0F01_reads {z a : Size} {r : RegNum} {m : Rm} (hm : m.wf a = true) :
    Raw.Reads z a ⟨true, 0x01, .rm r m, .none⟩ := by
  obtain rfl | rfl | rfl | rfl | rfl | rfl | rfl | rfl := reg_cases r <;> cases m <;> exact ⟨_, rfl, rfl, hm⟩

/-- LSS, LFS and LGS, which take a memory operand only. -/
theorem farPointer_reads {z a : Size} {r : RegNum} {m : Rm} (hm : m.wf a = true) :
    ∀ op ∈ [(0xB2 : Byte), 0xB4, 0xB5], Raw.Reads z a ⟨true, op, .rm r m, .none⟩ := by
  intro op h
  cases m <;> fin_cases h <;> exact ⟨_, rfl, rfl, hm⟩

theorem op0FBA_undefined_reads {z a : Size} {r : RegNum} {m : Rm} (hm : m.wf a = true) (hr : r.toNat < 4) :
    Raw.Reads z a ⟨true, 0xBA, .rm r m, .none⟩ := by
  obtain rfl | rfl | rfl | rfl | rfl | rfl | rfl | rfl := reg_cases r
  iterate 4 exact ⟨_, rfl, rfl, Bool.and_eq_true_iff.2 ⟨hm, rfl⟩⟩
  all_goals exact absurd hr (by decide)

theorem op0FBA_reads {z a : Size} {r : RegNum} {m : Rm} {v : Byte} (hm : m.wf a = true) (hr : 4 ≤ r.toNat) :
    Raw.Reads z a ⟨true, 0xBA, .rm r m, .ib v⟩ := by
  obtain rfl | rfl | rfl | rfl | rfl | rfl | rfl | rfl := reg_cases r
  iterate 4 exact absurd hr (by decide)
  all_goals exact ⟨_, rfl, rfl, hm⟩

/-! ### All of them -/

/-- The opcodes with ModR/M, by the immediate that follows and the reg field. -/
def rmRow (two : Bool) (op : Byte) (r : RegNum) : ImmKind → Bool
  | .none =>
    if two then
      decide (op ∈ plainSecondBytes) || op == 0x00 || op == 0x01 || decide (op ∈ [(0xB2 : Byte), 0xB4, 0xB5]) ||
        op == 0xBA && decide (r.toNat < 4)
    else
      decide (op ∈ plainOpcodes) || decide (op ∈ memoryOnlyOpcodes) || decide (op ∈ shiftOpcodes) || op == 0x8F || op == 0xFE ||
        op == 0xFF || decide (op ∈ escOpcodes) || decide (op ∈ [(0xC6 : Byte), 0xC7]) && r != 0 ||
        decide (op ∈ [(0xF6 : Byte), 0xF7]) && r != 0
  | .ib =>
    if two then op == 0xA4 || op == 0xAC || op == 0xBA && decide (4 ≤ r.toNat)
    else decide (op ∈ byteGroupOpcodes) || op == 0x6B || op == 0xC6 && r == 0 || op == 0xF6 && r == 0
  | .iv => !two && (op == 0x69 || op == 0x81 || op == 0xC7 && r == 0 || op == 0xF7 && r == 0)
  | _ => false

theorem rmRow_of_kind : ∀ (two : Bool) (op : Byte), tailKind two op.toNat = .rm → ∀ r : RegNum,
    rmRow two op r (immKind two op.toNat r.toNat) = true := by decide +kernel

theorem Raw.Layout.reads_rm_none {z a : Size} {two : Bool} {op : Byte} {r : RegNum} {m : Rm} (hm : m.wf a = true)
    (row : rmRow two op r .none = true) : Raw.Reads z a ⟨two, op, .rm r m, .none⟩ := by
  cases two with
  | true =>
    simp only [rmRow, if_true, Bool.or_eq_true, Bool.and_eq_true, decide_eq_true_eq, beq_iff_eq] at row
    obtain (((hop | rfl) | rfl) | hop) | ⟨rfl, hr⟩ := row
    · exact plainSecond_reads hm op hop
    · exact op0F00_reads hm
    · exact op0F01_reads hm
    · exact farPointer_reads hm op hop
    · exact op0FBA_undefined_reads hm hr
  | false =>
    simp only [rmRow, Bool.false_eq_true, if_false, Bool.or_eq_true, Bool.and_eq_true, decide_eq_true_eq, beq_iff_eq,
      bne_iff_ne] at row
    obtain (((((((hop | hop) | hop) | rfl) | rfl) | rfl) | hop) | ⟨hop, hr⟩) | ⟨hop, hr⟩ := row
    · exact plain_reads hm op hop
    · exact memoryOnly_reads hm op hop
    · exact shift_reads hm op hop
    · exact op8F_reads hm
    · exact opFE_reads hm
    · exact opFF_reads hm
    · exact esc_reads hm op hop
    · exact undefinedMov_reads hm hr op hop
    · exact unary_reads hm hr op hop

theorem Raw.Layout.reads_rm_ib {z a : Size} {two : Bool} {op : Byte} {r : RegNum} {m : Rm} {v : Byte} (hm : m.wf a = true)
    (row : rmRow two op r .ib = true) : Raw.Reads z a ⟨two, op, .rm r m, .ib v⟩ := by
  cases two with
  | true =>
    simp only [rmRow, if_true, Bool.or_eq_true, Bool.and_eq_true, decide_eq_true_eq, beq_iff_eq] at row
    obtain (rfl | rfl) | ⟨rfl, hr⟩ := row
    · exact ⟨_, rfl, rfl, hm⟩
    · exact ⟨_, rfl, rfl, hm⟩
    · exact op0FBA_reads hm hr
  | false =>
    simp only [rmRow, Bool.false_eq_true, if_false, Bool.or_eq_true, Bool.and_eq_true, decide_eq_true_eq, beq_iff_eq] at row
    obtain ((hop | rfl) | ⟨rfl, rfl⟩) | ⟨rfl, rfl⟩ := row
    · exact byteGroup_reads hm op hop
    all_goals exact ⟨_, rfl, rfl, hm⟩

theorem Raw.Layout.reads_rm_iv {z a : Size} {two : Bool} {op : Byte} {r : RegNum} {m : Rm} {v : DWord} (hm : m.wf a = true)
    (hv : fits z v = true) (row : rmRow two op r .iv = true) : Raw.Reads z a ⟨two, op, .rm r m, .iv v⟩ := by
  simp only [rmRow, Bool.or_eq_true, Bool.and_eq_true, Bool.not_eq_true', beq_iff_eq] at row
  obtain ⟨rfl, ((rfl | rfl) | ⟨rfl, rfl⟩) | ⟨rfl, rfl⟩⟩ := row
  case inl.inl.inr => exact op81_reads hm hv
  all_goals exact ⟨_, rfl, rfl, Bool.and_eq_true_iff.2 ⟨hm, hv⟩⟩

theorem Raw.Layout.reads_rm {z a : Size} {two : Bool} {op : Byte} {r : RegNum} {m : Rm} {im : Imm}
    (h : Raw.Layout z a ⟨two, op, .rm r m, im⟩) : Raw.Reads z a ⟨two, op, .rm r m, im⟩ := by
  obtain ⟨ht, hi, -⟩ := Raw.kindsAgree_iff.1 h.kinds
  obtain ⟨hm, hv⟩ := Raw.partsFit_iff.1 h.parts
  have row := rmRow_of_kind two op ht.symm r
  rw [← show im.kind = immKind two op.toNat r.toNat from hi] at row
  cases im with
  | none => exact Raw.Layout.reads_rm_none hm row
  | ib v => exact Raw.Layout.reads_rm_ib hm row
  | iv v => exact Raw.Layout.reads_rm_iv hm hv row
  | iw _ | cp _ _ | moffs _ | enter _ _ => cases row

/-- Every readable layout is read as a well-formed instruction that has it. -/
theorem Raw.Layout.reads {z a : Size} {w : Raw} (h : w.Layout z a) : w.Reads z a := by
  obtain ⟨two, op, t, im⟩ := w
  cases t with
  | none => exact h.reads_none
  | opreg r => exact h.reads_opreg
  | rm r m => exact h.reads_rm
  | raw mode reg rm => exact h.reads_raw

end Sys2Proof
end

section
/-! ## Decoder and encoder: the round trip -/
set_option Elab.async false

namespace Sys2Proof
open Laws

open RawRoundTrip in
/-- The layout of a well-formed instruction is read as that instruction. -/
theorem instr_raw_of_wf : ∀ i : Instr, RawRoundTrip.Statement i
  | .repPrefix => repPrefix | .repnePrefix => repnePrefix | .lockPrefix => lockPrefix | .csPrefix => csPrefix
  | .ssPrefix => ssPrefix | .dsPrefix => dsPrefix | .esPrefix => esPrefix | .fsPrefix => fsPrefix
  | .gsPrefix => gsPrefix | .opsizePrefix => opsizePrefix | .addrsizePrefix => addrsizePrefix | .add f => add f
  | .or f => or f | .adc f => adc f | .sbb f => sbb f | .and f => and f | .sub f => sub f | .xor f => xor f
  | .cmp f => cmp f | .aaa => aaa | .aas => aas | .aad imm => aad imm | .aam imm => aam imm | .daa => daa
  | .das => das | .arpl r m => arpl r m | .bound r m => bound r m | .push f => push f | .pop f => pop f
  | .inc f => inc f | .dec f => dec f | .pusha => pusha | .popa => popa | .imul f => imul f | .insb => insb
  | .insv => insv | .outsb => outsb | .outsv => outsv | .jO f => jO f | .jNo f => jNo f | .jB f => jB f
  | .jAe f => jAe f | .jE f => jE f | .jNe f => jNe f | .jBe f => jBe f | .jA f => jA f | .jS f => jS f
  | .jNs f => jNs f | .jP f => jP f | .jNp f => jNp f | .jL f => jL f | .jGe f => jGe f | .jLe f => jLe f
  | .jG f => jG f | .setO r m => setO r m | .setNo r m => setNo r m | .setB r m => setB r m | .setAe r m => setAe r m
  | .setE r m => setE r m | .setNe r m => setNe r m | .setBe r m => setBe r m | .setA r m => setA r m
  | .setS r m => setS r m | .setNs r m => setNs r m | .setP r m => setP r m | .setNp r m => setNp r m
  | .setL r m => setL r m | .setGe r m => setGe r m | .setLe r m => setLe r m | .setG r m => setG r m
  | .test f => test f | .xchg f => xchg f | .mov f => mov f | .lea r m => lea r m | .nop => nop | .cbw => cbw
  | .cwd => cwd | .call f => call f | .wait => wait | .pushf => pushf | .popf => popf | .sahf => sahf | .lahf => lahf
  | .movsb => movsb | .movsv => movsv | .cmpsb => cmpsb | .cmpsv => cmpsv | .stosb => stosb | .stosv => stosv
  | .lodsb => lodsb | .lodsv => lodsv | .scasb => scasb | .scasv => scasv | .rol f => rol f | .ror f => ror f
  | .rcl f => rcl f | .rcr f => rcr f | .shl f => shl f | .shr f => shr f | .sar f => sar f | .ret f => ret f
  | .les r m => les r m | .lds r m => lds r m | .lss r m => lss r m | .lfs r m => lfs r m | .lgs r m => lgs r m
  | .enter size level => enter size level | .leave => leave | .retf f => retf f | .int3 => int3
  | .intIb imm => intIb imm | .into => into | .iret => iret | .undefined f => undefined f | .xlat => xlat
  | .loopne rel => loopne rel | .loope rel => loope rel | .loop rel => loop rel | .jcxz rel => jcxz rel
  | .in_ f => in_ f | .out f => out f | .jmp f => jmp f | .hlt => hlt | .cmc => cmc | .not f => not f
  | .neg f => neg f | .mul f => mul f | .div f => div f | .idiv f => idiv f | .clc => clc | .stc => stc | .cli => cli
  | .sti => sti | .cld => cld | .std => std | .sldt m => sldt m | .str m => str m | .lldt m => lldt m
  | .ltr m => ltr m | .verr m => verr m | .verw m => verw m | .sgdt m => sgdt m | .sidt m => sidt m
  | .lgdt m => lgdt m | .lidt m => lidt m | .smsw m => smsw m | .lmsw m => lmsw m | .invlpg m => invlpg m
  | .lar r m => lar r m | .lsl r m => lsl r m | .clts => clts | .invd => invd | .wbinvd => wbinvd | .bt f => bt f
  | .shld f => shld f | .bts f => bts f | .shrd f => shrd f | .cmpxchg f => cmpxchg f | .btr f => btr f
  | .movzx f => movzx f | .btc f => btc f | .bsf r m => bsf r m | .bsr r m => bsr r m | .movsx f => movsx f
  | .xadd f => xadd f | .bswap r => bswap r | .fld f => fld f | .fild f => fild f | .fbld m => fbld m
  | .fst f => fst f | .fist f => fist f | .fstp f => fstp f | .fistp f => fistp f | .fbstp m => fbstp m
  | .fxch i => fxch i | .fld1 => fld1 | .fldl2t => fldl2t | .fldl2e => fldl2e | .fldpi => fldpi | .fldlg2 => fldlg2
  | .fldln2 => fldln2 | .fldz => fldz | .fadd f => fadd f | .fiadd f => fiadd f | .faddp i => faddp i
  | .fmul f => fmul f | .fimul f => fimul f | .fmulp i => fmulp i | .fsub f => fsub f | .fisub f => fisub f
  | .fsubp i => fsubp i | .fsubr f => fsubr f | .fisubr f => fisubr f | .fsubrp i => fsubrp i | .fdiv f => fdiv f
  | .fidiv f => fidiv f | .fdivp i => fdivp i | .fdivr f => fdivr f | .fidivr f => fidivr f | .fdivrp i => fdivrp i
  | .fsqrt => fsqrt | .fscale => fscale | .fprem => fprem | .fprem1 => fprem1 | .frndint => frndint
  | .fxtract => fxtract | .fabs => fabs | .fchs => fchs | .fcom f => fcom f | .fcomp f => fcomp f | .fcompp => fcompp
  | .ficom f => ficom f | .ficomp f => ficomp f | .fucom i => fucom i | .fucomp i => fucomp i | .fucompp => fucompp
  | .ftst => ftst | .fxam => fxam | .fptan => fptan | .fpatan => fpatan | .fsin => fsin | .fcos => fcos
  | .fsincos => fsincos | .f2xm1 => f2xm1 | .fyl2x => fyl2x | .fyl2xp1 => fyl2xp1 | .fninit => fninit
  | .fldcw m => fldcw m | .fnstcw m => fnstcw m | .fnstsw f => fnstsw f | .fnclex => fnclex | .fincstp => fincstp
  | .fdecstp => fdecstp | .ffree i => ffree i | .fnop => fnop | .feni => feni | .fdisi => fdisi | .fsetpm => fsetpm
  | .fnstenv m => fnstenv m | .fldenv m => fldenv m | .fnsave m => fnsave m | .frstor m => frstor m
  | .undefinedEsc f => undefinedEsc f

/-- The bytes of a well-formed instruction decode to it. -/
theorem decode_encode {z a : Size} {i : Instr} (rest : List Byte) (h : i.wf z a = true) :
    decode z a (encode z a i ++ rest) = .ok (i, rest) := by
  have read : takeRaw z a (encode z a i ++ rest) = .ok (i.raw, rest) := takeRaw_eq_ok.2 ⟨Instr.raw_layout h, rfl⟩
  have instr : i.raw.instr = some i := instr_raw_of_wf i z a h
  simp only [decode, read, instr]

/-- What is decoded is well formed, and the bytes are its own. -/
theorem encode_decode {z a : Size} {bs rest : List Byte} {i : Instr} (h : decode z a bs = .ok (i, rest)) :
    i.wf z a = true ∧ bs = encode z a i ++ rest := by
  unfold decode at h
  split at h
  next => cases h
  next w r hw =>
    obtain ⟨layout, rfl⟩ := takeRaw_eq_ok.1 hw
    obtain ⟨j, hj, rfl, hwf⟩ := layout.reads
    rw [hj] at h
    cases h
    exact ⟨hwf, rfl⟩

/-- No bytes are undefined: the rows cover every layout. -/
theorem decode_ne_undefined (z a : Size) (bs : List Byte) : decode z a bs ≠ .error .undefined := by
  intro h
  unfold decode at h
  split at h
  next e he => cases h; cases takeRaw_error he
  next w r hw =>
    obtain ⟨j, hj, -⟩ := (takeRaw_eq_ok.1 hw).1.reads
    rw [hj] at h
    cases h

/-- Settles O60: what `takeRaw` reads are the layouts of well-formed instructions, each from its own bytes. -/
theorem decodeEncodeAgree : Obligations.DecodeEncodeAgree := fun z a =>
  ⟨fun _ rest h => decode_encode rest h, fun _ _ _ h => encode_decode h, decode_ne_undefined z a⟩

end Sys2Proof
end

section
/-! ## Arithmetic and logic: the operands, and ADD to XOR, CMP, TEST, INC, DEC, NEG, NOT

An r/m operand that is read, changed and written back is said once (`modifyRm_reg_run`, `modifyRm_mem_run`); the forms of the
two-operand instructions are a source, a destination and a width. -/
set_option Elab.async false

namespace Sys2Proof.Machine

/-! ### Operands read, changed and written back -/

theorem modifyRm_reg_run {w : Width} {r : RegNum} {g : Nat → M Nat} {v : Nat} {s t : State}
    (h : g (s.regs.read w r) s = .ok v t) : modifyRm w (.reg r) g s = .ok () (t.withReg w r v) := by
  simp only [modifyRm, M.bind_run, getReg_run, h, setReg_run]

theorem modifyRm_mem_run {w : Width} {m : Mem} {g : Nat → M Nat} {ps : List BytePlace} {a v : Nat} {s s1 s2 t : State}
    (hl : locateMem m w.bytes w.bytes true s = .ok ps s1) (hr : readBytes s.dec.lock ps s1 = .ok a s2)
    (h : g a s2 = .ok v t) : modifyRm w (.mem m) g s = .ok () (t.wrote ps v) := by
  have hd : s1.dec.lock = s.dec.lock := by rw [(locateMem_reads hl).dec]
  simp only [modifyRm, M.bind_run, hl, readLocked_run, hd, hr, h, writeBytes_run]

/-- An operand located for a write and read has only been read. -/
theorem modify_reads {m : Mem} {n al : Nat} {b : Bool} {ps : List BytePlace} {a : Nat} {s s1 s2 : State}
    (hl : locateMem m n al true s = .ok ps s1) (hr : readBytes b ps s1 = .ok a s2) : s.Reads s2 :=
  (locateMem_reads hl).trans (readBytes_reads hr)

/-! ### An instruction that only reads memory, and one that writes one operand -/

theorem completes_of_reads {i : Instr} {l k : Bool} {body : M Unit} {s s1 t : State}
    (hi : exec i s = runInstr l k body s) (hr : s.Ready l) (hb : body s.begin = .ok () t) (h : s.begin.Reads s1)
    (hm : t.mem = s1.mem) : Completes i s (t.complete k) [] :=
  completes_of_ok hi hr hb rfl (keeps_of_reads h hm)

theorem completes_of_wrote {i : Instr} {l k : Bool} {body : M Unit} {s s1 t : State} {ps : List BytePlace} {v : Nat}
    (hi : exec i s = runInstr l k body s) (hr : s.Ready l) (hb : body s.begin = .ok () (t.wrote ps v))
    (h : s.begin.Reads s1) (hm : t.mem = s1.mem) (hp : t.pins = s1.pins) :
    Completes i s ((t.wrote ps v).complete k) ps :=
  completes_of_ok hi hr hb rfl (keeps_of_wrote h hm hp rfl)

/-! ### The two-operand instructions -/

/-- The operation as the model runs it. -/
def AluOp.run : AluOp → Nat → Nat → Nat → M Nat
  | .add => addOp
  | .adc => adcOp
  | .sub => subOp
  | .sbb => sbbOp
  | .and => fun n a b => logicOp n (a &&& b)
  | .or => fun n a b => logicOp n (a ||| b)
  | .xor => fun n a b => logicOp n (a ^^^ b)

theorem AluOp.exec_instr (op : AluOp) (f : AluForm) (s : State) :
    exec (op.instr f) s = runInstr (AluForm.lockable f) false (aluWrite op.run f) s := by
  cases op <;> rfl

theorem AluOp.run_run (op : AluOp) (n a b : Nat) (s : State) :
    op.run n a b s = .ok (op.result n a b (carry s.flags.cf))
      ((op.drawn s).withFlags (op.flags n a b (carry s.flags.cf) (s.draw.getLsbD 0) s.flags)) := by
  cases op <;> rfl

theorem AluOp.drawn_mem (op : AluOp) (s : State) : (op.drawn s).mem = s.mem := by cases op <;> rfl
theorem AluOp.drawn_pins (op : AluOp) (s : State) : (op.drawn s).pins = s.pins := by cases op <;> rfl

/-- Every form reads its source and then changes its destination. -/
theorem aluWrite_run (op : Nat → Nat → Nat → M Nat) (f : AluForm) (s : State) :
    aluWrite op f s = (do
      let b ← aluSource s.osz.width f
      modifyRm (aluWidth s.osz.width f) (aluDst f) (fun a => op (aluWidth s.osz.width f).bits a b)) s := by
  cases f <;> rfl

theorem aluSource_reads {v : Width} {f : AluForm} {b : Nat} {s t : State} (h : aluSource v f s = .ok b t) : s.Reads t := by
  cases f
  case gbEb | gvEv => exact readRm_reads h
  all_goals cases h; exact State.Reads.refl _

theorem lockable_of_memory {f : AluForm} {m : Mem} (h : aluDst f = .mem m) : AluForm.lockable f = true := by
  cases f <;> cases h <;> rfl

/-- Settles O2: `aluWrite_run` splits every form into its source and its destination. -/
theorem aluToRegister : Obligations.AluToRegister := by
  intro op f r b s s1 hr hd hs w a c
  have reads : s.begin.Reads s1 := aluSource_reads hs
  have body : aluWrite op.run f s.begin = .ok () (((op.drawn s1).withFlags
      (op.flags w.bits a b c (s1.draw.getLsbD 0) s.flags)).withReg w r (op.result w.bits a b c)) := by
    have hregs : s1.regs = s.regs := reads.regs
    have hflags : s1.flags = s.flags := reads.flags
    have run := op.run_run w.bits (s1.regs.read w r) b s1
    rw [hregs, hflags] at run
    simp only [aluWrite_run, M.bind_run, State.begin_osz, hs, hd]
    exact modifyRm_reg_run (by rw [hregs]; exact run)
  exact ⟨reads, completes_of_reads (op.exec_instr f s) hr body reads (op.drawn_mem s1)⟩

/-- Settles O3: as `aluToRegister`, with the destination located for a write, read and written. -/
theorem aluToMemory : Obligations.AluToMemory := by
  intro op f m ps a b s s1 s2 hr hd hs w hl hrd c
  have reads : s.begin.Reads s2 := modify_reads hl hrd
  have body : aluWrite op.run f s.begin = .ok () (((op.drawn s2).withFlags
      (op.flags w.bits a b c (s2.draw.getLsbD 0) s.flags)).wrote ps (op.result w.bits a b c)) := by
    have run := op.run_run w.bits a b s2
    rw [show s2.flags = s.flags from reads.flags] at run
    simp only [aluWrite_run, M.bind_run, State.begin_osz, hs, hd]
    exact modifyRm_mem_run hl hrd run
  have exec := op.exec_instr f s
  rw [lockable_of_memory hd] at exec
  exact ⟨reads, completes_of_wrote exec hr body reads (op.drawn_mem s2) (op.drawn_pins s2)⟩

/-! ### CMP and TEST -/

/-- Every form of CMP reads its first operand, then its second. -/
theorem aluRead_run (op : Nat → Nat → Nat → M Unit) (f : AluForm) (s : State) :
    aluRead op f s = (do
      let a ← readRm (aluWidth s.osz.width f) (aluDst f)
      let b ← aluSource s.osz.width f
      op (aluWidth s.osz.width f).bits a b) s := by
  cases f <;> rfl

/-- TEST reads its operands as CMP does. -/
theorem testBody_run (f : TestForm) (s : State) :
    testBody f s = aluRead (fun n a b => do let _ ← logicOp n (a &&& b)) (testForm f) s := by
  cases f <;> rfl

theorem completes_of_aluRead {i : Instr} {op : Nat → Nat → Nat → M Unit} {f : AluForm} {g : State → State} {a b : Nat}
    {s s1 s2 : State} (hi : exec i s = runInstr false false (aluRead op f) s) (hr : s.Ready false)
    (ha : readRm (aluWidth s.osz.width f) (aluDst f) s.begin = .ok a s1) (hb : aluSource s.osz.width f s1 = .ok b s2)
    (hop : op (aluWidth s.osz.width f).bits a b s2 = .ok () (g s2)) (hg : (g s2).mem = s2.mem) :
    s.begin.Reads s2 ∧ Completes i s ((g s2).complete false) [] := by
  have reads : s.begin.Reads s2 := (readRm_reads ha).trans (aluSource_reads hb)
  have body : aluRead op f s.begin = .ok () (g s2) := by
    simp only [aluRead_run, M.bind_run, State.begin_osz, ha, hb, hop]
  exact ⟨reads, completes_of_reads hi hr body reads hg⟩

/-- Settles O4: both read their operands in the order of `aluRead_run`, then set the flags. -/
theorem compareAndTest : Obligations.CompareAndTest := by
  intro s s1 s2 a b hr
  constructor
  · intro f w ha hb
    have hf : s2.flags = s.flags := ((readRm_reads ha).trans (aluSource_reads hb)).flags
    exact completes_of_aluRead (g := fun t => t.withFlags (subFlags w.bits a b 0 s.flags)) rfl hr ha hb
      (by rw [cmpOp, modFlags_run, hf]) rfl
  · intro f g w ha hb
    have hf : s2.flags = s.flags := ((readRm_reads ha).trans (aluSource_reads hb)).flags
    have exec : exec (.test f) s = runInstr false false (aluRead (fun n a b => do let _ ← logicOp n (a &&& b)) g) s := by
      show runInstr false false (testBody f) s = _
      rw [funext (testBody_run f)]
    exact completes_of_aluRead
      (g := fun t => t.drawn.withFlags (logicFlags w.bits (a &&& b) (t.draw.getLsbD 0) s.flags)) exec hr ha hb
      (by rw [← hf]; rfl) rfl

/-! ### INC, DEC, NEG, NOT -/

/-- The operation as the model runs it. -/
def UnOp.run : UnOp → Nat → Nat → M Nat
  | .inc => incOp
  | .dec => decOp
  | .neg => negOp
  | .not => fun n a => pure (a ^^^ (2 ^ n - 1))

theorem UnOp.run_run (op : UnOp) (n a : Nat) (s : State) :
    op.run n a s = .ok (op.result n a) (s.withFlags (op.flags n a s.flags)) := by
  cases op <;> rfl

/-- Every form changes one r/m operand. -/
theorem UnOp.exec_instr (op : UnOp) (byte : Bool) (m : Rm) (s : State) :
    exec (op.instr byte m) s = runInstr m.isMem false (do
      let v ← getWidth
      modifyRm (pickWidth byte v) m (op.run (pickWidth byte v).bits)) s := by
  cases op <;> cases byte <;> rfl

/-- Settles O5: one operand changed, in a register or in memory. -/
theorem oneOperandArithmetic : Obligations.OneOperandArithmetic := by
  constructor
  · intro op byte r s hr w a
    refine ⟨?_, rfl, rfl⟩
    have body := modifyRm_reg_run (w := w) (r := r) (op.run_run w.bits a s.begin)
    exact completes_of_reads (op.exec_instr byte (.reg r) s) hr body (State.Reads.refl _) rfl
  · intro op byte m ps a s s1 s2 hr w hl hrd
    have reads : s.begin.Reads s2 := modify_reads hl hrd
    have run := op.run_run w.bits a s2
    rw [show s2.flags = s.flags from reads.flags] at run
    have body := modifyRm_mem_run hl hrd run
    exact ⟨reads, completes_of_wrote (op.exec_instr byte (.mem m) s) hr body reads rfl rfl⟩

end Sys2Proof.Machine
end

section
/-! ## Multiplication, division, BOUND, exchanges, and what the flags of sums and differences mean -/
set_option Elab.async false

namespace Sys2Proof.Machine

/-! ### Double-width registers -/

theorem setDouble_run (w : Width) (v : Nat) (s : State) : setDouble w v s = .ok () (s.withDouble w v) := by
  cases w <;> rfl

theorem getDouble_run (w : Width) (s : State) : getDouble w s = .ok (doubleReg w s.regs) s := by
  cases w <;> rfl

theorem State.withDouble_draw (s : State) (w : Width) (v : Nat) : (s.withDouble w v).draw = s.draw := by cases w <;> rfl
theorem State.withDouble_flags (s : State) (w : Width) (v : Nat) : (s.withDouble w v).flags = s.flags := by cases w <;> rfl
theorem State.withDouble_mem (s : State) (w : Width) (v : Nat) : (s.withDouble w v).mem = s.mem := by cases w <;> rfl
theorem State.withQuotient_mem (s : State) (w : Width) (q r : Nat) : (s.withQuotient w q r).mem = s.mem := by
  cases w <;> rfl

theorem mulFlags_run (c : Bool) (s : State) :
    mulFlags c s = .ok () (s.drawn.withFlags (productFlags s.draw c s.flags)) := rfl

theorem setQuotient_run (w : Width) (q r : Nat) (s : State) :
    setQuotient w q r s = .ok () ((s.withQuotient w q r).drawn.withFlags (freeStatus s.draw s.flags)) := by
  cases w <;> rfl

/-! ### MUL and IMUL -/

theorem unaryForm_rm (byte : Bool) (m : Rm) : UnaryForm.rm (unaryForm byte m) = m := by cases byte <;> rfl

theorem unaryForm_width (byte : Bool) (m : Rm) (v : Width) : UnaryForm.width (unaryForm byte m) v = pickWidth byte v := by
  cases byte <;> rfl

theorem mulBody_run {byte : Bool} {m : Rm} {b : Nat} {s s1 : State}
    (h : readRm (pickWidth byte s.osz.width) m s = .ok b s1) :
    let w := pickWidth byte s.osz.width
    let a := s1.regs.read w regEAX
    mulBody (unaryForm byte m) s = .ok () ((s1.withDouble w (a * b)).drawn.withFlags
      (productFlags s1.draw (a * b / 2 ^ w.bits != 0) s1.flags)) := by
  intro w a
  simp only [mulBody, M.bind_run, getWidth_run, unaryForm_rm, unaryForm_width, h, getReg_run, setDouble_run, mulFlags_run,
    State.withDouble_draw, State.withDouble_flags]
  rfl

theorem imulWide_run {w : Width} {m : Rm} {b : Nat} {s s1 : State} (h : readRm w m s = .ok b s1) :
    let p := toSigned w.bits (s1.regs.read w regEAX) * toSigned w.bits b
    imulWide w m s = .ok () ((s1.withDouble w (ofSigned (2 * w.bits) p)).drawn.withFlags
      (productFlags s1.draw (p != toSigned w.bits (ofSigned w.bits p)) s1.flags)) := by
  intro p
  simp only [imulWide, M.bind_run, h, getReg_run, setDouble_run, mulFlags_run, State.withDouble_draw, State.withDouble_flags]
  rfl

theorem exec_imul_wide (byte : Bool) (m : Rm) (s : State) :
    exec (.imul (if byte then .eb m else .ev m)) s =
      runInstr false false (do let v ← getWidth; imulWide (pickWidth byte v) m) s := by
  cases byte <;> rfl

/-- The state two- and three-operand IMUL leaves. -/
theorem imulNarrow_run (w : Width) (r : RegNum) (x y : Nat) (s : State) :
    let p := toSigned w.bits x * toSigned w.bits y
    imulNarrow w r x y s = .ok () ((s.withReg w r (ofSigned w.bits p)).drawn.withFlags
      (productFlags s.draw (p != toSigned w.bits (ofSigned w.bits p)) s.flags)) := rfl

/-! ### DIV and IDIV -/

theorem divBody_run {byte : Bool} {m : Rm} {b : Nat} {s s1 : State}
    (h : readRm (pickWidth byte s.osz.width) m s = .ok b s1) :
    let w := pickWidth byte s.osz.width
    let a := doubleReg w s1.regs
    divBody (unaryForm byte m) s =
      if b = 0 ∨ 2 ^ w.bits ≤ a / b then raiseDE s1
      else .ok () ((s1.withQuotient w (a / b) (a % b)).drawn.withFlags (freeStatus s1.draw s1.flags)) := by
  intro w a
  simp only [divBody, M.bind_run, getWidth_run, unaryForm_rm, unaryForm_width, h, getDouble_run]
  by_cases hb : b = 0
  · simp [hb]
  · by_cases hq : 2 ^ w.bits ≤ a / b <;> simp [hb, hq, w, a, setQuotient_run]

theorem idivBody_run {byte : Bool} {m : Rm} {b : Nat} {s s1 : State}
    (h : readRm (pickWidth byte s.osz.width) m s = .ok b s1) :
    let w := pickWidth byte s.osz.width
    let a := toSigned (2 * w.bits) (doubleReg w s1.regs)
    let q := a.tdiv (toSigned w.bits b)
    idivBody (unaryForm byte m) s =
      if b = 0 ∨ q < -(2 ^ (w.bits - 1)) ∨ 2 ^ (w.bits - 1) - 1 < q then raiseDE s1
      else .ok () ((s1.withQuotient w (ofSigned w.bits q) (ofSigned w.bits (a.tmod (toSigned w.bits b)))).drawn.withFlags
        (freeStatus s1.draw s1.flags)) := by
  intro w a q
  simp only [idivBody, M.bind_run, getWidth_run, unaryForm_rm, unaryForm_width, h, getDouble_run]
  by_cases hb : b = 0
  · simp [hb]
  · by_cases hl : q < -(2 ^ (w.bits - 1))
    · simp [hb, hl, w, a, q]
    · by_cases hg : 2 ^ (w.bits - 1) - 1 < q <;> simp [hb, hl, hg, w, a, q, setQuotient_run]

/-- Settles O6: the operand is read, and the bodies' equations give what is written. -/
theorem multiplyDivide : Obligations.MultiplyDivide := by
  constructor
  · intro m b s s1 hr
    constructor
    · intro byte w h a p
      have reads : s.begin.Reads s1 := readRm_reads h
      have hregs : s1.regs = s.regs := reads.regs
      have hflags : s1.flags = s.flags := reads.flags
      have mul := mulBody_run (byte := byte) (s := s.begin) h
      have imul := imulWide_run h
      simp only [hregs, hflags] at mul imul
      exact ⟨reads, completes_of_reads rfl hr mul reads (State.withDouble_mem ..),
        completes_of_reads (exec_imul_wide byte m s) hr imul reads (State.withDouble_mem ..)⟩
    · intro r w h narrow
      have reads : s.begin.Reads s1 := readRm_reads h
      have hflags : s1.flags = s.flags := reads.flags
      have run (f : ImulForm) (x y : Nat) (hf : imulBody f s.begin = imulNarrow w r x y s1) :
          Completes (.imul f) s (narrow x y) [] := by
        have body := hf.trans (imulNarrow_run w r x y s1)
        rw [hflags] at body
        exact completes_of_reads (l := false) (k := false) (i := .imul f) rfl hr body reads rfl
      refine ⟨run _ _ _ ?_, fun imm => run _ _ _ ?_, fun imm => run _ _ _ ?_⟩
      · simp only [imulBody, M.bind_run, getWidth_run, State.begin_osz, h, getReg_run, w]
        rw [show s1.regs = s.regs from reads.regs]
      · simp only [imulBody, M.bind_run, getWidth_run, State.begin_osz, h, w]
      · simp only [imulBody, M.bind_run, getWidth_run, State.begin_osz, h, w]
  · intro byte m b s s1 hr w h hb a q
    have reads : s.begin.Reads s1 := readRm_reads h
    have hregs : s1.regs = s.regs := reads.regs
    have hflags : s1.flags = s.flags := reads.flags
    have div := divBody_run (byte := byte) (s := s.begin) h
    have idiv := idivBody_run (byte := byte) (s := s.begin) h
    simp only [hregs, hflags] at div idiv
    refine ⟨fun fits => ?_, fun fits => ?_⟩
    · have body := div.trans (if_neg (not_or.2 ⟨hb, not_le.2 fits⟩))
      exact ⟨reads, completes_of_reads rfl hr body reads (State.withQuotient_mem ..)⟩
    · have body := idiv.trans (if_neg (by push Not; exact ⟨hb, fits⟩))
      exact completes_of_reads rfl hr body reads (State.withQuotient_mem ..)

/-! ### Divide errors and BOUND -/

theorem State.Reads.memOff {s t : State} (h : s.Reads t) (m : Mem) : t.memOff m = s.memOff m := by rw [h.1]; rfl
theorem State.Reads.memSeg {s t : State} (h : s.Reads t) (m : Mem) : t.memSeg m = s.memSeg m := by rw [h.1]; rfl

/-- An access that is located lies inside the limit. -/
theorem locate_inLimit {sr : SegName} {off n al : Nat} {w : Bool} {ps : List BytePlace} {s t : State}
    (h : locate sr off n al w s = .ok ps t) : (s.segs.get sr).hid.inLimit off n = true := by
  unfold locate at h
  obtain ⟨lin, t0, h0, -⟩ := M.bind_ok.1 h
  by_contra hl
  unfold segCheck at h0
  dsimp only at h0
  rw [if_neg hl] at h0
  by_cases hv : (s.pe && !(s.segs.get sr).hid.valid) = true
  · rw [if_pos hv] at h0; cases h0
  by_cases ht : (s.pe && !(if w = true then (s.segs.get sr).hid.writable else (s.segs.get sr).hid.readable)) = true
  · rw [if_neg hv, if_pos ht] at h0; cases h0
  · rw [if_neg hv, if_neg ht] at h0; cases sr <;> cases h0

theorem load_inLimit {sr : SegName} {off n al v : Nat} {s t : State} (h : load sr off n al s = .ok v t) :
    (s.segs.get sr).hid.inLimit off n = true := by
  obtain ⟨ps, t0, h0, -⟩ := M.bind_ok.1 h
  exact locate_inLimit h0

theorem loadBound_run {m : Mem} {k n v : Nat} {s t : State} (h : loadMem m k n n s = .ok v t) :
    loadBound m k n s = .ok v t := by
  have hin : (s.segs.get (s.memSeg m)).hid.inLimit (s.memOff m + k) n = true := load_inLimit h
  simpa [loadBound, hin] using h

theorem loadBound_beyond {m : Mem} {k n : Nat} {s : State} (hp : s.pe = false) (hb : 2 ^ 16 < s.memOff m + k + n)
    (hl : (s.segs.get (s.memSeg m)).hid.inLimit (s.memOff m + k) n = false) : loadBound m k n s = raiseGP 0 s := by
  have hc : (!s.pe && decide (2 ^ 16 < s.memOff m + k + n) &&
      !(s.segs.get (s.memSeg m)).hid.inLimit (s.memOff m + k) n) = true := by
    rw [hp, hl, decide_eq_true hb]; rfl
  rw [loadBound, if_pos hc]

theorem boundBody_run {r : RegNum} {m : Mem} {lo hi : Nat} {s s1 s2 : State}
    (h1 : loadMem m 0 s.osz.width.bytes s.osz.width.bytes s = .ok lo s1)
    (h2 : loadMem m s.osz.width.bytes s.osz.width.bytes s.osz.width.bytes s1 = .ok hi s2) :
    let w := s.osz.width
    let x := toSigned w.bits (s2.regs.read w r)
    boundBody r m s =
      if toSigned w.bits lo ≤ x ∧ x ≤ toSigned w.bits hi then .ok () s2 else raise 5 none .fault s2 := by
  intro w x
  simp only [boundBody, M.bind_run, M.get_run, loadBound_run h1, loadBound_run h2, getReg_run, M.ite_run]
  by_cases hx : toSigned w.bits lo ≤ x ∧ x ≤ toSigned w.bits hi
  · rw [if_pos hx, if_neg (by rw [not_or, not_lt, not_lt]; exact hx)]; rfl
  · rw [if_neg hx, if_pos (by rw [← not_le, ← not_le, ← not_and_or]; exact hx)]

theorem aamBody_zero (s : State) : aamBody 0 s = raiseDE s := by
  simp [aamBody, getAX]

/-- Settles O7: the equations of the bodies, in the cases that raise. -/
theorem divideErrorAndBound : Obligations.DivideErrorAndBound := by
  refine ⟨?_, ?_, ?_⟩
  · intro byte m b s s1 hr w h a q
    have hregs : s1.regs = s.regs := (readRm_reads h).regs
    have div := divBody_run (byte := byte) (s := s.begin) h
    have idiv := idivBody_run (byte := byte) (s := s.begin) h
    simp only [hregs] at div idiv
    exact ⟨fun bad => raises_of_error rfl hr (div.trans (if_pos bad)),
      fun bad => raises_of_error rfl hr (idiv.trans (if_pos bad)), raises_of_error rfl hr (aamBody_zero s.begin)⟩
  · intro r m lo hi s s1 s2 hr w h1 h2 x inside
    have reads : s.begin.Reads s2 := (loadMem_reads h1).trans (loadMem_reads h2)
    have body := boundBody_run (r := r) (s := s.begin) h1 h2
    simp only [show s2.regs = s.regs from reads.regs] at body
    exact ⟨reads, fun hx => completes_of_reads rfl hr (body.trans (if_pos hx)) reads rfl,
      fun hx => raises_of_error rfl hr (body.trans (if_neg hx))⟩
  · intro r m lo s s1 hr hp n beyond
    refine ⟨fun hb => raises_of_error rfl hr ?_, fun h1 hb => raises_of_error rfl hr ?_⟩
    · have first : loadBound m 0 s.osz.width.bytes s.begin = raiseGP 0 s.begin :=
        loadBound_beyond (s := s.begin) hp hb.1 hb.2
      simp only [boundBody, M.bind_run, M.get_run, State.begin_osz, first]
      rfl
    · have reads := loadMem_reads h1
      have first : loadBound m 0 s.osz.width.bytes s.begin = .ok lo s1 := loadBound_run h1
      have second : loadBound m s.osz.width.bytes s.osz.width.bytes s1 = raiseGP 0 s1 := by
        refine loadBound_beyond (reads.pe.trans hp) ?_ ?_
        · rw [reads.memOff]; exact hb.1
        · rw [reads.memOff, reads.memSeg, reads.segs]; exact hb.2
      simp only [boundBody, M.bind_run, M.get_run, State.begin_osz, first, second]
      rfl

end Sys2Proof.Machine
end

section
/-! ## Exchanges, and what the flags of sums and differences mean -/
set_option Elab.async false

namespace Sys2Proof.Machine

/-! ### XADD, CMPXCHG, XCHG -/

/-- The register-to-r/m form of XADD and CMPXCHG. -/
theorem exec_xadd (byte : Bool) (r : RegNum) (m : Rm) (s : State) :
    exec (.xadd (if byte then .ebGb r m else .evGv r m)) s =
      runInstr m.isMem false (xaddBody (if byte then .ebGb r m else .evGv r m)) s := by
  cases byte <;> rfl

theorem exec_cmpxchg (byte : Bool) (r : RegNum) (m : Rm) (s : State) :
    exec (.cmpxchg (if byte then .ebGb r m else .evGv r m)) s =
      runInstr m.isMem false (cmpxchgBody (if byte then .ebGb r m else .evGv r m)) s := by
  cases byte <;> rfl

theorem exec_xchg (byte : Bool) (r : RegNum) (m : Rm) (s : State) :
    exec (.xchg (if byte then .ebGb r m else .evGv r m)) s =
      runInstr m.isMem false (do let v ← getWidth; exchange (pickWidth byte v) r m) s := by
  cases byte <;> rfl

/-- What XADD does with its destination. -/
def xaddChange (w : Width) (r : RegNum) (b a : Nat) : M Nat := do
  let t ← addOp w.bits a b
  setReg w r a
  pure t

theorem xaddBody_eq (byte : Bool) (r : RegNum) (m : Rm) (s : State) :
    xaddBody (if byte then .ebGb r m else .evGv r m) s =
      (let w := pickWidth byte s.osz.width
       modifyRm w m (xaddChange w r (s.regs.read w r)) s) := by
  cases byte <;> rfl

theorem xaddChange_run (w : Width) (r : RegNum) (b a : Nat) (s : State) :
    xaddChange w r b a s =
      .ok (addResult w.bits a b 0) ((s.withReg w r a).withFlags (addFlags w.bits a b 0 s.flags)) := rfl

/-- What CMPXCHG does with its destination. -/
def cmpxchgChange (w : Width) (acc b d : Nat) : M Nat := do
  cmpOp w.bits acc d
  if acc = d then pure b
  else do
    setReg w regEAX d
    pure d

theorem cmpxchgBody_eq (byte : Bool) (r : RegNum) (m : Rm) (s : State) :
    cmpxchgBody (if byte then .ebGb r m else .evGv r m) s =
      (let w := pickWidth byte s.osz.width
       modifyRm w m (cmpxchgChange w (s.regs.read w regEAX) (s.regs.read w r)) s) := by
  cases byte <;> rfl

theorem cmpxchgChange_run (w : Width) (acc b d : Nat) (s : State) :
    cmpxchgChange w acc b d s =
      if acc = d then .ok b (s.withFlags (subFlags w.bits acc d 0 s.flags))
      else .ok d ((s.withFlags (subFlags w.bits acc d 0 s.flags)).withReg w regEAX d) := by
  by_cases h : acc = d <;> simp [cmpxchgChange, cmpOp, h]

theorem exchange_mem_run {w : Width} {r : RegNum} {m : Mem} {ps : List BytePlace} {y : Nat} {s s1 s2 : State}
    (hl : locateMem m w.bytes w.bytes true s = .ok ps s1) (hr : readBytes true ps s1 = .ok y s2) :
    exchange w r (.mem m) s = .ok () ((s2.wrote ps (s.regs.read w r)).withReg w r y) := by
  simp only [exchange, M.bind_run, getReg_run, hl, hr, writeBytes_run, setReg_run]

/-- Settles O8: the destination is changed by `xaddChange`, `cmpxchgChange` or exchanged. -/
theorem exchanges : Obligations.Exchanges := by
  constructor
  · intro byte r n s hr w a b acc
    refine ⟨?_, ?_, ?_, rfl⟩
    · have body := (xaddBody_eq byte r (.reg n) s.begin).trans (modifyRm_reg_run (xaddChange_run w r b a s.begin))
      exact completes_of_reads (exec_xadd byte r (.reg n) s) hr body (State.Reads.refl _) rfl
    · have change := cmpxchgChange_run w acc b a s.begin
      by_cases h : acc = a
      · rw [if_pos h] at change ⊢
        have body := (cmpxchgBody_eq byte r (.reg n) s.begin).trans (modifyRm_reg_run change)
        exact completes_of_reads (exec_cmpxchg byte r (.reg n) s) hr body (State.Reads.refl _) rfl
      · rw [if_neg h] at change ⊢
        have body := (cmpxchgBody_eq byte r (.reg n) s.begin).trans (modifyRm_reg_run change)
        exact completes_of_reads (exec_cmpxchg byte r (.reg n) s) hr body (State.Reads.refl _) rfl
    · exact completes_of_reads (exec_xchg byte r (.reg n) s) hr rfl (State.Reads.refl _) rfl
  · intro byte r m ps a s s1 s2 hr w hl b acc
    refine ⟨fun hrd => ?_, fun hrd => ?_⟩
    · have reads : s.begin.Reads s2 := modify_reads hl hrd
      have hflags : s2.flags = s.flags := reads.flags
      refine ⟨reads, ?_, ?_⟩
      · have change := xaddChange_run w r b a s2
        rw [hflags] at change
        have body := (xaddBody_eq byte r (.mem m) s.begin).trans (modifyRm_mem_run hl hrd change)
        exact completes_of_wrote (exec_xadd byte r (.mem m) s) hr body reads rfl rfl
      · have change := cmpxchgChange_run w acc b a s2
        rw [hflags] at change
        by_cases h : acc = a
        · rw [if_pos h] at change ⊢
          have body := (cmpxchgBody_eq byte r (.mem m) s.begin).trans (modifyRm_mem_run hl hrd change)
          exact completes_of_wrote (exec_cmpxchg byte r (.mem m) s) hr body reads rfl rfl
        · rw [if_neg h] at change ⊢
          have body := (cmpxchgBody_eq byte r (.mem m) s.begin).trans (modifyRm_mem_run hl hrd change)
          exact completes_of_wrote (exec_cmpxchg byte r (.mem m) s) hr body reads rfl rfl
    · have reads : s.begin.Reads s2 := modify_reads hl hrd
      exact ⟨reads, completes_of_ok (exec_xchg byte r (.mem m) s) hr (exchange_mem_run hl hrd) rfl
        (keeps_of_wrote reads rfl rfl rfl)⟩

/-! ### The flags of sums and differences -/

/-- The top bit of an N-bit number. -/
theorem testBit_top {n x : Nat} (hn : 0 < n) (hx : x < 2 ^ n) : x.testBit (n - 1) = decide (2 ^ (n - 1) ≤ x) := by
  have h2 : 2 ^ n = 2 * 2 ^ (n - 1) := by rw [← Nat.pow_succ', Nat.succ_eq_add_one, Nat.sub_add_cancel hn]
  rw [Nat.testBit_eq_decide_div_mod_eq]
  congr 1
  by_cases h : 2 ^ (n - 1) ≤ x
  · have : x / 2 ^ (n - 1) = 1 := Nat.div_eq_of_lt_le (by omega) (by omega)
    simp [this, h]
  · simp [Nat.div_eq_of_lt (not_le.1 h), h]

theorem parity_iff (r : Nat) : parity r = true ↔ (List.range 8).countP (fun i => r.testBit i) % 2 = 0 := by
  simp only [parity, show List.range 8 = [0, 1, 2, 3, 4, 5, 6, 7] from rfl, List.countP_cons, List.countP_nil]
  generalize r.testBit 0 = b0, r.testBit 1 = b1, r.testBit 2 = b2, r.testBit 3 = b3, r.testBit 4 = b4, r.testBit 5 = b5,
    r.testBit 6 = b6, r.testBit 7 = b7
  revert b0 b1 b2 b3 b4 b5 b6 b7
  decide

/-- Half of a power of two, and both as integers. -/
theorem exists_half {n : Nat} (hn : 0 < n) :
    ∃ H : Nat, 0 < H ∧ 2 ^ (n - 1) = H ∧ 2 ^ n = 2 * H ∧ (2 : Int) ^ (n - 1) = H := by
  refine ⟨2 ^ (n - 1), Nat.two_pow_pos _, rfl, ?_, by push_cast; rfl⟩
  rw [← Nat.pow_succ', Nat.succ_eq_add_one, Nat.sub_add_cancel hn]

theorem addResult_lt (n a b c : Nat) : addResult n a b c < 2 ^ n := Nat.mod_lt _ (Nat.two_pow_pos n)
theorem subResult_lt (n a b c : Nat) : subResult n a b c < 2 ^ n := Nat.mod_lt _ (Nat.two_pow_pos n)

theorem addResult_eq {n a b c : Nat} (ha : a < 2 ^ n) (hb : b < 2 ^ n) (hc : c ≤ 1) :
    addResult n a b c = if a + b + c < 2 ^ n then a + b + c else a + b + c - 2 ^ n := by
  unfold addResult
  split
  next h => exact Nat.mod_eq_of_lt h
  next h => rw [Nat.mod_eq_sub_mod (by omega), Nat.mod_eq_of_lt (by omega)]

theorem subResult_eq {n a b c : Nat} (ha : a < 2 ^ n) (hb : b < 2 ^ n) (hc : c ≤ 1) :
    subResult n a b c = if b + c ≤ a then a - b - c else a + 2 ^ n - b - c := by
  unfold subResult
  have h2 : a + 2 * 2 ^ n - b - c = a + 2 ^ n - b - c + 2 ^ n := by omega
  rw [h2, Nat.add_mod_right]
  split
  next h => rw [Nat.mod_eq_sub_mod (by omega), Nat.mod_eq_of_lt (by omega)]; omega
  next h => exact Nat.mod_eq_of_lt (by omega)

/-- OF of a sum says that the signed sum does not fit. -/
theorem addFlags_ovf {n a b c : Nat} (f : Flags) (hn : 0 < n) (ha : a < 2 ^ n) (hb : b < 2 ^ n) (hc : c ≤ 1) :
    (addFlags n a b c f).ovf = true ↔
      ¬ (-(2 ^ (n - 1)) ≤ toSigned n a + toSigned n b + c ∧ toSigned n a + toSigned n b + c < 2 ^ (n - 1)) := by
  obtain ⟨H, hH, half, whole, int⟩ := exists_half hn
  have value := addResult_eq ha hb hc
  have lt := addResult_lt n a b c
  simp only [addFlags, szp, testBit_top hn ha, testBit_top hn hb, testBit_top hn lt, toSigned, int]
  rw [whole] at ha hb value lt ⊢
  rw [half]
  generalize addResult n a b c = r at *
  clear half whole int
  simp only [Bool.and_eq_true, beq_iff_eq, bne_iff_ne, ne_eq, decide_eq_decide]
  push_cast
  split at value <;> split <;> split <;> omega

/-- OF of a difference says that the signed difference does not fit. -/
theorem subFlags_ovf {n a b c : Nat} (f : Flags) (hn : 0 < n) (ha : a < 2 ^ n) (hb : b < 2 ^ n) (hc : c ≤ 1) :
    (subFlags n a b c f).ovf = true ↔
      ¬ (-(2 ^ (n - 1)) ≤ toSigned n a - toSigned n b - c ∧ toSigned n a - toSigned n b - c < 2 ^ (n - 1)) := by
  obtain ⟨H, hH, half, whole, int⟩ := exists_half hn
  have value := subResult_eq ha hb hc
  have lt := subResult_lt n a b c
  simp only [subFlags, szp, testBit_top hn ha, testBit_top hn hb, testBit_top hn lt, toSigned, int]
  rw [whole] at ha hb value lt ⊢
  rw [half]
  generalize subResult n a b c = r at *
  clear half whole int
  simp only [Bool.and_eq_true, bne_iff_ne, ne_eq, decide_eq_decide]
  push_cast
  split at value <;> split <;> split <;> omega

/-- A difference is 0 exactly when the number itself is a multiple of 2^N. -/
theorem subResult_eq_zero_iff {n a b c : Nat} (hb : b < 2 ^ n) (hc : c ≤ 1) :
    subResult n a b c = 0 ↔ ((2 ^ n : Nat) : Int) ∣ (a : Int) - b - c := by
  have pos := Nat.two_pow_pos n
  have cast : ((a + 2 * 2 ^ n - b - c : Nat) : Int) = (a - b - c : Int) + 2 * (2 ^ n : Nat) := by omega
  rw [subResult, ← Nat.dvd_iff_mod_eq_zero, ← Int.natCast_dvd_natCast, cast]
  exact dvd_add_left (Dvd.intro_left 2 rfl)

/-- Settles O10: sums below 2^(N+1) and differences above -2^N, split by whether they leave the N bits. -/
theorem arithmeticFlagsMean : Obligations.ArithmeticFlagsMean := by
  intro n a b c f hn ha hb hc signed sum dif
  have pos : 0 < n := by omega
  refine ⟨decide_eq_true_iff, addFlags_ovf f pos ha hb hc, ?_, ?_, decide_eq_true_iff, subFlags_ovf f pos ha hb hc, ?_, ?_,
    parity_iff _, parity_iff _, rfl, rfl, rfl, rfl⟩
  · exact beq_iff_eq.trans (Nat.dvd_iff_mod_eq_zero ..).symm
  · show (addResult n a b c).testBit (n - 1) = true ↔ _
    rw [testBit_top pos (addResult_lt ..)]
    exact decide_eq_true_iff
  · exact beq_iff_eq.trans (subResult_eq_zero_iff hb hc)
  · show (subResult n a b c).testBit (n - 1) = true ↔ _
    rw [testBit_top pos (subResult_lt ..)]
    exact decide_eq_true_iff

end Sys2Proof.Machine
end

section
/-! ## Shifts and rotates: what they write

One run lemma for the seven operations (`ShiftOp.run_run`) and one for each double shift; the forms are a width, an operand and
a count. -/
set_option Elab.async false

namespace Sys2Proof.Machine

/-! ### Flags with undefined values -/

theorem orFree_run (b : Option Bool) (s : State) :
    ∃ (u : Bool) (k : Nat), orFree b s = .ok (b.getD u) { s with freeCtr := k } := by
  cases b with
  | none => exact ⟨_, _, rfl⟩
  | some b => exact ⟨false, s.freeCtr, rfl⟩

theorem rotateFlags_run (x : Shifted) (s : State) : ∃ (fc fo : Bool) (k : Nat), rotateFlags x s =
    .ok () ({ s with freeCtr := k }.withFlags { s.flags with cf := x.cf.getD fc, ovf := x.ovf.getD fo }) := by
  obtain ⟨fc, k1, hc⟩ := orFree_run x.cf s
  obtain ⟨fo, k2, ho⟩ := orFree_run x.ovf { s with freeCtr := k1 }
  refine ⟨fc, fo, k2, ?_⟩
  simp only [rotateFlags, M.bind_run, hc, ho]
  rfl

theorem shiftFlags_run (n : Nat) (x : Shifted) (s : State) : ∃ (fc fo fa : Bool) (k : Nat), shiftFlags n x s =
    .ok () ({ s with freeCtr := k }.withFlags
      (szp n x.val { s.flags with cf := x.cf.getD fc, ovf := x.ovf.getD fo, af := fa })) := by
  obtain ⟨fc, k1, hc⟩ := orFree_run x.cf s
  obtain ⟨fo, k2, ho⟩ := orFree_run x.ovf { s with freeCtr := k1 }
  refine ⟨fc, fo, State.draw { s with freeCtr := k2 } |>.getLsbD 0, (State.drawn { s with freeCtr := k2 }).freeCtr, ?_⟩
  simp only [shiftFlags, M.bind_run, hc, ho]
  rfl

/-! ### The seven operations -/

/-- The operation as the model runs it. -/
def ShiftOp.run (op : ShiftOp) (n c a : Nat) : M Nat := do
  let t ← get
  let x := op.out n c a t.flags.cf
  if op.rotates then rotateFlags x else shiftFlags n x
  pure x.val

theorem ShiftOp.exec_instr (op : ShiftOp) (f : ShiftForm) (s : State) :
    exec (op.instr f) s = runInstr false false (shiftBody op.live op.run f) s := by
  cases op
  case shl => cases f <;> rfl
  all_goals rfl

theorem ShiftOp.run_run (op : ShiftOp) (n c a : Nat) (s : State) :
    let x := op.out n c a s.flags.cf
    ∃ (fc fo fa : Bool) (k : Nat),
      op.run n c a s = .ok x.val ({ s with freeCtr := k }.withFlags (op.flags n x fc fo fa s.flags)) := by
  intro x
  by_cases h : op.rotates = true
  · obtain ⟨fc, fo, k, run⟩ := rotateFlags_run x s
    refine ⟨fc, fo, false, k, ?_⟩
    simp only [ShiftOp.run, M.bind_run, M.get_run, ShiftOp.flags, if_pos h]
    rw [run]
    rfl
  · obtain ⟨fc, fo, fa, k, run⟩ := shiftFlags_run n x s
    refine ⟨fc, fo, fa, k, ?_⟩
    simp only [ShiftOp.run, M.bind_run, M.get_run, ShiftOp.flags, if_neg h]
    rw [run]
    rfl

/-! ### The forms -/

/-- An instruction that does not take LOCK runs without it. -/
theorem State.Ready.lock {s : State} (h : s.Ready false) : s.dec.lock = false := by
  obtain ⟨-, h⟩ := h
  simpa using h

section
variable {live : Nat → Nat → Bool} {op : Nat → Nat → Nat → M Nat} {w : Width} {m : Rm} {count : Nat} {s : State}

theorem groupTwo_live (h : live w.bits (count % 32) = true) :
    groupTwo live op w m count s = modifyRm w m (op w.bits (count % 32)) s := by
  simp only [groupTwo, h, if_true]

theorem groupTwo_dead_reg {r : RegNum} (h : live w.bits (count % 32) = false) :
    groupTwo live op w (.reg r) count s = .ok () s := by
  simp only [groupTwo, h]
  rfl

theorem groupTwo_dead_mem {m : Mem} {a : Nat} {s1 : State} (h : live w.bits (count % 32) = false)
    (hl : loadMem m 0 w.bytes w.bytes s = .ok a s1) : groupTwo live op w (.mem m) count s = .ok () s1 := by
  simp only [groupTwo, h, Bool.false_eq_true, if_false, M.bind_run, readRm_mem, hl]
  rfl

end

/-- The count of a shift form before it is taken modulo 32. -/
def rawCount (r : Regs) : ShiftForm → Nat
  | .ebIb _ imm | .evIb _ imm => imm.toNat
  | .eb1 _ | .ev1 _ => 1
  | .ebCl _ | .evCl _ => r.read .w8 regECX

theorem rawCount_mod (r : Regs) (f : ShiftForm) : rawCount r f % 32 = shiftCount r f := by cases f <;> rfl

theorem shiftBody_run (live : Nat → Nat → Bool) (op : Nat → Nat → Nat → M Nat) (f : ShiftForm) (s : State) :
    shiftBody live op f s = groupTwo live op (shiftWidth s.osz.width f) (shiftRm f) (rawCount s.regs f) s := by
  cases f <;> rfl

theorem shlForm_common_shlForm (g : ShlForm) : ShlForm.common (shlForm (ShlForm.common g)) = ShlForm.common g := by
  cases g <;> rfl

theorem exec_shl_common (g : ShlForm) (s : State) : exec (.shl g) s = exec (.shl (shlForm (ShlForm.common g))) s := by
  show runInstr false false (shiftBody liveCount (shiftWith shlOp) (ShlForm.common g)) s =
    runInstr false false (shiftBody liveCount (shiftWith shlOp) (ShlForm.common (shlForm (ShlForm.common g)))) s
  rw [shlForm_common_shlForm]

/-- Settles O11: a live count changes the operand by `ShiftOp.run_run`, a dead one at most reads it. -/
theorem shiftsAndRotates : Obligations.ShiftsAndRotates := by
  constructor
  · intro op f r s hr hf w c x
    have hc : rawCount s.begin.regs f % 32 = c := rawCount_mod s.regs f
    have form := shiftBody_run op.live op.run f s.begin
    rw [hf] at form
    refine ⟨fun live => ?_, fun dead => ?_, fun g => exec_shl_common g s⟩
    · obtain ⟨fc, fo, fa, k, run⟩ := op.run_run w.bits c (s.regs.read w r) s.begin
      refine ⟨fc, fo, fa, k, ?_⟩
      have body := form.trans ((groupTwo_live (by rw [hc]; exact live)).trans (modifyRm_reg_run (by rw [hc]; exact run)))
      exact completes_of_reads (op.exec_instr f s) hr body (State.Reads.refl _) rfl
    · have body := form.trans (groupTwo_dead_reg (by rw [hc]; exact dead))
      exact completes_of_reads (op.exec_instr f s) hr body (State.Reads.refl _) rfl
  · intro op f m s hr hf w c
    have hc : rawCount s.begin.regs f % 32 = c := rawCount_mod s.regs f
    have form := shiftBody_run op.live op.run f s.begin
    rw [hf] at form
    refine ⟨?_, ?_⟩
    · intro ps a s1 s2 live hl hrd x
      have reads : s.begin.Reads s2 := modify_reads hl hrd
      obtain ⟨fc, fo, fa, k, run⟩ := op.run_run w.bits c a s2
      rw [show s2.flags = s.flags from reads.flags] at run
      have body := form.trans ((groupTwo_live (by rw [hc]; exact live)).trans
        (modifyRm_mem_run hl (by rw [State.begin_dec, hr.lock]; exact hrd) (by rw [hc]; exact run)))
      exact ⟨reads, fc, fo, fa, k, completes_of_wrote (op.exec_instr f s) hr body reads rfl rfl⟩
    · intro a s1 dead hl
      have body := form.trans (groupTwo_dead_mem (by rw [hc]; exact dead) hl)
      exact ⟨loadMem_reads hl, completes_of_reads (op.exec_instr f s) hr body (loadMem_reads hl) rfl⟩

/-! ### SHLD and SHRD -/

/-- SHLD (`left`) or SHRD as the model runs it, for the value `b` that shifts in. -/
def dshiftRun (left : Bool) (b : Nat) : Nat → Nat → Nat → M Nat :=
  if left then dshiftOp shldVal (fun n c a => a.testBit (n - c)) b else dshiftOp shrdVal (fun _ c a => a.testBit (c - 1)) b

/-- The count of a double shift before it is taken modulo 32. -/
def rawDshiftCount (r : Regs) : DshiftForm → Nat
  | .ib _ _ imm => imm.toNat
  | .cl _ _ => r.read .w8 regECX

theorem rawDshiftCount_mod (r : Regs) (f : DshiftForm) : rawDshiftCount r f % 32 = dshiftCount r f := by cases f <;> rfl

theorem exec_dshift (left : Bool) (f : DshiftForm) (s : State) :
    exec (if left then .shld f else .shrd f) s = runInstr false false (dshiftBody (dshiftRun left) f) s := by
  cases left <;> rfl

theorem dshiftBody_run (op : Nat → Nat → Nat → Nat → M Nat) (f : DshiftForm) (s : State) :
    dshiftBody op f s = groupTwo liveCount (op (s.regs.read s.osz.width (dshiftReg f))) s.osz.width (dshiftRm f)
      (rawDshiftCount s.regs f) s := by
  cases f <;> rfl

theorem dshiftRun_defined (left : Bool) {n c : Nat} (a b : Nat) (s : State) (h : c ≤ n) :
    let x := dshiftOut left n c a b
    ∃ (fo fa : Bool) (k : Nat), dshiftRun left b n c a s = .ok x.val ({ s with freeCtr := k }.withFlags
      (szp n x.val { s.flags with cf := x.cf.getD false, ovf := x.ovf.getD fo, af := fa })) := by
  intro x
  obtain ⟨fc, fo, fa, k, run⟩ := shiftFlags_run n x s
  refine ⟨fo, fa, k, ?_⟩
  have eq : dshiftRun left b n c a s = (do shiftFlags n x; pure x.val : M Nat) s := by
    cases left <;> simp only [dshiftRun, dshiftOp, Bool.false_eq_true, if_true, if_false, gt_iff_lt, if_neg (not_lt.2 h)] <;> rfl
  rw [eq, M.bind_run, run]
  rfl

theorem dshiftRun_free (left : Bool) {n c : Nat} (a b : Nat) (s : State) (h : n < c) :
    ∃ (v k : Nat) (u : BitVec 128),
      dshiftRun left b n c a s = .ok v ({ s with freeCtr := k }.withFlags (freeStatus u s.flags)) := by
  refine ⟨s.draw.toNat / 2 ^ 64 % 2 ^ n, s.drawn.freeCtr, s.draw, ?_⟩
  cases left <;> simp only [dshiftRun, dshiftOp, Bool.false_eq_true, if_true, if_false, gt_iff_lt, if_pos h] <;> rfl

end Sys2Proof.Machine
end

section
/-! ## Shifts and rotates bit by bit

A number `a * 2^k + r` with `r < 2^k` holds the bits of `r` below those of `a` (`testBit_concat`); the rotates through CF are one
place of the N + 1 bits `wideBit` repeated. -/
set_option Elab.async false

namespace Sys2Proof.Machine

/-! ### Positions modulo N -/

theorem add_mod_cases {i k n : Nat} (hi : i < n) (hk : k < n) :
    (i + k) % n = if i + k < n then i + k else i + k - n := by
  split
  next h => exact Nat.mod_eq_of_lt h
  next h => rw [Nat.mod_eq_sub_mod (by omega), Nat.mod_eq_of_lt (by omega)]

theorem sub_mod_cases {i k n : Nat} (hi : i < n) (hk : k < n) :
    (i + n - k) % n = if k ≤ i then i - k else i + n - k := by
  split
  next h => rw [Nat.mod_eq_sub_mod (by omega), Nat.mod_eq_of_lt (by omega)]; omega
  next h => exact Nat.mod_eq_of_lt (by omega)

/-! ### Numbers put side by side -/

theorem testBit_concat {k r : Nat} (a : Nat) (h : r < 2 ^ k) (i : Nat) :
    (a * 2 ^ k + r).testBit i = if i < k then r.testBit i else a.testBit (i - k) := by
  rw [Nat.mul_comm, Nat.testBit_two_pow_mul_add a h]

theorem div_two_pow_lt {n a : Nat} (k : Nat) (hk : k ≤ n) (ha : a < 2 ^ n) : a / 2 ^ (n - k) < 2 ^ k := by
  rw [Nat.div_lt_iff_lt_mul (Nat.two_pow_pos _), ← Nat.pow_add, Nat.add_sub_of_le hk]
  exact ha

/-- The bits of `b` come in from the right of `a` shifted left by `k`. -/
theorem testBit_left {n k a b i : Nat} (hk : k ≤ n) (hb : b < 2 ^ n) (hi : i < n) :
    ((a * 2 ^ k + b / 2 ^ (n - k)) % 2 ^ n).testBit i = if i < k then b.testBit (n - k + i) else a.testBit (i - k) := by
  rw [Nat.testBit_mod_two_pow, decide_eq_true hi, Bool.true_and, testBit_concat a (div_two_pow_lt k hk hb),
    Nat.testBit_div_two_pow, Nat.add_comm i]

/-- The bits of `b` come in from the left of `a` shifted right by `k`. -/
theorem testBit_right {n k a b i : Nat} (hk : k ≤ n) (ha : a < 2 ^ n) (hi : i < n) :
    ((a / 2 ^ k + b * 2 ^ (n - k)) % 2 ^ n).testBit i = if i + k < n then a.testBit (i + k) else b.testBit (i + k - n) := by
  have lt : a / 2 ^ k < 2 ^ (n - k) := by
    have := div_two_pow_lt (n - k) (Nat.sub_le n k) ha
    rwa [Nat.sub_sub_self hk] at this
  rw [Nat.testBit_mod_two_pow, decide_eq_true hi, Bool.true_and, Nat.add_comm (a / 2 ^ k), testBit_concat b lt,
    Nat.testBit_div_two_pow]
  split <;> split <;> first | rfl | omega | (congr 1; omega)

/-! ### Shifts -/

theorem shlOp_testBit {n i : Nat} (c a : Nat) (hi : i < n) :
    (shlOp n c a).val.testBit i = (decide (c ≤ i) && a.testBit (i - c)) := by
  simp only [shlOp, Nat.testBit_mod_two_pow, decide_eq_true hi, Bool.true_and, Nat.testBit_mul_two_pow]

theorem shrOp_testBit (n c a i : Nat) : (shrOp n c a).val.testBit i = a.testBit (i + c) := Nat.testBit_div_two_pow a i

/-- SAR of a number below the sign bit. -/
theorem sarOp_val_of_pos {n c a : Nat} (ha : a < 2 ^ n) (h : a < 2 ^ (n - 1)) : (sarOp n c a).val = a / 2 ^ c := by
  have lt : a / 2 ^ c < 2 ^ n := lt_of_le_of_lt (Nat.div_le_self ..) ha
  simp only [sarOp, toSigned, if_pos h, ofSigned]
  rw [← Int.natCast_ediv, ← Int.natCast_emod, Int.toNat_natCast, Nat.mod_eq_of_lt lt]

/-- SAR of a number with the sign bit: the shift of its complement, complemented. -/
theorem sarOp_val_of_neg {n c a : Nat} (ha : a < 2 ^ n) (h : ¬ a < 2 ^ (n - 1)) :
    (sarOp n c a).val = 2 ^ n - ((2 ^ n - (a + 1)) / 2 ^ c + 1) := by
  have lt : (2 ^ n - (a + 1)) / 2 ^ c < 2 ^ n :=
    lt_of_le_of_lt (Nat.div_le_self ..) (Nat.sub_lt (Nat.two_pow_pos n) (Nat.succ_pos a))
  have quotient : ((a : Int) - (2 ^ n : Nat)) / (2 ^ c : Nat) = -(((2 ^ n - (a + 1)) / 2 ^ c : Nat) : Int) - 1 := by
    have : (a : Int) - (2 ^ n : Nat) = Int.negSucc (2 ^ n - (a + 1)) := by omega
    rw [this, Int.negSucc_ediv _ (by exact_mod_cast Nat.two_pow_pos c), Int.natCast_ediv]
    exact neg_add' _ _
  simp only [sarOp, toSigned, if_neg h, ofSigned]
  rw [quotient]
  generalize (2 ^ n - (a + 1)) / 2 ^ c = q at lt ⊢
  rw [show (-(q : Int) - 1) = ((2 ^ n - (q + 1) : Nat) : Int) + (2 ^ n : Nat) * (-1) by omega, Int.add_mul_emod_self_left,
    ← Int.natCast_emod, Int.toNat_natCast, Nat.mod_eq_of_lt (Nat.sub_lt (Nat.two_pow_pos n) (Nat.succ_pos q))]

theorem sarOp_testBit {n a i : Nat} (c : Nat) (ha : a < 2 ^ n) (hi : i < n) :
    (sarOp n c a).val.testBit i = a.testBit (min (i + c) (n - 1)) := by
  have top := testBit_top (by omega) ha
  by_cases h : a < 2 ^ (n - 1)
  · rw [sarOp_val_of_pos ha h, Nat.testBit_div_two_pow]
    by_cases le : i + c ≤ n - 1
    · rw [min_eq_left le]
    · have high : a.testBit (i + c) = false :=
        Nat.testBit_lt_two_pow (lt_of_lt_of_le ha (Nat.pow_le_pow_right two_pos (by omega)))
      rw [min_eq_right (by omega), top, high, decide_eq_false (by omega)]
  · have comp (j : Nat) : (2 ^ n - (a + 1)).testBit j = (decide (j < n) && !a.testBit j) := Nat.testBit_two_pow_sub_succ ha j
    have lt : (2 ^ n - (a + 1)) / 2 ^ c < 2 ^ n :=
      lt_of_le_of_lt (Nat.div_le_self ..) (Nat.sub_lt (Nat.two_pow_pos n) (Nat.succ_pos a))
    rw [sarOp_val_of_neg ha h, Nat.testBit_two_pow_sub_succ lt, decide_eq_true hi, Bool.true_and, Nat.testBit_div_two_pow, comp]
    by_cases le : i + c < n
    · rw [min_eq_left (by omega), decide_eq_true le, Bool.true_and, Bool.not_not]
    · rw [min_eq_right (by omega), top, decide_eq_false le, decide_eq_true (by omega)]
      rfl

theorem sarOp_val_lt (n c a : Nat) : (sarOp n c a).val < 2 ^ n := by
  have pos : (0 : Int) < (2 ^ n : Nat) := by exact_mod_cast Nat.two_pow_pos n
  have := Int.emod_lt_of_pos (toSigned n a / (2 ^ c : Nat)) pos
  have := Int.emod_nonneg (toSigned n a / (2 ^ c : Nat)) pos.ne'
  show ((toSigned n a / (2 ^ c : Nat)) % (2 ^ n : Nat)).toNat < 2 ^ n
  omega

/-! ### Rotates -/

theorem rolOp_testBit {n a i : Nat} (c : Nat) (ha : a < 2 ^ n) (hi : i < n) :
    (rolOp n c a).val.testBit i = a.testBit ((i + n - c % n) % n) := by
  have hk : c % n < n := Nat.mod_lt _ (by omega)
  rw [sub_mod_cases hi hk]
  refine (testBit_left hk.le ha hi).trans ?_
  by_cases h : i < c % n
  · rw [if_pos h, if_neg (by omega)]; congr 1; omega
  · rw [if_neg h, if_pos (by omega)]

theorem rorOp_testBit {n a i : Nat} (c : Nat) (ha : a < 2 ^ n) (hi : i < n) :
    (rorOp n c a).val.testBit i = a.testBit ((i + c) % n) := by
  have hk : c % n < n := Nat.mod_lt _ (by omega)
  rw [← Nat.add_mod_mod, add_mod_cases hi hk]
  refine (testBit_right hk.le ha hi).trans ?_
  split <;> rfl

/-! ### Rotates through CF -/

/-- Bit `i` of an N-bit number with CF above it. -/
def wideBit (n a : Nat) (cf : Bool) (i : Nat) : Bool := if i = n then cf else a.testBit i

theorem testBit_carry (cf : Bool) (i : Nat) : (carry cf).testBit i = (decide (i = 0) && cf) := by
  cases cf
  · simp [carry]
  · cases i <;> simp [carry, Nat.testBit_succ]

theorem carry_lt_two (cf : Bool) : carry cf < 2 ^ 1 := by cases cf <;> decide

/-- One place left. -/
theorem wideBit_left {n a i : Nat} (cf : Bool) (hn : 0 < n) (hi : i ≤ n) :
    wideBit n ((a * 2 + carry cf) % 2 ^ n) (a.testBit (n - 1)) i = wideBit n a cf (if i = 0 then n else i - 1) := by
  have one := testBit_concat (k := 1) a (carry_lt_two cf) i
  rw [pow_one] at one
  by_cases top : i = n
  · rw [wideBit, if_pos top, if_neg (by omega), wideBit, if_neg (by omega), top]
  · rw [wideBit, if_neg top, Nat.testBit_mod_two_pow, decide_eq_true (by omega), Bool.true_and, one, testBit_carry]
    by_cases h0 : i = 0
    · simp [h0, wideBit]
    · rw [if_neg (by omega), if_neg h0, wideBit, if_neg (by omega)]

/-- One place right. -/
theorem wideBit_right {n a i : Nat} (cf : Bool) (hn : 0 < n) (ha : a < 2 ^ n) (hi : i ≤ n) :
    wideBit n (a / 2 + carry cf * 2 ^ (n - 1)) (a.testBit 0) i = wideBit n a cf (if i = n then 0 else i + 1) := by
  have lt : a / 2 < 2 ^ (n - 1) := by
    have := div_two_pow_lt (n - 1) (Nat.sub_le n 1) ha
    rwa [Nat.sub_sub_self hn, pow_one] at this
  by_cases top : i = n
  · rw [wideBit, if_pos top, if_pos top, wideBit, if_neg (by omega)]
  · rw [wideBit, if_neg top, if_neg top, Nat.add_comm, testBit_concat _ lt, Nat.testBit_div_two, testBit_carry, wideBit]
    by_cases last : i + 1 = n
    · rw [if_neg (by omega), if_pos last, decide_eq_true (by omega), Bool.true_and]
    · rw [if_pos (by omega), if_neg last]

theorem rclStep_lt {n : Nat} (k : Nat) : ∀ {a : Nat} (cf : Bool), a < 2 ^ n → (rclStep n k (a, cf)).1 < 2 ^ n := by
  induction k with
  | zero => exact fun _ h => h
  | succ k ih => exact fun cf _ => ih _ (Nat.mod_lt _ (Nat.two_pow_pos n))

theorem rcrStep_lt {n : Nat} (hn : 0 < n) (k : Nat) :
    ∀ {a : Nat} (cf : Bool), a < 2 ^ n → (rcrStep n k (a, cf)).1 < 2 ^ n := by
  induction k with
  | zero => exact fun _ h => h
  | succ k ih =>
    intro a cf ha
    refine ih _ ?_
    obtain ⟨H, -, half, whole, -⟩ := exists_half hn
    rw [whole] at ha ⊢
    rw [half]
    cases cf <;> simp only [carry, Bool.false_eq_true, if_true, if_false] <;> omega

theorem wideBit_rclStep {n : Nat} (hn : 0 < n) (k : Nat) : ∀ (a : Nat) (cf : Bool) (i : Nat), k ≤ n → i ≤ n →
    wideBit n (rclStep n k (a, cf)).1 (rclStep n k (a, cf)).2 i = wideBit n a cf (if k ≤ i then i - k else i + (n + 1) - k) := by
  induction k with
  | zero => intro a cf i _ _; simp [rclStep]
  | succ k ih =>
    intro a cf i hk hi
    refine (ih _ _ i (by omega) hi).trans ((wideBit_left cf hn (by split <;> omega)).trans ?_)
    congr 1
    split <;> split <;> split <;> omega

theorem wideBit_rcrStep {n : Nat} (hn : 0 < n) (k : Nat) : ∀ (a : Nat) (cf : Bool) (i : Nat), a < 2 ^ n → k ≤ n → i ≤ n →
    wideBit n (rcrStep n k (a, cf)).1 (rcrStep n k (a, cf)).2 i =
      wideBit n a cf (if i + k < n + 1 then i + k else i + k - (n + 1)) := by
  induction k with
  | zero => intro a cf i _ _ hi; rw [if_pos (by omega)]; rfl
  | succ k ih =>
    intro a cf i ha hk hi
    have lt := rcrStep_lt hn 1 cf ha
    refine (ih _ _ i lt (by omega) hi).trans ((wideBit_right cf hn ha (by split <;> omega)).trans ?_)
    congr 1
    split <;> split <;> split <;> omega

section
variable {n a i : Nat} (c : Nat) (cf : Bool)

theorem wideBit_rclOp (hn : 0 < n) (hi : i ≤ n) :
    wideBit n (rclOp n c a cf).val (rclStep n (c % (n + 1)) (a, cf)).2 i =
      wideBit n a cf ((i + (n + 1) - c % (n + 1)) % (n + 1)) := by
  have hk : c % (n + 1) < n + 1 := Nat.mod_lt _ (Nat.succ_pos n)
  rw [sub_mod_cases (by omega) hk]
  exact wideBit_rclStep hn _ a cf i (by omega) hi

theorem wideBit_rcrOp (hn : 0 < n) (ha : a < 2 ^ n) (hi : i ≤ n) :
    wideBit n (rcrOp n c a cf).val (rcrStep n (c % (n + 1)) (a, cf)).2 i = wideBit n a cf ((i + c) % (n + 1)) := by
  have hk : c % (n + 1) < n + 1 := Nat.mod_lt _ (Nat.succ_pos n)
  rw [← Nat.add_mod_mod, add_mod_cases (by omega) hk]
  exact wideBit_rcrStep hn _ a cf i ha (by omega) hi

theorem rclOp_testBit (hi : i < n) :
    (rclOp n c a cf).val.testBit i = wideBit n a cf ((i + (n + 1) - c % (n + 1)) % (n + 1)) := by
  rw [← wideBit_rclOp c cf (by omega) hi.le, wideBit, if_neg (by omega)]

theorem rcrOp_testBit (ha : a < 2 ^ n) (hi : i < n) :
    (rcrOp n c a cf).val.testBit i = wideBit n a cf ((i + c) % (n + 1)) := by
  rw [← wideBit_rcrOp c cf (by omega) ha hi.le, wideBit, if_neg (by omega)]

theorem rclOp_cf (hn : 0 < n) : (rclOp n c a cf).cf = some (wideBit n a cf (n - c % (n + 1))) := by
  have hk : c % (n + 1) < n + 1 := Nat.mod_lt _ (Nat.succ_pos n)
  have top := wideBit_rclOp (a := a) c cf hn (le_refl n)
  rw [wideBit, if_pos rfl, sub_mod_cases (by omega) hk, if_pos (by omega)] at top
  rw [← top]
  rfl

theorem rcrOp_cf (hn : 0 < n) (ha : a < 2 ^ n) : (rcrOp n c a cf).cf = some (wideBit n a cf ((n + c) % (n + 1))) := by
  rw [← wideBit_rcrOp c cf hn ha (le_refl n), wideBit, if_pos rfl]
  rfl

end

/-! ### OF for a count of 1 -/

theorem ofOne_one (b : Bool) : ofOne 1 b = some b := rfl
theorem ofOne_of_ne {c : Nat} (b : Bool) (h : c ≠ 1) : ofOne c b = none := if_neg h

/-- What the statement says of OF for a count of 1. -/
theorem ovf_one {n a : Nat} (cf : Bool) (hn : 8 ≤ n) (ha : a < 2 ^ n) :
    (rolOp n 1 a).ovf = some (a.testBit (n - 2) != a.testBit (n - 1)) ∧
    (rorOp n 1 a).ovf = some (a.testBit 0 != a.testBit (n - 1)) ∧
    (rclOp n 1 a cf).ovf = some (a.testBit (n - 2) != a.testBit (n - 1)) ∧
    (rcrOp n 1 a cf).ovf = some (a.testBit (n - 1) != cf) ∧
    (shlOp n 1 a).ovf = some (a.testBit (n - 2) != a.testBit (n - 1)) ∧ (shrOp n 1 a).ovf = some (a.testBit (n - 1)) ∧
    (sarOp n 1 a).ovf = some false := by
  have one : 1 % n = 1 := Nat.mod_eq_of_lt (by omega)
  have one' : 1 % (n + 1) = 1 := Nat.mod_eq_of_lt (by omega)
  refine ⟨?_, ?_, ?_, rfl, ?_, rfl, rfl⟩
  · have high := rolOp_testBit (i := n - 1) 1 ha (by omega)
    have low := rolOp_testBit (i := 0) 1 ha (by omega)
    rw [one, sub_mod_cases (i := n - 1) (k := 1) (by omega) (by omega), if_pos (by omega)] at high
    rw [one, sub_mod_cases (i := 0) (k := 1) (by omega) (by omega), if_neg (by omega), Nat.zero_add] at low
    show some ((rolOp n 1 a).val.testBit (n - 1) ^^ (rolOp n 1 a).val.testBit 0) = _
    rw [high, low]
    rfl
  · have high := rorOp_testBit (i := n - 1) 1 ha (by omega)
    have next := rorOp_testBit (i := n - 2) 1 ha (by omega)
    rw [show (n - 1 + 1) % n = 0 by rw [Nat.sub_add_cancel (by omega), Nat.mod_self]] at high
    rw [show (n - 2 + 1) % n = n - 1 by rw [Nat.mod_eq_of_lt (by omega)]; omega] at next
    show some ((rorOp n 1 a).val.testBit (n - 1) ^^ (rorOp n 1 a).val.testBit (n - 2)) = _
    rw [high, next]
  · have high := rclOp_testBit (n := n) (a := a) (i := n - 1) 1 cf (by omega)
    have top : (rclOp n 1 a cf).cf = some (a.testBit (n - 1)) := by
      rw [rclOp_cf 1 cf (by omega), one', wideBit, if_neg (by omega)]
    rw [one', sub_mod_cases (i := n - 1) (k := 1) (by omega) (by omega), if_pos (by omega), wideBit, if_neg (by omega)] at high
    have top' : (rclStep n (1 % (n + 1)) (a, cf)).2 = a.testBit (n - 1) := Option.some.inj top
    show some ((rclOp n 1 a cf).val.testBit (n - 1) ^^ (rclStep n (1 % (n + 1)) (a, cf)).2) = _
    rw [high, top']
    rfl
  · have high := shlOp_testBit (n := n) (i := n - 1) 1 a (by omega)
    rw [decide_eq_true (by omega), Bool.true_and] at high
    show some ((shlOp n 1 a).val.testBit (n - 1) ^^ a.testBit (n - 1)) = _
    rw [high]
    rfl

/-- Settles O12: the bit lemmas of the operations, one by one. -/
theorem shiftResultsMean : Obligations.ShiftResultsMean := by
  intro n c a cf hn hc hc32 ha wide
  have h8 : 8 ≤ n := by omega
  have pos : 0 < n := by omega
  refine ⟨fun i hi => ⟨shlOp_testBit c a hi, shrOp_testBit n c a i, sarOp_testBit c ha hi, rolOp_testBit c ha hi,
    rorOp_testBit c ha hi, rclOp_testBit c cf hi, rcrOp_testBit c cf ha hi⟩, rclOp_cf c cf pos, rcrOp_cf c cf pos ha, ?_,
    congrArg some (rorOp_testBit c ha (by omega)), ?_, ?_, fun h => h ▸ ovf_one cf h8 ha, ?_⟩
  · have low := rolOp_testBit (i := 0) c ha pos
    rw [Nat.zero_add] at low
    exact congrArg some low
  · exact fun h => ⟨if_pos h, if_pos h, congrArg some (if_pos h)⟩
  · exact fun h => ⟨congrArg some (if_neg (by omega)), if_neg (by omega), if_neg (by omega)⟩
  · simp only [List.forall_mem_cons, List.not_mem_nil, false_implies, implies_true, and_true]
    have mod (x : Nat) : x % 2 ^ n < 2 ^ n := Nat.mod_lt _ (Nat.two_pow_pos n)
    exact ⟨⟨mod _, ofOne_of_ne _⟩, ⟨lt_of_le_of_lt (Nat.div_le_self ..) ha, ofOne_of_ne _⟩, ⟨sarOp_val_lt n c a, ofOne_of_ne _⟩,
      ⟨mod _, ofOne_of_ne _⟩, ⟨mod _, ofOne_of_ne _⟩, ⟨rclStep_lt _ cf ha, ofOne_of_ne _⟩, ⟨rcrStep_lt pos _ cf ha, ofOne_of_ne _⟩⟩

/-! ### Double shifts -/

theorem dshiftOut_val_lt (left : Bool) (n c a b : Nat) : (dshiftOut left n c a b).val < 2 ^ n := by
  cases left <;> exact Nat.mod_lt _ (Nat.two_pow_pos n)

/-- Settles O13: `dshiftRun_defined` and `dshiftRun_free` for what is written, `testBit_left` and `testBit_right` for its bits. -/
theorem doubleShift : Obligations.DoubleShift := by
  constructor
  · intro left f s hr i w c b
    have hc : rawDshiftCount s.begin.regs f % 32 = c := rawDshiftCount_mod s.regs f
    have hi : exec i s = runInstr false false (dshiftBody (dshiftRun left) f) s := exec_dshift left f s
    have form := dshiftBody_run (dshiftRun left) f s.begin
    have live (h : c ≠ 0) : liveCount w.bits (rawDshiftCount s.begin.regs f % 32) = true := by rw [hc]; exact bne_iff_ne.2 h
    have dead (h : c = 0) : liveCount w.bits (rawDshiftCount s.begin.regs f % 32) = false := by rw [hc, h]; rfl
    constructor
    · intro r hf x
      rw [hf] at form
      refine ⟨fun h0 => ?_, fun h0 hle => ?_, fun hlt => ?_⟩
      · exact completes_of_reads hi hr (form.trans (groupTwo_dead_reg (dead h0))) (State.Reads.refl _) rfl
      · obtain ⟨fo, fa, k, run⟩ := dshiftRun_defined left (s.regs.read w r) b s.begin hle
        refine ⟨fo, fa, k, ?_⟩
        have body := form.trans ((groupTwo_live (live h0)).trans (modifyRm_reg_run (by rw [hc]; exact run)))
        exact completes_of_reads hi hr body (State.Reads.refl _) rfl
      · obtain ⟨v, k, u, run⟩ := dshiftRun_free left (s.regs.read w r) b s.begin hlt
        refine ⟨v, k, u, ?_⟩
        have body := form.trans ((groupTwo_live (live (by omega))).trans (modifyRm_reg_run (by rw [hc]; exact run)))
        exact completes_of_reads hi hr body (State.Reads.refl _) rfl
    · intro m hf
      rw [hf] at form
      refine ⟨?_, ?_⟩
      · intro a s1 h0 hl
        exact ⟨loadMem_reads hl, completes_of_reads hi hr (form.trans (groupTwo_dead_mem (dead h0) hl)) (loadMem_reads hl) rfl⟩
      · intro ps a s1 s2 h0 hl hrd x
        have reads : s.begin.Reads s2 := modify_reads hl hrd
        have hflags : s2.flags = s.flags := reads.flags
        have hrd' : readBytes s.begin.dec.lock ps s1 = .ok a s2 := by rw [State.begin_dec, hr.lock]; exact hrd
        refine ⟨reads, fun hle => ?_, fun hlt => ?_⟩
        · obtain ⟨fo, fa, k, run⟩ := dshiftRun_defined left a b s2 hle
          rw [hflags] at run
          refine ⟨fo, fa, k, ?_⟩
          have body := form.trans ((groupTwo_live (live h0)).trans (modifyRm_mem_run hl hrd' (by rw [hc]; exact run)))
          exact completes_of_wrote hi hr body reads rfl rfl
        · obtain ⟨v, k, u, run⟩ := dshiftRun_free left a b s2 hlt
          rw [hflags] at run
          refine ⟨v, k, u, ?_⟩
          have body := form.trans ((groupTwo_live (live h0)).trans (modifyRm_mem_run hl hrd' (by rw [hc]; exact run)))
          exact completes_of_wrote hi hr body reads rfl rfl
  · intro n c a b hn hc hle ha hb
    refine ⟨fun left => ⟨dshiftOut_val_lt left n c a b, fun h => if_neg h⟩,
      fun i hi => ⟨testBit_left hle hb hi, testBit_right hle ha hi⟩, rfl, rfl, fun h => ?_⟩
    subst h
    have shld := testBit_left (a := a) (i := n - 1) hle hb (by omega)
    have shrd := testBit_right (b := b) (i := n - 1) hle ha (by omega)
    rw [if_neg (by omega), show n - 1 - 1 = n - 2 by omega] at shld
    rw [if_neg (by omega), show n - 1 + 1 - n = 0 by omega] at shrd
    exact ⟨congrArg (fun x => some (x != a.testBit (n - 1))) shld, congrArg (fun x => some (x != a.testBit (n - 1))) shrd⟩

end Sys2Proof.Machine
end

section
/-! ## Bit tests and bit scans -/
set_option Elab.async false

namespace Sys2Proof.Machine

theorem State.wrote_flags (s : State) (ps : List BytePlace) (v : Nat) : (s.wrote ps v).flags = s.flags := by
  rw [wrote_touches s ps v]

/-! ### BT, BTS, BTR, BTC -/

theorem selectBit_run (f : BitForm) (s : State) :
    selectBit f s = .ok (bitPlace s.osz.width (BitForm.rm f) (bitOffset s.osz.width s.regs f)) s := by
  cases f <;> rfl

theorem bitFlags_run (b : Bool) (s : State) :
    bitFlags b s = .ok () (s.drawn.withFlags (bitTestFlags s.draw b s.flags)) := rfl

/-- BTS, BTR and BTC change the bit they select; BT only reads it. -/
theorem BitOp.exec_instr {op : BitOp} (h : op ≠ .bt) (f : BitForm) (s : State) :
    exec (op.instr f) s = runInstr (BitForm.rm f).isMem false (bitModify op.newBit f) s := by
  cases op
  case bt => exact absurd rfl h
  all_goals rfl

section
variable {f : BitForm} {s : State}

theorem btBody_reg_run {r : RegNum} (h : BitForm.rm f = .reg r) :
    let w := s.osz.width
    let x := s.regs.read w r
    let bit := (bitOffset w s.regs f % w.bits).toNat
    btBody f s = .ok () (s.drawn.withFlags (bitTestFlags s.draw (x.testBit bit) s.flags)) := by
  intro w x bit
  simp only [btBody, M.bind_run, getWidth_run, selectBit_run, h, bitPlace, getReg_run, bitFlags_run]
  rfl

theorem bitModify_reg_run {r : RegNum} (new : Bool → Bool) (h : BitForm.rm f = .reg r) :
    let w := s.osz.width
    let x := s.regs.read w r
    let bit := (bitOffset w s.regs f % w.bits).toNat
    bitModify new f s = .ok () ((s.withReg w r (withBit x bit (new (x.testBit bit)))).drawn.withFlags
      (bitTestFlags s.draw (x.testBit bit) s.flags)) := by
  intro w x bit
  simp only [bitModify, M.bind_run, getWidth_run, selectBit_run, h, bitPlace, getReg_run, setReg_run, bitFlags_run]
  rfl

theorem btBody_mem_run {m : Mem} {x : Nat} {s1 : State} (h : BitForm.rm f = .mem m)
    (hl : load (s.memSeg m) (s.bitOff m (bitOffset s.osz.width s.regs f / s.osz.width.bits * s.osz.width.bytes))
      s.osz.width.bytes s.osz.width.bytes s = .ok x s1) :
    btBody f s = .ok () (s1.drawn.withFlags (bitTestFlags s1.draw
      (x.testBit (bitOffset s.osz.width s.regs f % s.osz.width.bits).toNat) s1.flags)) := by
  simp only [btBody, M.bind_run, getWidth_run, selectBit_run, h, bitPlace, M.get_run, hl, bitFlags_run]

theorem bitModify_mem_run {m : Mem} {ps : List BytePlace} {x : Nat} {s1 s2 : State} (new : Bool → Bool)
    (h : BitForm.rm f = .mem m)
    (hl : locate (s.memSeg m) (s.bitOff m (bitOffset s.osz.width s.regs f / s.osz.width.bits * s.osz.width.bytes))
      s.osz.width.bytes s.osz.width.bytes true s = .ok ps s1)
    (hr : readBytes s.dec.lock ps s1 = .ok x s2) :
    let bit := (bitOffset s.osz.width s.regs f % s.osz.width.bits).toNat
    let t := s2.wrote ps (withBit x bit (new (x.testBit bit)))
    bitModify new f s = .ok () (t.drawn.withFlags (bitTestFlags t.draw (x.testBit bit) t.flags)) := by
  intro bit t
  have hd : s1.dec.lock = s.dec.lock := by rw [(locate_reads hl).dec]
  simp only [bitModify, M.bind_run, getWidth_run, selectBit_run, h, bitPlace, M.get_run, hl, readLocked_run, hd, hr,
    writeBytes_run, bitFlags_run]
  rfl

end

/-! ### BSF and BSR -/

theorem scanBody_run {index : Nat → Nat → Nat} {r : RegNum} {m : Rm} {x : Nat} {s s1 : State}
    (h : readRm s.osz.width m s = .ok x s1) :
    scanBody index r m s = .ok () ((s1.withReg s.osz.width r
      (if x = 0 then s1.draw.toNat / 2 ^ 64 % 2 ^ s.osz.width.bits else index s.osz.width.bits x)).drawn.withFlags
        { freeStatus s1.draw s1.flags with zf := x == 0 }) := by
  simp only [scanBody, M.bind_run, getWidth_run, h, fresh_run]
  by_cases h0 : x = 0 <;> simp only [h0, if_true, if_false] <;> rfl

theorem lowestBit_spec (x : Nat) (k : Nat) : ∀ i : Nat, (∃ j, i ≤ j ∧ j < i + k ∧ x.testBit j = true) →
    lowestBit x k i < i + k ∧ x.testBit (lowestBit x k i) = true ∧ ∀ j, i ≤ j → j < lowestBit x k i → x.testBit j = false := by
  induction k with
  | zero => rintro i ⟨j, h1, h2, -⟩; omega
  | succ k ih =>
    rintro i ⟨j, hij, hjk, hj⟩
    by_cases hi : x.testBit i = true
    · rw [lowestBit, if_pos hi]
      exact ⟨by omega, hi, fun j h1 h2 => by omega⟩
    · have ne : i ≠ j := fun h => hi (h ▸ hj)
      obtain ⟨lt, bit, low⟩ := ih (i + 1) ⟨j, by omega, by omega, hj⟩
      rw [lowestBit, if_neg hi]
      refine ⟨by omega, bit, fun l h1 h2 => ?_⟩
      by_cases hl : l = i
      · rw [hl]; exact Bool.eq_false_iff.2 hi
      · exact low l (by omega) h2

theorem highestBit_spec (x : Nat) (k : Nat) : (∃ j, j < k ∧ x.testBit j = true) →
    highestBit x k < k ∧ x.testBit (highestBit x k) = true ∧ ∀ j, highestBit x k < j → j < k → x.testBit j = false := by
  induction k with
  | zero => rintro ⟨j, h, -⟩; omega
  | succ k ih =>
    rintro ⟨j, hjk, hj⟩
    by_cases hk : x.testBit k = true
    · rw [highestBit, if_pos hk]
      exact ⟨by omega, hk, fun j h1 h2 => by omega⟩
    · have ne : k ≠ j := fun h => hk (h ▸ hj)
      obtain ⟨lt, bit, high⟩ := ih ⟨j, by omega, hj⟩
      rw [highestBit, if_neg hk]
      refine ⟨by omega, bit, fun l h1 h2 => ?_⟩
      by_cases hl : l = k
      · rw [hl]; exact Bool.eq_false_iff.2 hk
      · exact high l h1 (by omega)

/-- An N-bit number that is not 0 has a bit below N. -/
theorem exists_testBit_lt {n x : Nat} (h0 : x ≠ 0) (hx : x < 2 ^ n) : ∃ j, j < n ∧ x.testBit j = true := by
  obtain ⟨j, hj⟩ := Nat.exists_testBit_of_ne_zero h0
  refine ⟨j, lt_of_not_ge fun h => ?_, hj⟩
  rw [Nat.testBit_lt_two_pow (lt_of_lt_of_le hx (Nat.pow_le_pow_right two_pos h))] at hj
  cases hj

/-- Settles O14: the equations of the bodies; the scans by `lowestBit_spec` and `highestBit_spec`. -/
theorem bitTestsAndScans : Obligations.BitTestsAndScans := by
  refine ⟨?_, ?_, ?_⟩
  · intro op f r s hr hf w x bit
    by_cases h : op = .bt
    · subst h
      exact completes_of_reads (l := false) rfl hr (btBody_reg_run (s := s.begin) hf) (State.Reads.refl _) rfl
    · rw [if_neg h]
      have exec := BitOp.exec_instr h f s
      rw [hf] at exec
      exact completes_of_reads exec hr (bitModify_reg_run (s := s.begin) op.newBit hf) (State.Reads.refl _) rfl
  · intro op f m s hf w off bit addr
    refine ⟨?_, ?_⟩
    · intro x s1 hr hop hl
      subst hop
      have reads : s.begin.Reads s1 := load_reads hl
      have body := btBody_mem_run (s := s.begin) hf hl
      rw [show s1.flags = s.flags from reads.flags] at body
      exact ⟨reads, completes_of_reads (l := false) rfl hr body reads rfl⟩
    · intro ps x s1 s2 hr hop hl hrd t
      have reads : s.begin.Reads s2 := (locate_reads hl).trans (readBytes_reads hrd)
      have body := bitModify_mem_run (s := s.begin) op.newBit hf hl hrd
      have hflags : t.flags = s.flags := (State.wrote_flags s2 ps _).trans reads.flags
      have exec := BitOp.exec_instr hop f s
      rw [hf] at exec
      refine ⟨reads, ?_⟩
      rw [← hflags]
      exact completes_of_ok exec hr body rfl (keeps_of_wrote reads rfl rfl rfl)
  · intro r m x s s1 hr w hx lt done
    have reads : s.begin.Reads s1 := readRm_reads hx
    have hflags : s1.flags = s.flags := reads.flags
    have bsf := scanBody_run (index := fun n x => lowestBit x n 0) (r := r) (s := s.begin) hx
    have bsr := scanBody_run (index := fun n x => highestBit x n) (r := r) (s := s.begin) hx
    rw [hflags] at bsf bsr
    refine ⟨reads, fun h0 => ?_, fun h0 => ?_⟩
    · rw [if_pos h0] at bsf bsr
      exact ⟨_, completes_of_reads (l := false) rfl hr bsf reads rfl, completes_of_reads (l := false) rfl hr bsr reads rfl⟩
    · rw [if_neg h0] at bsf bsr
      obtain ⟨j, hj, set⟩ := exists_testBit_lt h0 lt
      obtain ⟨lowLt, low, below⟩ := lowestBit_spec x w.bits 0 ⟨j, by omega, by omega, set⟩
      obtain ⟨highLt, high, above⟩ := highestBit_spec x w.bits ⟨j, hj, set⟩
      refine ⟨⟨_, by omega, low, fun l hl => below l (Nat.zero_le l) hl,
        completes_of_reads (l := false) rfl hr bsf reads rfl⟩, _, highLt, high, fun l hl => ?_,
        completes_of_reads (l := false) rfl hr bsr reads rfl⟩
      by_cases in_range : l < w.bits
      · exact above l hl in_range
      · exact Nat.testBit_lt_two_pow (lt_of_lt_of_le lt (Nat.pow_le_pow_right two_pos (by omega)))

end Sys2Proof.Machine
end

section
/-! ## MOV, MOVZX, MOVSX, LEA, XLAT, BSWAP, SETcc and the effective address -/
set_option Elab.async false

namespace Sys2Proof.Machine

/-! ### Operands written and not read -/

theorem writeRm_mem_run {w : Width} {m : Mem} {v : Nat} {ps : List BytePlace} {s s1 : State}
    (h : locateMem m w.bytes w.bytes true s = .ok ps s1) : writeRm w (.mem m) v s = .ok () (s1.wrote ps v) :=
  storeMem_run h

theorem loadMoffs_run {w : Width} {off : DWord} {x : Nat} {s s1 : State}
    (h : load s.dataSeg off.toNat w.bytes w.bytes s = .ok x s1) : loadMoffs w off s = .ok () (s1.withReg w regEAX x) := by
  simp only [loadMoffs, M.bind_run, M.get_run, h, setReg_run]

theorem storeMoffs_run {w : Width} {off : DWord} {ps : List BytePlace} {s s1 : State}
    (h : locate s.dataSeg off.toNat w.bytes w.bytes true s = .ok ps s1) :
    storeMoffs w off s = .ok () (s1.wrote ps (s.regs.read w regEAX)) := by
  simp only [storeMoffs, M.bind_run, M.get_run, getReg_run, store_run h]

/-! ### MOV -/

/-- MOV to an r/m operand from a register. -/
theorem exec_mov_fromReg (byte : Bool) (r : RegNum) (m : Rm) (s : State) :
    exec (.mov (if byte then .ebGb r m else .evGv r m)) s = runInstr false false (do
      let v ← getWidth
      let x ← getReg (pickWidth byte v) r
      writeRm (pickWidth byte v) m x) s := by
  cases byte <;> rfl

/-- MOV to an r/m operand from an immediate. -/
theorem exec_mov_fromImm (byte : Bool) (imm : DWord) (m : Rm) (s : State) :
    exec (.mov (if byte then .ebIb m (imm.setWidth 8) else .evIv m imm)) s = runInstr false false (do
      let v ← getWidth
      writeRm (pickWidth byte v) m (imm.toNat % 2 ^ (pickWidth byte v).bits)) s := by
  cases byte
  · rfl
  · show runInstr false false (writeRm .w8 m (imm.setWidth 8).toNat) s = _
    rw [BitVec.toNat_setWidth]
    rfl

theorem exec_mov_moffs (byte : Bool) (off : DWord) (s : State) :
    exec (.mov (if byte then .obAl off else .ovEax off)) s = runInstr false false (do
      let v ← getWidth
      storeMoffs (pickWidth byte v) off) s := by
  cases byte <;> rfl

/-- An instruction that reads `x` and then puts `v` in a register. -/
theorem completes_of_setReg {i : Instr} {l : Bool} {body : M Unit} {w : Width} {r : RegNum} {v : Nat} {s s1 : State}
    (hi : exec i s = runInstr l false body s) (hr : s.Ready l) (reads : s.begin.Reads s1)
    (hb : body s.begin = .ok () (s1.withReg w r v)) : Completes i s ((s1.withReg w r v).complete false) [] :=
  completes_of_reads hi hr hb reads rfl

theorem movToReg_run {w : Width} {r : RegNum} {rd : M Nat} {x : Nat} {s s1 : State} (h : rd s = .ok x s1) :
    (do let x ← rd; setReg w r x : M Unit) s = .ok () (s1.withReg w r x) := by
  simp only [M.bind_run, h, setReg_run]

/-- Settles O15: every form is a read, then a register or memory written. -/
theorem moveData : Obligations.MoveData := by
  constructor
  · intro r n m x off s s1 hr v
    have refl := State.Reads.refl s.begin
    refine ⟨fun h => ⟨readRm_reads h, ?_⟩, fun h => ⟨readRm_reads h, ?_⟩, ?_, ?_, fun imm => ⟨?_, ?_⟩, fun imm => ⟨?_, ?_⟩,
      fun h => ⟨load_reads h, ?_⟩, fun h => ⟨load_reads h, ?_⟩⟩
    · exact completes_of_setReg (l := false) rfl hr (readRm_reads h) (movToReg_run h)
    · exact completes_of_setReg (l := false) rfl hr (readRm_reads h) (movToReg_run h)
    · exact completes_of_setReg (l := false) rfl hr refl rfl
    · exact completes_of_setReg (l := false) rfl hr refl rfl
    · exact completes_of_setReg (l := false) rfl hr refl rfl
    · exact completes_of_setReg (l := false) rfl hr refl rfl
    · exact completes_of_setReg (l := false) rfl hr refl rfl
    · exact completes_of_setReg (l := false) rfl hr refl rfl
    · exact completes_of_setReg (l := false) rfl hr (load_reads h) (loadMoffs_run (w := .w8) (s := s.begin) h)
    · exact completes_of_setReg (l := false) rfl hr (load_reads h) (loadMoffs_run (w := v) (s := s.begin) h)
  · intro byte r m off imm ps s s1 hr w
    refine ⟨fun h => ⟨locateMem_reads h, ?_, ?_⟩, fun h => ⟨locate_reads h, ?_⟩⟩
    · have body := writeRm_mem_run (v := s.regs.read w r) h
      exact completes_of_wrote (exec_mov_fromReg byte r (.mem m) s) hr body (locateMem_reads h) rfl rfl
    · have body := writeRm_mem_run (v := imm.toNat % 2 ^ w.bits) h
      exact completes_of_wrote (exec_mov_fromImm byte imm (.mem m) s) hr body (locateMem_reads h) rfl rfl
    · have body := storeMoffs_run (w := w) (s := s.begin) h
      exact completes_of_wrote (exec_mov_moffs byte off s) hr body (locate_reads h) rfl rfl

/-! ### The effective address -/

/-- A displacement as a signed number. -/
def dispInt : Disp → Int
  | .none => 0
  | .d8 v => v.toInt
  | .d16 v => v.toNat
  | .d32 v => v.toNat

/-- The displacement used differs from the signed one by a multiple of 2^32. -/
theorem dispValue_eq (d : Disp) : ∃ q : Int, (dispValue d : Int) = dispInt d + 2 ^ 32 * q := by
  cases d with
  | none => exact ⟨0, rfl⟩
  | d16 v => exact ⟨0, by simp [dispValue, dispInt]⟩
  | d32 v => exact ⟨0, by simp [dispValue, dispInt]⟩
  | d8 v =>
    have signed : (v.signExtend 32).toInt = v.toInt := BitVec.toInt_signExtend_of_le (by decide)
    have bits := BitVec.toInt_eq_toNat_cond (v.signExtend 32)
    rw [signed] at bits
    split at bits
    · exact ⟨0, by simp only [dispValue, dispInt]; omega⟩
    · exact ⟨1, by simp only [dispValue, dispInt]; omega⟩

/-- The low 16 bits of a register as a signed statement writes them. -/
theorem read_w16_cast (r : Regs) (k : RegNum) : (r.read .w16 k : Int) = ((r.get k).toNat : Int) % 2 ^ 16 := rfl

theorem scaledIndex_cast (r : Regs) (ss : BitVec 2) (k : RegNum) :
    (scaledIndex r ss k : Int) = if k = 4 then 0 else ((r.get k).toNat : Int) * 2 ^ ss.toNat := by
  unfold scaledIndex
  split
  · rfl
  · push_cast
    rfl

/-- An effective address of base `b` and a displacement, cut to `k` bits. -/
theorem add_disp_mod {n k : Nat} {b : Int} (hb : (n : Int) = b) (d : Disp) (hk : k = 16 ∨ k = 32) :
    (((n + dispValue d) % 2 ^ k : Nat) : Int) = (b + dispInt d) % 2 ^ k := by
  obtain ⟨q, hq⟩ := dispValue_eq d
  push_cast
  rw [hq, hb, ← add_assoc]
  rcases hk with rfl | rfl <;> omega

theorem base16_cast (r : Regs) (rm : RegNum) (b : RegNum → Int) (hb : ∀ k, b k = ((r.get k).toNat : Int) % 2 ^ 16) :
    (base16 r rm : Int) = match rm.toNat with
      | 0 => b regEBX + b regESI | 1 => b regEBX + b regEDI | 2 => b regEBP + b regESI | 3 => b regEBP + b regEDI
      | 4 => b regESI | 5 => b regEDI | 6 => b regEBP | _ => b regEBX := by
  unfold base16
  simp only [hb]
  generalize rm.toNat = j
  match j with
  | 0 | 1 | 2 | 3 => exact Nat.cast_add ..
  | 4 | 5 | 6 | _ + 7 => rfl

theorem defaultSeg_a16 (rm : RegNum) (d : Disp) :
    defaultSeg (.a16 rm d) = if rm.toNat ∈ [2, 3, 6] then .ss else .ds := by
  have table : ∀ k : RegNum, (if k = 2 ∨ k = 3 ∨ k = 6 then SegName.ss else .ds) =
      if k.toNat ∈ [2, 3, 6] then .ss else .ds := by decide
  exact table rm

theorem memSeg_eq (s : State) (m : Mem) :
    s.memSeg m = match s.dec.seg with | some g => g | none => defaultSeg m := by
  unfold State.memSeg
  cases s.dec.seg <;> rfl

/-! ### MOVZX, MOVSX, LEA, XLAT, BSWAP -/

theorem xlatBody_run {x : Nat} {s s1 : State}
    (h : load s.dataSeg ((s.regs.read s.asz.width regEBX + s.regs.read .w8 regEAX) % 2 ^ s.asz.bits) 1 1 s = .ok x s1) :
    xlatBody s = .ok () (s1.withReg .w8 regEAX x) := by
  simp only [xlatBody, M.bind_run, M.get_run, h, setReg_run]

theorem bswapBody_run_s32 {s : State} (r : RegNum) (h : s.osz = .s32) :
    bswapBody r s = .ok () (s.withReg .w32 r (byteSwap (s.regs.get r)).toNat) := by
  simp only [bswapBody, M.bind_run, M.get_run, h, setReg_run]

theorem bswapBody_run_s16 {s : State} (r : RegNum) (h : s.osz = .s16) :
    bswapBody r s = .ok () (s.drawn.withReg .w16 r (s.draw.toNat % 2 ^ 16)) := by
  simp only [bswapBody, M.bind_run, M.get_run, h, fresh_run, setReg_run]

theorem movx_run {w w' : Width} {r : RegNum} {m : Rm} {g : Nat → Nat} {x : Nat} {s s1 : State} (h : readRm w m s = .ok x s1) :
    (do let x ← readRm w m; setReg w' r (g x) : M Unit) s = .ok () (s1.withReg w' r (g x)) := by
  simp only [M.bind_run, h, setReg_run]

/-- Settles O16: the destination register alone is written; the address forms one by one. -/
theorem extendAndAddress : Obligations.ExtendAndAddress := by
  constructor
  · intro r m a x s s1 hr v
    refine ⟨fun h => ⟨readRm_reads h, ?_, ?_⟩, fun h => ⟨readRm_reads h, ?_, ?_⟩, ?_, fun h => ⟨load_reads h, ?_⟩,
      fun h => ?_, fun h => ?_⟩
    · exact completes_of_setReg (l := false) rfl hr (readRm_reads h) (movx_run (g := fun x => x) h)
    · exact completes_of_setReg (l := false) rfl hr (readRm_reads h) (movx_run (g := sext 8 v.bits) h)
    · exact completes_of_setReg (l := false) rfl hr (readRm_reads h) (movx_run (g := fun x => x) h)
    · exact completes_of_setReg (l := false) rfl hr (readRm_reads h) (movx_run (g := sext 16 v.bits) h)
    · exact completes_of_setReg (l := false) rfl hr (State.Reads.refl _) rfl
    · exact completes_of_setReg (l := false) rfl hr (load_reads h) (xlatBody_run (s := s.begin) h)
    · exact completes_of_setReg (l := false) rfl hr (State.Reads.refl _) (bswapBody_run_s32 (s := s.begin) r h)
    · exact ⟨_, completes_of_ok (l := false) rfl hr (bswapBody_run_s16 (s := s.begin) r h) rfl (keeps_of_mem rfl)⟩
  · intro s r b scaled disp base16' off seg
    have hdisp (d : Disp) : disp d = dispInt d := by cases d <;> rfl
    have hseg (m : Mem) (g : SegName) (h : defaultSeg m = g) : seg m g := h ▸ memSeg_eq s m
    refine ⟨fun rm d => ⟨?_, hseg _ _ ?_⟩, fun rm d => ⟨?_, hseg _ _ rfl⟩, fun ss k n d => ⟨?_, hseg _ _ rfl⟩,
      fun ss k v => ⟨?_, hseg _ _ rfl⟩, fun v => ⟨rfl, hseg _ _ rfl⟩, fun v => ⟨rfl, hseg _ _ rfl⟩⟩
    · rw [hdisp]
      exact add_disp_mod (base16_cast s.regs rm b fun _ => rfl) d (Or.inl rfl)
    · exact defaultSeg_a16 rm d
    · rw [hdisp]
      exact add_disp_mod rfl d (Or.inr rfl)
    · rw [hdisp]
      refine add_disp_mod ?_ d (Or.inr rfl)
      rw [Nat.cast_add, scaledIndex_cast]
      rfl
    · show (((scaledIndex s.regs ss k + v.toNat) % 2 ^ 32 : Nat) : Int) = _
      rw [Int.natCast_emod, Nat.cast_add, scaledIndex_cast]
      rfl

/-! ### SETcc -/

theorem exec_setcc (c : Cond) (k : RegNum) (m : Rm) (s : State) :
    exec (setccInstr c k m) s = runInstr false false (setccBody c m) s := by
  cases c <;> rfl

/-- Settles O18: SETcc writes its byte; the conditions in pairs of opposites. -/
theorem setByCondition : Obligations.SetByCondition := by
  constructor
  · intro c k s hr x
    refine ⟨fun r => ?_, fun m ps s1 h => ⟨locateMem_reads h, ?_⟩⟩
    · exact completes_of_setReg (exec_setcc c k (.reg r) s) hr (State.Reads.refl _) rfl
    · have body : setccBody c (.mem m) s.begin = .ok () (s1.wrote ps x) := writeRm_mem_run (w := .w8) h
      exact completes_of_wrote (exec_setcc c k (.mem m) s) hr body (locateMem_reads h) rfl rfl
  · intro f
    simp only [Cond.holds, List.forall_mem_cons, List.not_mem_nil, false_implies, implies_true, and_true,
      Bool.or_eq_true, bne_iff_ne, ne_eq, Bool.not_eq_true', Bool.and_eq_true, Bool.or_eq_false_iff, bne_eq_false_iff_eq,
      beq_iff_eq]

end Sys2Proof.Machine
end

section
/-! ## Segment registers: loads and moves -/
set_option Elab.async false

namespace Sys2Proof.Machine

/-! ### Descriptors found -/

section
variable {sel : Word} {bad : M (Nat × Desc)} {s s1 : State} {a : Nat} {d : Desc}

theorem needDesc_some (ha : s.descAddr sel = some a) (hd : readDesc a s = .ok d s1) :
    needDesc sel bad s = .ok (a, d) s1 := by
  simp only [needDesc, findDesc, M.bind_run, M.get_run, ha, hd, M.pure_run]

theorem needDesc_none (ha : s.descAddr sel = none) : needDesc sel bad s = bad s := by
  simp only [needDesc, findDesc, M.bind_run, M.get_run, ha, M.pure_run]

end

/-! ### Loads of data segments -/

section
variable {n : SegName} {sel : Word} {s s1 : State} {a : Nat} {d : Desc}

theorem loadSeg_real (n : SegName) (sel : Word) (h : s.pe = false) :
    loadSeg n sel s = .ok () (s.withSeg n ((s.segs.get n).realLoad sel)) := by
  simp [loadSeg, h]

theorem loadSeg_data (h : s.pe = true) (hn : n ≠ .ss) : loadSeg n sel s = loadDataSeg n sel s := by
  cases n
  case ss => exact absurd rfl hn
  all_goals simp [loadSeg, h]

theorem loadDataSeg_null (h : isNull sel = true) :
    loadDataSeg n sel s = .ok () (s.withSeg n { sel := sel, hid := { (s.segs.get n).hid with valid := false } }) := by
  simp [loadDataSeg, h]

theorem loadDataSeg_beyond (h : isNull sel = false) (ha : s.descAddr sel = none) :
    loadDataSeg n sel s = raiseGP (selCode sel) s := by
  simp [loadDataSeg, h, needDesc_none ha]

theorem loadDataSeg_run (h : isNull sel = false) (ha : s.descAddr sel = some a) (hd : readDesc a s = .ok d s1) :
    loadDataSeg n sel s =
      if d.hidden.readable = false ∨ (d.hidden.conforming = false ∧ (d.dpl < s.cpl ∨ d.dpl < selRPL sel)) then
        raiseGP (selCode sel) s1
      else if d.present = false then raiseNP (selCode sel) s1
      else (do let h ← accessed a d; setSeg n { sel := sel, hid := h } : M Unit) s1 := by
  simp only [loadDataSeg, M.bind_run, M.get_run, h, Bool.false_eq_true, if_false, needDesc_some ha hd]
  by_cases hr : d.hidden.readable = true
  · by_cases hc : d.hidden.conforming = false ∧ (d.dpl < s.cpl ∨ d.dpl < selRPL sel)
    · simp [hr, hc]
    · have hc' : ¬ (!d.hidden.conforming && (decide (d.dpl < s.cpl) || decide (d.dpl < selRPL sel))) = true := by
        simpa using hc
      by_cases hp : d.present = true <;> simp [hr, hc, hp]
  · simp [hr]

/-! ### Loads of SS -/

theorem loadSeg_ss (h : s.pe = true) : loadSeg .ss sel s = (do
    let (h, sp) ← checkSS sel s.cpl (raiseGP 0) (raiseGP (selCode sel))
    setMark sp 1
    setSeg .ss { sel := sel, hid := h } : M Unit) s := by
  simp [loadSeg, h]

theorem checkSS_null {cpl : BitVec 2} {null : M (Hidden × Spot)} {bad : M (Nat × Desc)} (h : isNull sel = true) :
    checkSS sel cpl null bad s = null s := by
  simp [checkSS, h]

theorem checkSS_beyond {cpl : BitVec 2} {null : M (Hidden × Spot)} {code : Word} (h : isNull sel = false)
    (ha : s.descAddr sel = none) : checkSS sel cpl null (raiseGP code) s = raiseGP code s := by
  simp [checkSS, h, needDesc_none ha]

theorem checkSS_run {cpl : BitVec 2} {null : M (Hidden × Spot)} {code : Word} (h : isNull sel = false)
    (ha : s.descAddr sel = some a) (hd : readDesc a s = .ok d s1) :
    checkSS sel cpl null (raiseGP code) s =
      if selRPL sel ≠ cpl ∨ d.dpl ≠ cpl ∨ d.hidden.writable = false then raiseGP code s1
      else if d.present = false then raiseSS (selCode sel) s1
      else (do let sp ← markSpot a d; pure (d.marked, sp) : M (Hidden × Spot)) s1 := by
  simp only [checkSS, M.bind_run, h, Bool.false_eq_true, if_false, needDesc_some ha hd]
  by_cases hc : selRPL sel ≠ cpl ∨ d.dpl ≠ cpl ∨ d.hidden.writable = false
  · have hc' : (selRPL sel != cpl || d.dpl != cpl || !d.hidden.writable) = true := by
      simpa [or_assoc] using hc
    simp [hc, hc']
  · have hc' : ¬ (selRPL sel != cpl || d.dpl != cpl || !d.hidden.writable) = true := by
      simpa [or_assoc] using hc
    by_cases hp : d.present = true <;> simp [hc, hc', hp]

/-- A descriptor whose Accessed bit is set is the first read, marked. -/
theorem accessed_ok {h : Hidden} {s2 : State} (hx : accessed a d s1 = .ok h s2) :
    ∃ (sp : Spot) (u : State), markSpot a d s1 = .ok sp u ∧ setMark sp 1 u = .ok () s2 ∧ h = d.marked := by
  obtain ⟨sp, u, h1, h2⟩ := M.bind_ok.1 hx
  obtain ⟨⟨⟩, w, h3, h4⟩ := M.bind_ok.1 h2
  cases h4
  exact ⟨sp, u, h1, h3, rfl⟩

end

/-- Settles O19: the cases of `loadDataSeg_run` and `checkSS_run`. -/
theorem segmentLoad : Obligations.SegmentLoad := by
  constructor
  · exact fun n sel s h => loadSeg_real n sel h
  · intro n sel s pe
    refine ⟨fun null => ⟨fun hn => ?_, fun hn => ?_⟩, fun null => ⟨fun ha => ?_, fun a d h s1 s2 ha hd => ⟨?_, ?_, ?_, ?_⟩⟩⟩
    · rw [loadSeg_data pe hn, loadDataSeg_null null]
    · rw [hn, loadSeg_ss pe, M.bind_run, checkSS_null null]
      rfl
    · by_cases hn : n = .ss
      · rw [hn, loadSeg_ss pe, M.bind_run, checkSS_beyond null ha]
        rfl
      · rw [loadSeg_data pe hn, loadDataSeg_beyond null ha]
        rfl
    · intro hn hr hc
      have pass : ¬ (d.hidden.readable = false ∨ (d.hidden.conforming = false ∧ (d.dpl < s.cpl ∨ d.dpl < selRPL sel))) := by
        rintro (bad | ⟨bad, priv⟩)
        · rw [hr] at bad; cases bad
        · rcases hc with conf | ⟨h1, h2⟩
          · rw [conf] at bad; cases bad
          · exact priv.elim (BitVec.not_lt.2 h1) (BitVec.not_lt.2 h2)
      have run := loadDataSeg_run (n := n) null ha hd
      rw [if_neg pass] at run
      rw [loadSeg_data pe hn, run]
      refine ⟨fun present acc => ?_, fun absent => ?_⟩
      · rw [if_neg (by rw [present]; exact Bool.noConfusion), M.bind_run, acc]
        rfl
      · rw [if_pos absent]
        rfl
    · intro hn rpl dpl hw
      have pass : ¬ (selRPL sel ≠ s.cpl ∨ d.dpl ≠ s.cpl ∨ d.hidden.writable = false) := by
        rw [hw]
        exact fun bad => bad.elim (fun h => h rpl) (fun bad => bad.elim (fun h => h dpl) Bool.noConfusion)
      have run := checkSS_run (cpl := s.cpl) (null := raiseGP 0) (code := selCode sel) null ha hd
      rw [if_neg pass] at run
      rw [hn, loadSeg_ss pe, M.bind_run, run]
      refine ⟨fun present acc => ?_, fun absent => ?_⟩
      · obtain ⟨sp, u, mark, set, rfl⟩ := accessed_ok acc
        rw [if_neg (by rw [present]; exact Bool.noConfusion), M.bind_run, mark]
        simp only [M.pure_run, M.bind_run, set]
        rfl
      · rw [if_pos absent]
        rfl
    · intro hn bad
      rw [loadSeg_data pe hn]
      exact (loadDataSeg_run null ha hd).trans (if_pos bad)
    · intro hn bad
      have run := (checkSS_run (cpl := s.cpl) (null := raiseGP 0) (code := selCode sel) null ha hd).trans (if_pos bad)
      rw [hn, loadSeg_ss pe, M.bind_run, run]
      rfl

/-! ### MOV of segment registers -/

theorem freeHigh_run (z : Size) (v : Word) (s : State) :
    ∃ (u : Word) (c : Nat), freeHigh z v s = .ok (withUpper z u v) { s with freeCtr := c } := by
  cases z with
  | s16 => exact ⟨0, s.freeCtr, rfl⟩
  | s32 => exact ⟨s.draw.setWidth 16, s.drawn.freeCtr, rfl⟩

/-- A register write cuts its value to 32 bits. -/
theorem Regs.write_mod (r : Regs) (w : Width) (n : RegNum) (v : Nat) : r.write w n (v % 2 ^ 32) = r.write w n v := by
  have cut {k : Nat} (hk : k ≤ 32) : BitVec.ofNat k (v % 2 ^ 32) = BitVec.ofNat k v := by
    apply BitVec.eq_of_toNat_eq
    rw [BitVec.toNat_ofNat, BitVec.toNat_ofNat, Nat.mod_mod_of_dvd _ (Nat.pow_dvd_pow 2 hk)]
  cases w <;> simp only [Regs.write, cut (show 8 ≤ 32 by decide), cut (show 16 ≤ 32 by decide), cut (le_refl 32)]

theorem writeSystemWord_reg_run (k : RegNum) (v : Word) (s : State) :
    ∃ (u : Word) (c : Nat), writeSystemWord (.reg k) v s =
      .ok () ({ s with freeCtr := c }.withReg s.osz.width k (withUpper s.osz u v)) := by
  obtain ⟨u, c, run⟩ := freeHigh_run s.osz v s
  refine ⟨u, c, ?_⟩
  simp only [writeSystemWord, M.bind_run, M.get_run, run, setReg_run]

theorem writeSystemWord_mem_run {m : Mem} {v : Word} {ps : List BytePlace} {s s1 : State}
    (h : locateMem m 2 2 true s = .ok ps s1) : writeSystemWord (.mem m) v s = .ok () (s1.wrote ps v.toNat) := by
  simp only [writeSystemWord, M.bind_run, M.get_run]
  exact writeRm_mem_run (w := .w16) h

theorem movFromSeg_run {r : RegNum} {n : SegName} {m : Rm} {s : State} (h : segOfNum r = some n) :
    movFromSeg r m s = writeSystemWord m (s.segs.get n).sel s := by
  simp only [movFromSeg, M.bind_run, M.get_run, h]

theorem movToSeg_run {r : RegNum} {n : SegName} {m : Rm} {x : Nat} {s s1 s2 : State} (h : segOfNum r = some n) (hn : n ≠ .cs)
    (hx : readRm .w16 m s = .ok x s1) (hl : loadSeg n (BitVec.ofNat 16 x) s1 = .ok () s2) :
    movToSeg r m s = .ok () (s2.shadowed n) := by
  cases n
  case cs => exact absurd rfl hn
  all_goals
    simp only [movToSeg, h, M.bind_run, hx, hl]
    rfl

theorem movToSeg_undefined {r : RegNum} (h : segOfNum r = none ∨ r = 1) (m : Rm) (s : State) : movToSeg r m s = raiseUD s := by
  rcases h with h | rfl
  · simp only [movToSeg, h]
  · rfl

/-! ### Far pointers -/

theorem loadFar_run {m : Mem} {off : Nat} {sel : Word} {s s1 : State} (h : s.ReadsFar m off sel s1) :
    loadFar m s.osz s = .ok (BitVec.ofNat 32 off, sel) s1 := by
  obtain ⟨x, u, h1, h2, rfl⟩ := h
  simp only [loadFar, M.bind_run, h1, h2, M.pure_run]

theorem State.ReadsFar.reads {m : Mem} {off : Nat} {sel : Word} {s s1 : State} (h : s.ReadsFar m off sel s1) : s.Reads s1 := by
  obtain ⟨x, u, h1, h2, -⟩ := h
  exact (loadMem_reads h1).trans (loadMem_reads h2)

theorem loadPointer_run {n : SegName} {r : RegNum} {m : Mem} {off : Nat} {sel : Word} {s s1 s2 : State}
    (h : s.ReadsFar m off sel s1) (hl : loadSeg n sel s1 = .ok () s2) :
    loadPointer n r m s = .ok () (s2.withReg s.osz.width r off) := by
  simp only [loadPointer, M.bind_run, M.get_run, loadFar_run h, hl, setReg_run, State.withReg, BitVec.toNat_ofNat,
    Regs.write_mod]

theorem exec_farLoad {n : SegName} {r : RegNum} {m : Mem} {i : Instr} (h : farLoadInstr n r m = some i) (s : State) :
    exec i s = runInstr false false (loadPointer n r m) s := by
  cases n <;> cases h <;> rfl

/-- Settles O20. -/
theorem moveSegments : Obligations.MoveSegments := by
  constructor
  · intro r k m s hr
    refine ⟨fun n hn => ⟨?_, ?_, ?_⟩, fun h => ?_, fun h => ?_⟩
    · obtain ⟨u, c, run⟩ := writeSystemWord_reg_run k (s.segs.get n).sel s.begin
      exact ⟨u, c, completes_of_ok (l := false) rfl hr ((movFromSeg_run (s := s.begin) hn).trans run) rfl (keeps_of_mem rfl)⟩
    · intro a ps s1 h
      have body := (movFromSeg_run (s := s.begin) hn).trans (writeSystemWord_mem_run h)
      exact ⟨locateMem_reads h, completes_of_wrote (l := false) rfl hr body (locateMem_reads h) rfl rfl⟩
    · intro x s1 s2 hcs hx hl
      exact runInstr_ok hr (movToSeg_run hn hcs hx hl)
    · exact raises_of_error (l := false) (k := false) (body := movFromSeg r m) rfl hr
        (by simp only [movFromSeg, M.bind_run, M.get_run, h]; rfl)
    · exact raises_of_error (l := false) (k := false) (body := movToSeg r m) rfl hr (movToSeg_undefined h m s.begin)
  · intro n i r m off sel s s1 s2 hr hi
    refine ⟨fun far hl => ⟨far.reads, ?_⟩, fun e he => ?_⟩
    · rw [exec_farLoad hi]
      exact runInstr_ok hr (loadPointer_run far hl)
    · rw [exec_farLoad hi]
      refine runInstr_exn hr ?_
      simp only [loadPointer, loadFar, M.bind_run, M.get_run, State.begin_osz, he]

end Sys2Proof.Machine
end

section
/-! ## The stack: PUSH, POP, PUSHA, POPA, PUSHF, POPF -/
set_option Elab.async false

namespace Sys2Proof.Machine

/-! ### Memory that several reads and writes leave -/

/-- `t` follows `s` and memory differs only at `ps`; paging and A20 are as before. -/
def State.KeepsBut (s t : State) (ps : List BytePlace) : Prop := t.pg = s.pg ∧ t.pins = s.pins ∧ s.KeepsMemory t ps

theorem State.a20_of_pins {s t : State} (h : t.pins = s.pins) (a : Nat) : t.a20 a = s.a20 a := by
  simp only [State.a20, h]

section
variable {s t u : State} {ps qs : List BytePlace}

theorem State.KeepsBut.of_reads (h : s.Reads t) : s.KeepsBut t [] := ⟨h.pg, h.pins, h.keepsMemory⟩

theorem State.KeepsBut.of_eq (hm : t.mem = s.mem) (hg : t.pg = s.pg) (hp : t.pins = s.pins) : s.KeepsBut t [] :=
  ⟨hg, hp, keeps_of_mem hm⟩

theorem State.KeepsBut.wrote (s : State) (ps : List BytePlace) (v : Nat) : s.KeepsBut (s.wrote ps v) ps := by
  refine ⟨?_, ?_, fun _ a ha => wrote_mem s ps v a ha⟩
  · rw [wrote_touches s ps v]; rfl
  · rw [wrote_touches s ps v]

theorem State.KeepsBut.trans (h : s.KeepsBut t ps) (k : t.KeepsBut u qs) : s.KeepsBut u (ps ++ qs) := by
  obtain ⟨hg, hp, hm⟩ := h
  obtain ⟨kg, kp, km⟩ := k
  refine ⟨kg.trans hg, kp.trans hp, fun pg a ha => ?_⟩
  rw [km (hg.trans pg) a fun p hq => ?_, hm pg a fun p hp => ha p (List.mem_append_left _ hp)]
  rw [State.a20_of_pins hp]
  exact ha p (List.mem_append_right _ hq)

theorem State.KeepsBut.mono (h : s.KeepsBut t ps) (hs : ∀ p ∈ ps, p ∈ qs) : s.KeepsBut t qs := by
  obtain ⟨hg, hp, hm⟩ := h
  exact ⟨hg, hp, fun pg a ha => hm pg a fun p q => ha p (hs p q)⟩

theorem State.KeepsBut.wroteAll (pss : List (List BytePlace)) (vs : List Nat) :
    ∀ s : State, s.KeepsBut (s.wroteAll pss vs) pss.flatten := by
  induction pss generalizing vs with
  | nil => exact fun s => .of_eq (by cases vs <;> rfl) (by cases vs <;> rfl) (by cases vs <;> rfl)
  | cons ps pss ih =>
    intro s
    cases vs with
    | nil => exact State.KeepsBut.mono (.of_eq rfl rfl rfl) (by simp)
    | cons v vs => exact (State.KeepsBut.wrote s ps v).trans (ih vs (s.wrote ps v))

/-- What is kept from the start of an instruction's body is kept by the instruction. -/
theorem State.KeepsBut.keepsMemory (h : s.begin.KeepsBut t ps) (hu : u.mem = t.mem) : s.KeepsMemory u ps := by
  obtain ⟨-, -, hm⟩ := h
  intro pg a ha
  rw [hu]
  exact hm pg a ha

end

theorem reads_freeCtr (s : State) (c : Nat) : s.Reads { s with freeCtr := c } := ⟨rfl, fun _ => ⟨rfl, rfl, .of_bus rfl⟩⟩

/-! ### PUSH -/

theorem pushRoom_ok {s : State} (h : s.pe = true ∨ s.sp ≠ 1) : pushRoom s = .ok () s := by
  have : ¬ (!s.pe && s.sp == 1) = true := by
    rcases h with h | h <;> simp [h]
  exact if_neg this

theorem pushRoom_shutdown {s : State} (hp : s.pe = false) (hs : s.sp = 1) : pushRoom s = .error .shutdown s := by
  simp [pushRoom, hp, hs]

section
variable {f : PushForm} {rd : M Nat} {x : Nat} {s s1 : State}

theorem pushValue_eq (h : pushOperand s.osz.width f = some rd) : pushValue f s = rd s := by
  cases f <;> cases h <;> rfl

theorem pushOperand_reads {v : Width} (h : pushOperand v f = some rd) (hx : rd s = .ok x s1) : s.Reads s1 := by
  cases f <;> cases h
  case ev => exact readRm_reads hx
  all_goals cases hx; exact State.Reads.refl _

theorem pushBody_run {ps : List BytePlace} {s2 : State} (hx : pushValue f s = .ok x s1) (room : s1.pe = true ∨ s1.sp ≠ 1)
    (hl : locate .ss (s1.spMinus s1.osz.bytes) s1.osz.bytes s1.osz.bytes true s1 = .ok ps s2) :
    pushBody f s = .ok () ((s2.wrote ps x).withSP (s1.spMinus s1.osz.bytes)) := by
  simp only [pushBody, M.bind_run, hx, pushRoom_ok room, M.get_run, push_run hl]

theorem pushBody_shutdown (hx : pushValue f s = .ok x s1) (hp : s1.pe = false) (hs : s1.sp = 1) :
    pushBody f s = .error .shutdown s1 := by
  simp only [pushBody, M.bind_run, hx, pushRoom_shutdown hp hs]

end

theorem pushValue_seg (g : SegName) (s : State) : pushValue (pushSegForm g) s = freeHigh s.osz (s.segs.get g).sel s := by
  cases g <;> rfl

/-- Settles O21: `pushBody_run` and `pushBody_shutdown`. -/
theorem pushForms : Obligations.PushForms := by
  refine ⟨?_, ?_, ?_⟩
  · intro f rd x ps s s1 s2 hr ho hx n
    have reads : s.begin.Reads s1 := pushOperand_reads ho hx
    have hsp : s1.sp = s.sp := reads.sp
    have hosz : s1.osz = s.osz := reads.osz
    have hminus : s1.spMinus n = s.spMinus n := reads.spMinus n
    have value : pushValue f s.begin = .ok x s1 := (pushValue_eq (s := s.begin) ho).trans hx
    refine ⟨reads, fun room hl => ⟨locate_reads hl, ?_⟩, fun hp hs => ?_⟩
    · have body := pushBody_run (ps := ps) (s2 := s2) value (by rw [reads.pe, hsp]; exact room) (by rw [hosz, hminus]; exact hl)
      rw [hosz, hminus] at body
      exact completes_of_ok (l := false) rfl hr body rfl (keeps_of_wrote (reads.trans (locate_reads hl)) rfl rfl rfl)
    · exact runInstr_shutdown hr (pushBody_shutdown value (reads.pe.trans hp) (hsp.trans hs))
  · intro g s hr room n
    obtain ⟨u, c, run⟩ := freeHigh_run s.osz (s.segs.get g).sel s.begin
    refine ⟨u, c, fun ps s2 hl => ?_⟩
    have reads : s.begin.Reads s2 := (reads_freeCtr s.begin c).trans (locate_reads hl)
    refine ⟨reads, ?_⟩
    have value : pushValue (pushSegForm g) s.begin = .ok (withUpper s.osz u (s.segs.get g).sel) { s.begin with freeCtr := c } :=
      (pushValue_seg g s.begin).trans run
    have body := pushBody_run (ps := ps) (s2 := s2) value room hl
    exact completes_of_ok (l := false) rfl hr body rfl (keeps_of_wrote reads rfl rfl rfl)
  · intro g s hr hp hs
    obtain ⟨u, c, run⟩ := freeHigh_run s.osz (s.segs.get g).sel s.begin
    have value : pushValue (pushSegForm g) s.begin = .ok (withUpper s.osz u (s.segs.get g).sel) { s.begin with freeCtr := c } :=
      (pushValue_seg g s.begin).trans run
    exact ⟨c, runInstr_shutdown hr (pushBody_shutdown value hp hs)⟩

/-! ### POP -/

theorem pop_run {n x : Nat} {s s1 : State} (h : load .ss s.sp n n s = .ok x s1) : pop n s = .ok x (s1.withSP (s.sp + n)) := by
  have hsp : s1.sp = s.sp := (load_reads h).sp
  simp only [pop, M.bind_run, M.get_run, h, setSP_run, M.pure_run]

theorem popSeg_run {g : SegName} {x : Nat} {s s1 s2 : State} (h : load .ss s.sp s.osz.bytes s.osz.bytes s = .ok x s1)
    (hl : loadSeg g (BitVec.ofNat 16 x) (s1.withSP (s.sp + s.osz.bytes)) = .ok () s2) : popSeg g s = .ok () s2 := by
  simp only [popSeg, M.bind_run, M.get_run, pop_run h, hl]

theorem popBody_seg {g : SegName} {f : PopForm} {s s2 : State} (hf : popSegForm g = some f) (h : popSeg g s = .ok () s2) :
    popBody f s = .ok () (s2.shadowed g) := by
  cases g <;> cases hf <;> simp only [popBody, M.bind_run, M.get_run, h] <;> rfl

section
variable {x : Nat} {s p : State}

theorem popBody_reg (r : RegNum) (h : pop s.osz.bytes s = .ok x p) :
    popBody (.reg r) s = .ok () (p.withReg s.osz.width r x) := by
  simp only [popBody, M.bind_run, M.get_run, h, setReg_run]

theorem popBody_ev {m : Rm} (h : pop s.osz.bytes s = .ok x p) : popBody (.ev m) s = writeRm s.osz.width m x p := by
  simp only [popBody, M.bind_run, M.get_run, h]

theorem popfBody_run (h : pop s.osz.bytes s = .ok x p) :
    popfBody s = .ok () (p.withFlags
      (popfFlags s.osz (if s.pe then s.cpl else 0) (Flags.ofBits (BitVec.ofNat 32 x)) p.flags)) := by
  simp only [popfBody, M.bind_run, M.get_run, h, modFlags_run]

end

/-- Settles O22: the value is popped by `pop_run`, then the destination is written. -/
theorem popOperand : Obligations.PopOperand := by
  intro x s s1 hr n w h p
  have reads : s.begin.Reads s1 := load_reads h
  have popped : pop n s.begin = .ok x p := pop_run (s := s.begin) h
  refine ⟨reads, fun r => ⟨?_, ?_⟩, fun m ps s2 hl => ⟨locateMem_reads hl, ?_⟩, fun g f s2 hf hl => ?_⟩
  · exact completes_of_reads (l := false) rfl hr (popBody_reg r popped) reads rfl
  · exact completes_of_reads (l := false) rfl hr (popBody_ev popped) reads rfl
  · have body : popBody (.ev (.mem m)) s.begin = .ok () (s2.wrote ps x) := (popBody_ev popped).trans (writeRm_mem_run hl)
    have before : s.begin.KeepsBut p [] := State.KeepsBut.trans (.of_reads reads) (.of_eq rfl rfl rfl)
    have after := (State.KeepsBut.of_reads (locateMem_reads hl)).trans (State.KeepsBut.wrote s2 ps x)
    exact completes_of_ok (l := false) rfl hr body rfl ((before.trans after).keepsMemory rfl)
  · exact runInstr_ok hr (popBody_seg hf (popSeg_run (s := s.begin) h hl))

/-! ### PUSHF and POPF -/

theorem toBits_mask (f : Flags) : f.toBits &&& 0x00FCFFFF = { f with vm := false, rf := false }.toBits := by
  have one (b : Bool) : BitVec.ofBool b &&& 1#1 = BitVec.ofBool b := by cases b <;> rfl
  have zero (b : Bool) : BitVec.ofBool b &&& 0#1 = BitVec.ofBool false := by cases b <;> rfl
  have fixed : 1#1 &&& 1#1 = 1#1 ∧ 0#1 &&& 1#1 = 0#1 ∧ 0#13 &&& 31#13 = 0#13 := ⟨rfl, rfl, rfl⟩
  obtain ⟨set, clear, top⟩ := fixed
  have two : ∀ b : BitVec 2, b &&& 3#2 = b := by decide
  have fields : (0#13 ++ BitVec.ofBool f.ac ++ BitVec.ofBool f.vm ++ BitVec.ofBool f.rf ++ 0#1 ++ BitVec.ofBool f.nt ++ f.iopl ++
      BitVec.ofBool f.ovf ++ BitVec.ofBool f.df ++ BitVec.ofBool f.intf ++ BitVec.ofBool f.tf ++ BitVec.ofBool f.sf ++
      BitVec.ofBool f.zf ++ 0#1 ++ BitVec.ofBool f.af ++ 0#1 ++ BitVec.ofBool f.pf ++ 1#1 ++ BitVec.ofBool f.cf) &&&
      (31#13 ++ 1#1 ++ 0#1 ++ 0#1 ++ 1#1 ++ 1#1 ++ 3#2 ++ 1#1 ++ 1#1 ++ 1#1 ++ 1#1 ++ 1#1 ++ 1#1 ++ 1#1 ++ 1#1 ++ 1#1 ++ 1#1 ++
        1#1 ++ 1#1) =
      0#13 ++ BitVec.ofBool f.ac ++ BitVec.ofBool false ++ BitVec.ofBool false ++ 0#1 ++ BitVec.ofBool f.nt ++ f.iopl ++
      BitVec.ofBool f.ovf ++ BitVec.ofBool f.df ++ BitVec.ofBool f.intf ++ BitVec.ofBool f.tf ++ BitVec.ofBool f.sf ++
      BitVec.ofBool f.zf ++ 0#1 ++ BitVec.ofBool f.af ++ 0#1 ++ BitVec.ofBool f.pf ++ 1#1 ++ BitVec.ofBool f.cf := by
    simp only [BitVec.and_append, one, zero, two, set, clear, top]
  exact fields

/-- Settles O24. -/
theorem pushPopFlags : Obligations.PushPopFlags := by
  intro s hr n cpl
  constructor
  · intro ps s1 hl
    refine ⟨locate_reads hl, ?_⟩
    have body := push_run (v := (s.flags.toBits &&& 0x00FCFFFF).toNat % 2 ^ s.osz.bits) hl
    rw [toBits_mask] at body
    refine completes_of_ok (l := false) (k := false) (body := pushfBody) rfl hr ?_ rfl
      (keeps_of_wrote (locate_reads hl) rfl rfl rfl)
    show push s.osz.bytes ((s.flags.toBits &&& 0x00FCFFFF).toNat % 2 ^ s.osz.bits) s.begin = _
    rw [toBits_mask]
    exact body
  · intro x s1 h v f
    refine ⟨load_reads h, ?_⟩
    have popped : pop n s.begin = .ok x (s1.withSP (s.sp + n)) := pop_run (s := s.begin) h
    have hflags : s1.flags = s.flags := (load_reads h).flags
    have body := popfBody_run (s := s.begin) popped
    rw [show (s1.withSP (s.sp + n)).flags = s.flags from hflags] at body
    exact completes_of_reads (l := false) rfl hr body (load_reads h) rfl

end Sys2Proof.Machine
end

section
/-! ## PUSHA, POPA, ENTER, LEAVE -/
set_option Elab.async false

namespace Sys2Proof.Machine

/-! ### Registers read after a write -/

theorem Regs.get_set_same (r : Regs) (n : RegNum) (v : BitVec 32) : (r.set n v).get n = v := by
  fin_cases n <;> rfl

theorem Regs.get_set_of_ne (r : Regs) {n k : RegNum} (v : BitVec 32) (h : k ≠ n) : (r.set n v).get k = r.get k := by
  fin_cases n <;> fin_cases k <;> first | rfl | exact absurd rfl h

theorem State.withSP_sp (s : State) (v : Nat) : (s.withSP v).sp = v % 2 ^ s.ssz.bits := by
  show (s.regs.write s.ssz.width regESP v).read s.ssz.width regESP = _
  cases s.ssz
  · simp only [Size.width, Regs.write, Regs.read, Regs.get_set_same, Size.bits]
    have low : v % 2 ^ 16 < 2 ^ 16 := Nat.mod_lt _ (by decide)
    rw [BitVec.toNat_append, BitVec.toNat_ofNat, ← Nat.shiftLeft_add_eq_or_of_lt low, Nat.shiftLeft_eq, Nat.mul_add_mod_self_right,
      Nat.mod_mod]
  · simp only [Size.width, Regs.write, Regs.read, Regs.get_set_same, Size.bits, BitVec.toNat_ofNat]

theorem State.withSP_get (s : State) (v : Nat) {k : RegNum} (h : k ≠ regESP) : (s.withSP v).regs.get k = s.regs.get k := by
  show (s.regs.write s.ssz.width regESP v).get k = _
  cases s.ssz <;> exact Regs.get_set_of_ne _ _ h

theorem State.sp_lt (s : State) : s.sp < 2 ^ s.ssz.bits := by
  unfold State.sp
  cases s.ssz
  · exact Nat.mod_lt _ (by decide)
  · exact (s.regs.get regESP).isLt

/-! ### POPA -/

/-- `t` follows `s` after pops of `k` bytes in all: memory was read, and of the registers eSP alone changed. -/
def State.Pops (s t : State) (k : Nat) : Prop :=
  s.Reads { t with regs := s.regs } ∧ t.sp = (s.sp + k) % 2 ^ s.ssz.bits ∧ ∀ r, r ≠ regESP → t.regs.get r = s.regs.get r

/-- A read does not depend on the registers. -/
theorem State.Reads.withRegs {s t : State} (h : s.Reads t) (r : Regs) : State.Reads { s with regs := r } { t with regs := r } := by
  obtain ⟨touches, plain⟩ := h
  refine ⟨?_, plain⟩
  rw [touches]

section
variable {s t u : State} {k l : Nat}

theorem State.Pops.ssz (h : s.Pops t k) : t.ssz = s.ssz := by
  obtain ⟨reads, -, -⟩ := h
  exact reads.ssz

theorem State.Pops.refl (s : State) : s.Pops s 0 := ⟨.refl s, (Nat.mod_eq_of_lt s.sp_lt).symm, fun _ _ => rfl⟩

theorem State.Pops.trans (h : s.Pops t k) (g : t.Pops u l) : s.Pops u (k + l) := by
  have hz := h.ssz
  obtain ⟨reads, sp, regs⟩ := h
  obtain ⟨reads', sp', regs'⟩ := g
  refine ⟨reads.trans (reads'.withRegs s.regs), ?_, fun r hr => (regs' r hr).trans (regs r hr)⟩
  rw [sp', sp, hz, Nat.mod_add_mod, Nat.add_assoc]

/-- eSP raised after a read. -/
theorem State.Pops.of_reads (h : s.Reads t) (n : Nat) : s.Pops (t.withSP (s.sp + n)) n := by
  refine ⟨?_, ?_, fun r hr => ?_⟩
  · have same : ({ t.withSP (s.sp + n) with regs := s.regs } : State) = t := by
      rw [← h.regs]
      rfl
    rw [same]
    exact h
  · rw [State.withSP_sp, h.ssz]
  · rw [State.withSP_get _ _ hr, h.regs]

theorem pop_pops {n x : Nat} (h : pop n s = .ok x t) : s.Pops t n := by
  obtain ⟨s0, _, hs0, h⟩ := M.bind_ok.1 h
  cases hs0
  obtain ⟨v, s1, h1, h⟩ := M.bind_ok.1 h
  cases h
  exact .of_reads (load_reads h1) n

end

/-- Pops in a row, the first value first. -/
theorem popMany_succ {n k : Nat} {vs : List Nat} {s t : State} (h : popMany n (k + 1) s = .ok vs t) :
    ∃ (v : Nat) (rest : List Nat) (u : State), pop n s = .ok v u ∧ popMany n k u = .ok rest t ∧ vs = v :: rest := by
  obtain ⟨v, u, h1, h⟩ := M.bind_ok.1 h
  obtain ⟨rest, w, h2, h⟩ := M.bind_ok.1 h
  cases h
  exact ⟨v, rest, u, h1, h2, rfl⟩

theorem popMany_pops {n k : Nat} {vs : List Nat} {s t : State} (h : popMany n k s = .ok vs t) : s.Pops t (n * k) := by
  induction k generalizing vs s with
  | zero => cases h; exact .refl _
  | succ k ih =>
    obtain ⟨v, rest, u, h1, h2, -⟩ := popMany_succ h
    have := (pop_pops h1).trans (ih h2)
    rwa [Nat.add_comm, ← Nat.mul_succ] at this

/-- Three pops as the body of an instruction makes them. -/
theorem popMany_three {n a b c : Nat} {s t : State} (h : popMany n 3 s = .ok [a, b, c] t) :
    ∃ s1 s2 : State, pop n s = .ok a s1 ∧ pop n s1 = .ok b s2 ∧ pop n s2 = .ok c t := by
  obtain ⟨_, _, s1, h1, k1, e1⟩ := popMany_succ h
  cases e1
  obtain ⟨_, _, s2, h2, k2, e2⟩ := popMany_succ k1
  cases e2
  obtain ⟨_, _, s3, h3, k3, e3⟩ := popMany_succ k2
  cases e3
  cases k3
  exact ⟨s1, s2, h1, h2, h3⟩

theorem popMany_four {n a b c d : Nat} {s t : State} (h : popMany n 4 s = .ok [a, b, c, d] t) :
    ∃ s1 s2 s3 : State, pop n s = .ok a s1 ∧ pop n s1 = .ok b s2 ∧ pop n s2 = .ok c s3 ∧ pop n s3 = .ok d t := by
  obtain ⟨v, rest, s1, h1, h, e⟩ := popMany_succ h
  cases e
  obtain ⟨s2, s3, h2, h3, h4⟩ := popMany_three h
  exact ⟨s1, s2, s3, h1, h2, h3, h4⟩

theorem skipStack_run {n lin : Nat} {s t : State} (h : segCheck .ss s.sp n false s = .ok lin t) :
    skipStack n s = .ok () (s.withSP (s.sp + n)) := by
  obtain ⟨rfl, -⟩ := segCheck_ok h
  simp only [skipStack, M.bind_run, M.get_run, h, setSP_run]

theorem popaRoom_ok {s : State} (h : s.pe = true ∨ s.sp + 8 * s.osz.bytes ≤ 2 ^ 16) : popaRoom s = .ok () s := by
  have : ¬ (!s.pe && decide (s.sp + 8 * s.osz.bytes > 2 ^ 16)) = true := by
    rcases h with h | h
    · simp [h]
    · rw [decide_eq_false (not_lt.2 h), Bool.and_false]; exact Bool.noConfusion
  exact if_neg this

theorem popaRoom_raises {s : State} (hp : s.pe = false) (h : 2 ^ 16 < s.sp + 8 * s.osz.bytes) :
    popaRoom s = raiseGP 0 s := by
  have : (!s.pe && decide (s.sp + 8 * s.osz.bytes > 2 ^ 16)) = true := by
    rw [hp, decide_eq_true h]; rfl
  exact if_pos this

theorem popaBody_run {di si bp bx dx cx ax lin : Nat} {s s1 s2 s3 : State} (room : popaRoom s = .ok () s)
    (h1 : popMany s.osz.bytes 3 s = .ok [di, si, bp] s1) (h2 : segCheck .ss s1.sp s.osz.bytes false s1 = .ok lin s2)
    (h3 : popMany s.osz.bytes 4 (s1.withSP (s1.sp + s.osz.bytes)) = .ok [bx, dx, cx, ax] s3) :
    let w := s.osz.width
    popaBody s = .ok () (((((((s3.withReg w regEDI di).withReg w regESI si).withReg w regEBP bp).withReg w regEBX bx).withReg
      w regEDX dx).withReg w regECX cx).withReg w regEAX ax) := by
  obtain ⟨u1, u2, a1, a2, a3⟩ := popMany_three h1
  obtain ⟨v1, v2, v3, b1, b2, b3, b4⟩ := popMany_four h3
  simp only [popaBody, M.bind_run, room, M.get_run, a1, a2, a3, skipStack_run h2, b1, b2, b3, b4, setReg_run]

/-! ### PUSHA -/

theorem pushaRoom_ok {s : State} (h : s.pe = true ∨ ¬ (s.sp < 16 ∧ s.sp % 2 = 1)) : pushaRoom s = .ok () s := by
  rcases h with h | h
  · simp [pushaRoom, h]
  · have free (k : Nat) (hk : k < 16 ∧ k % 2 = 1) : (s.sp == k) = false := by
      rw [beq_eq_false_iff_ne]; omega
    simp only [pushaRoom, free 1 (by omega), free 3 (by omega), free 5 (by omega), free 7 (by omega), free 9 (by omega),
      free 11 (by omega), free 13 (by omega), free 15 (by omega)]
    split <;> rfl

theorem pushaRoom_shutdown {s : State} (hp : s.pe = false) (hs : s.sp ∈ [1, 3, 5]) : pushaRoom s = .error .shutdown s := by
  simp only [List.mem_cons, List.not_mem_nil, or_false] at hs
  rcases hs with hs | hs | hs <;> simp [pushaRoom, hp, hs]

theorem pushaRoom_raises {s : State} (hp : s.pe = false) (hs : s.sp ∈ [7, 9, 11, 13, 15]) :
    pushaRoom s = raiseGP 0 s := by
  simp only [List.mem_cons, List.not_mem_nil, or_false] at hs
  rcases hs with hs | hs | hs | hs | hs <;> simp [pushaRoom, hp, hs]

theorem pushaBody_run {pss : List (List BytePlace)} {s s1 : State} (room : pushaRoom s = .ok () s)
    (h : pushPlaces s.osz.bytes s.osz.bytes 8 0 s = .ok pss s1) :
    let g (k : RegNum) : Nat := s.regs.read s.osz.width k
    pushaBody s = .ok () ((s1.wroteAll pss
      [g regEAX, g regECX, g regEDX, g regEBX, g regESP, g regEBP, g regESI, g regEDI]).withSP (s.spMinus (s.osz.bytes * 8))) := by
  intro g
  simp only [pushaBody, M.bind_run, room, M.get_run]
  exact pushList_run (vs := [g regEAX, g regECX, g regEDX, g regEBX, g regESP, g regEBP, g regESI, g regEDI]) h

/-- Settles O23. -/
theorem pushPopAll : Obligations.PushPopAll := by
  intro s hr n w g
  refine ⟨?_, ?_, ?_, ?_, ?_⟩
  · intro pss s1 room h
    have body := pushaBody_run (s := s.begin) (pushaRoom_ok (s := s.begin) room) h
    exact completes_of_ok (l := false) rfl hr body rfl
      (((State.KeepsBut.of_reads (pushPlaces_reads h)).trans (.wroteAll pss _ s1)).keepsMemory rfl)
  · intro hp hs
    have room := pushaRoom_shutdown (s := s.begin) hp hs
    exact runInstr_shutdown (body := pushaBody) (t := s.begin) hr (by simp only [pushaBody, M.bind_run, room])
  · intro hp hs
    have room := pushaRoom_raises (s := s.begin) hp hs
    exact raises_of_error (l := false) (k := false) (body := pushaBody) rfl hr
      (by simp only [pushaBody, M.bind_run, room]; rfl)
  · intro di si bp bx dx cx ax lin s1 s2 s3 room h1 h2 h3
    have body := popaBody_run (s := s.begin) (popaRoom_ok (s := s.begin) room) h1 h2 h3
    have pops : s.begin.Pops s3 (n * 3 + (n + n * 4)) :=
      (popMany_pops h1).trans ((State.Pops.of_reads (.refl s1) n).trans (popMany_pops h3))
    obtain ⟨reads, sp, regs⟩ := pops
    refine ⟨runInstr_ok hr body, reads, ?_, regs⟩
    rw [sp, show n * 3 + (n + n * 4) = 8 * n by omega]
    rfl
  · intro hp hs
    have room := popaRoom_raises (s := s.begin) hp hs
    exact raises_of_error (l := false) (k := false) (body := popaBody) rfl hr
      (by simp only [popaBody, M.bind_run, room]; rfl)

/-! ### ENTER and LEAVE -/

theorem framePlaces_reads {n b k bp : Nat} {src : List (List BytePlace)} {s t : State}
    (h : framePlaces n b k bp s = .ok src t) : s.Reads t := by
  induction k generalizing bp s src with
  | zero => cases h; exact .refl _
  | succ k ih =>
    obtain ⟨ps, u, h1, h⟩ := M.bind_ok.1 h
    obtain ⟨rest, v, h2, h⟩ := M.bind_ok.1 h
    cases h
    exact (locate_reads h1).trans (ih h2)

theorem framePlaces_length {n b k bp : Nat} {src : List (List BytePlace)} {s t : State}
    (h : framePlaces n b k bp s = .ok src t) : src.length = k := by
  induction k generalizing bp s src with
  | zero => cases h; rfl
  | succ k ih =>
    obtain ⟨ps, u, h1, h⟩ := M.bind_ok.1 h
    obtain ⟨rest, v, h2, h⟩ := M.bind_ok.1 h
    cases h
    rw [List.length_cons, ih h2]

theorem pushPlaces_length {n al k x : Nat} {pss : List (List BytePlace)} {s t : State}
    (h : pushPlaces n al k x s = .ok pss t) : pss.length = k := by
  induction k generalizing x s pss with
  | zero => cases h; rfl
  | succ k ih =>
    obtain ⟨_, _, h0, h⟩ := M.bind_ok.1 h
    obtain ⟨ps, u, h1, h⟩ := M.bind_ok.1 h
    obtain ⟨rest, v, h2, h⟩ := M.bind_ok.1 h
    cases h
    rw [List.length_cons, ih h2]

/-- Reading at places always succeeds, so the frames are copied; what is left over of the longer list is not used. -/
theorem copyFrames_run (src : List (List BytePlace)) : ∀ (dst extra : List (List BytePlace)) (s : State), src.length = dst.length →
    ∃ t : State, copyFrames src (dst ++ extra) s = .ok () t ∧ CopiesFrames src dst s t ∧ s.KeepsBut t dst.flatten := by
  induction src with
  | nil =>
    intro dst extra s h
    have : dst = [] := List.eq_nil_of_length_eq_zero h.symm
    subst this
    exact ⟨s, rfl, rfl, .of_eq rfl rfl rfl⟩
  | cons p src ih =>
    intro dst extra s h
    cases dst with
    | nil => cases h
    | cons d dst =>
      obtain ⟨v, u, read⟩ := readBytes_total false p s
      obtain ⟨t, copy, copies, keeps⟩ := ih dst extra (u.wrote d v) (Nat.succ.inj h)
      refine ⟨t, ?_, ⟨v, u, read, copies⟩, ?_⟩
      · simp only [List.cons_append, copyFrames, M.bind_run, read, writeBytes_run, copy]
      · exact ((State.KeepsBut.of_reads (readBytes_reads read)).trans (.wrote u d v)).trans keeps

theorem pushPlaces_one {n al : Nat} {ps : List BytePlace} {s t : State} (h : locate .ss (s.spMinus n) n al true s = .ok ps t) :
    pushPlaces n al 1 0 s = .ok [ps] t := by
  simp only [pushPlaces, M.bind_run, M.get_run, Nat.zero_add, h, M.pure_run]

theorem enterBody_zero {size : Word} {level : Byte} {ps : List BytePlace} {lin : Nat} {s s1 s2 : State}
    (h0 : level.toNat % 32 = 0) (hl : locate .ss (s.spMinus s.osz.bytes) s.osz.bytes s.osz.bytes true s = .ok ps s1)
    (hc : segCheck .ss ((s.spMinus s.osz.bytes + 2 ^ s.ssz.bits - size.toNat % 2 ^ s.ssz.bits) % 2 ^ s.ssz.bits) 1 true s1 =
      .ok lin s2) :
    enterBody size level s = .ok () (((s1.wrote ps (s.regs.read s.osz.width regEBP)).withReg s.osz.width regEBP
      (s.spMinus s.osz.bytes)).withSP
        ((s.spMinus s.osz.bytes + 2 ^ s.ssz.bits - size.toNat % 2 ^ s.ssz.bits) % 2 ^ s.ssz.bits)) := by
  obtain ⟨rfl, -⟩ := segCheck_ok hc
  simp only [enterBody, M.bind_run, M.get_run, h0, if_true, pushPlaces_one hl, Nat.zero_sub, framePlaces, M.pure_run, Nat.mul_one,
    hc, writeBytes_run, copyFrames, gt_iff_lt, lt_irrefl, if_false, setReg_run, setSP_run]

theorem enterBody_nested {size : Word} {level : Byte} {first last : List BytePlace} {mid src : List (List BytePlace)} {lin : Nat}
    {s s1 s2 s3 t : State} (h0 : 0 < level.toNat % 32)
    (hp : pushPlaces s.osz.bytes s.osz.bytes (level.toNat % 32 + 1) 0 s = .ok (first :: (mid ++ [last])) s1)
    (hf : framePlaces s.osz.bytes (8 * s.osz.bytes) (level.toNat % 32 - 1) (s.regs.read s.osz.width regEBP) s1 = .ok src s2)
    (hc : segCheck .ss ((s.spMinus (s.osz.bytes * (level.toNat % 32 + 1)) + 2 ^ s.ssz.bits - size.toNat % 2 ^ s.ssz.bits) %
      2 ^ s.ssz.bits) 1 true s2 = .ok lin s3)
    (copy : copyFrames src (mid ++ [last]) (s2.wrote first (s.regs.read s.osz.width regEBP)) = .ok () t) :
    enterBody size level s = .ok () (((t.wrote last (s.spMinus s.osz.bytes % 2 ^ (8 * s.osz.bytes))).withReg s.osz.width regEBP
      (s.spMinus s.osz.bytes)).withSP
        ((s.spMinus (s.osz.bytes * (level.toNat % 32 + 1)) + 2 ^ s.ssz.bits - size.toNat % 2 ^ s.ssz.bits) % 2 ^ s.ssz.bits)) := by
  obtain ⟨rfl, -⟩ := segCheck_ok hc
  have hz : ¬ level.toNat % 32 = 0 := by omega
  simp only [enterBody, M.bind_run, M.get_run, if_neg hz, hp, hf, hc, writeBytes_run, copy, gt_iff_lt, if_pos h0,
    List.getLast?_append, List.getLast?_singleton, Option.some_or, Option.getD_some, setReg_run, setSP_run]

theorem leaveBody_run {x : Nat} {s s1 : State} (h : load .ss (s.regs.read s.ssz.width regEBP) s.osz.bytes s.osz.bytes
      (s.withSP (s.regs.read s.ssz.width regEBP)) = .ok x s1) (htop : (s.withSP (s.regs.read s.ssz.width regEBP)).sp =
      s.regs.read s.ssz.width regEBP) :
    leaveBody s = .ok () ((s1.withSP (s.regs.read s.ssz.width regEBP + s.osz.bytes)).withReg s.osz.width regEBP x) := by
  have popped := pop_run (n := s.osz.bytes) (s := s.withSP (s.regs.read s.ssz.width regEBP)) (by rw [htop]; exact h)
  rw [htop] at popped
  simp only [leaveBody, M.bind_run, M.get_run, setSP_run, popped, setReg_run]

theorem read_lt_ssz (s : State) (n : RegNum) : s.regs.read s.ssz.width n < 2 ^ s.ssz.bits := by
  cases s.ssz
  · exact Nat.mod_lt _ (by decide)
  · exact (s.regs.get n).isLt

/-- Settles O25: `enterBody_zero`, `enterBody_nested` with the frames copied by `copyFrames_run`, and `leaveBody_run`. -/
theorem enterAndLeave : Obligations.EnterAndLeave := by
  constructor
  · intro s hr n w frame
    constructor
    · intro size level ps lin s1 s2 h0 hl top hc
      have body := enterBody_zero (s := s.begin) h0 hl hc
      refine ⟨locate_reads hl, completes_of_ok (l := false) rfl hr body rfl ?_⟩
      exact ((State.KeepsBut.of_reads (locate_reads hl)).trans (.wrote s1 ps _)).keepsMemory rfl
    · intro x s1 top h
      have htop : (s.begin.withSP top).sp = top := by
        rw [State.withSP_sp]
        exact Nat.mod_eq_of_lt (read_lt_ssz s regEBP)
      have body := leaveBody_run (s := s.begin) h htop
      have moved : s.begin.KeepsBut (s.begin.withSP top) [] := .of_eq rfl rfl rfl
      exact completes_of_ok (l := false) rfl hr body rfl ((moved.trans (.of_reads (load_reads h))).keepsMemory rfl)
  · intro size level first last mid src lin s s1 s2 s3 hr h0 n w k top hp hf hc
    have lengths : src.length = mid.length := by
      have hk : src.length = k - 1 := framePlaces_length hf
      have hm := pushPlaces_length hp
      simp only [List.length_cons, List.length_append, List.length_nil] at hm
      omega
    obtain ⟨t, copy, copies, keeps⟩ := copyFrames_run src mid [last] (s2.wrote first (s.regs.read w regEBP)) lengths
    have body := enterBody_nested (s := s.begin) h0 hp hf hc copy
    have reads : s.begin.KeepsBut s2 [] := .of_reads ((pushPlaces_reads hp).trans (framePlaces_reads hf))
    have writes := ((reads.trans (.wrote s2 first _)).trans keeps).trans (.wrote t last (s.spMinus n % 2 ^ (8 * n)))
    refine ⟨t, copies, completes_of_ok (l := false) rfl hr body rfl ((writes.mono ?_).keepsMemory rfl)⟩
    intro p
    simp only [List.nil_append, List.mem_append, List.flatten_cons, List.flatten_append, List.flatten_nil, List.append_nil]
    tauto

end Sys2Proof.Machine
end

section
/-! ## Near transfers of control: Jcc, LOOP, JCXZ, JMP, CALL, RET -/
set_option Elab.async false

namespace Sys2Proof.Machine

/-! ### Near targets -/

section
variable {s : State} {t : Nat}

theorem nearTarget_ok (h : t % 2 ^ s.osz.bits ≤ s.segs.cs.hid.limit.toNat) :
    nearTarget t s = .ok (t % 2 ^ s.osz.bits) s := if_neg (not_lt.2 h)

theorem nearTarget_beyond (h : s.segs.cs.hid.limit.toNat < t % 2 ^ s.osz.bits) : nearTarget t s = raiseGP 0 s := if_pos h

theorem nearJump_ok (h : t % 2 ^ s.osz.bits ≤ s.segs.cs.hid.limit.toNat) :
    nearJump t s = .ok () (s.withEip (t % 2 ^ s.osz.bits)) := by
  simp only [nearJump, M.bind_run, nearTarget_ok h]
  rfl

theorem nearJump_beyond (h : s.segs.cs.hid.limit.toNat < t % 2 ^ s.osz.bits) : nearJump t s = raiseGP 0 s := by
  simp only [nearJump, M.bind_run, nearTarget_beyond h, raiseGP_run]

end

/-! ### Jcc -/

/-- The target of a conditional jump. -/
def jccTarget (s : State) : JccForm → Nat
  | .short rel => rel8Target s rel
  | .near rel => relTarget s rel

theorem jccBody_run (c : Cond) (f : JccForm) (s : State) :
    jccBody c f s = if c.holds s.flags = true then nearJump (jccTarget s f) s else .ok () s := by
  unfold jccBody
  by_cases h : c.holds s.flags = true <;> simp only [M.bind_run, M.get_run, h, if_true] <;> cases f <;> rfl

theorem exec_jcc (c : Cond) (f : JccForm) (s : State) : exec (jccInstr c f) s = runInstr false false (jccBody c f) s := by
  cases c <;> rfl

/-! ### LOOP and JCXZ -/

/-- The count register decremented. -/
def loopCount (s : State) : Nat :=
  (s.regs.read s.asz.width regECX + 2 ^ s.asz.width.bits - 1) % 2 ^ s.asz.width.bits

/-- The count register holds the new count. -/
def State.looped (s : State) : State := s.withReg s.asz.width regECX (loopCount s)

theorem loopBody_run (ok : Bool → Bool) (rel : Byte) (s : State) :
    loopBody ok rel s =
      if (loopCount s != 0 && ok s.flags.zf) = true then nearJump (rel8Target s rel) s.looped else .ok () s.looped := by
  simp only [loopBody, M.bind_run, M.get_run, setReg_run, M.ite_run]
  rfl

theorem jcxzBody_run (rel : Byte) (s : State) :
    jcxzBody rel s = if s.regs.read s.asz.width regECX = 0 then nearJump (rel8Target s rel) s else .ok () s := by
  simp only [jcxzBody, M.bind_run, M.get_run, M.ite_run]
  rfl

section
variable {i : Instr} {body : M Unit} {jump : Prop} [Decidable jump] {target : Nat} {s t : State}

/-- A conditional jump whose target lies in the limit; `t` is the state before the jump. -/
theorem completes_of_jump (hi : exec i s = runInstr false false body s) (hr : s.Ready false)
    (hb : body s.begin = if jump then nearJump target t else .ok () t) (reads : s.begin.Reads t ∨ t.mem = s.mem)
    (h : target % 2 ^ t.osz.bits ≤ t.segs.cs.hid.limit.toNat) :
    Completes i s ((if jump then t.withEip (target % 2 ^ t.osz.bits) else t).complete false) [] := by
  have keeps (u : State) (hu : u.mem = t.mem) : s.KeepsMemory u [] :=
    reads.elim (fun h => keeps_of_reads h hu) (fun h => keeps_of_mem (hu.trans h))
  by_cases hj : jump
  · rw [if_pos hj] at hb ⊢
    exact completes_of_ok hi hr (hb.trans (nearJump_ok h)) rfl (keeps _ rfl)
  · rw [if_neg hj] at hb ⊢
    exact completes_of_ok hi hr hb rfl (keeps _ rfl)

/-- A conditional jump whose target lies beyond the limit. -/
theorem raises_of_jump (hi : exec i s = runInstr false false body s) (hr : s.Ready false)
    (hb : body s.begin = if jump then nearJump target t else .ok () t) (hm : t.mem = s.mem)
    (h : t.segs.cs.hid.limit.toNat < target % 2 ^ t.osz.bits) :
    (jump → Raises i s t 13 (some 0)) ∧ (¬ jump → Completes i s (t.complete false) []) := by
  refine ⟨fun hj => ?_, fun hj => ?_⟩
  · rw [if_pos hj] at hb
    exact raises_of_error hi hr (hb.trans (nearJump_beyond h))
  · rw [if_neg hj] at hb
    exact completes_of_ok hi hr hb rfl (keeps_of_mem hm)

end

/-- Settles O26: `jccBody_run`, `loopBody_run` and `jcxzBody_run`, with targets inside and beyond the limit. -/
theorem conditionalAndCountedJumps : Obligations.ConditionalAndCountedJumps := by
  refine ⟨?_, ?_, ?_⟩
  · intro c f s hr dest
    have hd : dest = jccTarget s.begin f % 2 ^ s.osz.bits := by cases f <;> rfl
    have body := jccBody_run c f s.begin
    refine ⟨fun hc => ?_, fun hc hle => ?_, fun hc hlt => ?_⟩
    · rw [if_neg (by rw [State.begin_flags, hc]; exact Bool.noConfusion)] at body
      exact completes_of_ok (exec_jcc c f s) hr body rfl (keeps_of_mem rfl)
    · rw [hd] at hle ⊢
      have := completes_of_jump (exec_jcc c f s) hr body (Or.inr rfl) hle
      rw [if_pos (show c.holds s.begin.flags = true from hc)] at this
      exact this
    · rw [hd] at hlt
      exact (raises_of_jump (exec_jcc c f s) hr body rfl hlt).1 hc
  · intro rel s hr w n count dest hle done
    have loop (i : Instr) (ok : Bool → Bool) (hi : exec i s = runInstr false false (loopBody ok rel) s) :
        Completes i s (done (s.begin.withReg w regECX count) (count != 0 && ok s.flags.zf)) [] :=
      completes_of_jump hi hr (loopBody_run ok rel s.begin) (Or.inr rfl) hle
    refine ⟨?_, loop (.loope rel) (fun z => z) rfl, loop (.loopne rel) (fun z => !z) rfl, ?_⟩
    · have := loop (.loop rel) (fun _ => true) rfl
      rwa [Bool.and_true] at this
    · have := completes_of_jump (i := .jcxz rel) (s := s) rfl hr (jcxzBody_run rel s.begin) (Or.inr rfl) hle
      simp only [done, beq_iff_eq]
      exact this
  · intro rel s hr w n count hlt does counted
    have loop (i : Instr) (ok : Bool → Bool) (hi : exec i s = runInstr false false (loopBody ok rel) s) :
        does i counted ((count != 0 && ok s.flags.zf) = true) :=
      raises_of_jump hi hr (loopBody_run ok rel s.begin) rfl hlt
    have iff (z : Bool) : ((count != 0 && z) = true) = (count ≠ 0 ∧ z = true) := by
      rw [Bool.and_eq_true, bne_iff_ne]
    refine ⟨?_, ?_, ?_, raises_of_jump (i := .jcxz rel) (s := s) rfl hr (jcxzBody_run rel s.begin) rfl hlt⟩
    · have := loop (.loop rel) (fun _ => true) rfl
      rwa [Bool.and_true, bne_iff_ne] at this
    · have := loop (.loope rel) (fun z => z) rfl
      rwa [iff] at this
    · have := loop (.loopne rel) (fun z => !z) rfl
      rwa [iff, Bool.not_eq_true'] at this

/-! ### Near JMP, CALL and RET -/

section
variable {s s1 : State} {x : Nat}

theorem jmpBody_rel (rel : DWord) (s : State) : jmpBody (.rel rel) s = nearJump (relTarget s rel) s := rfl
theorem jmpBody_rel8 (rel : Byte) (s : State) : jmpBody (.rel8 rel) s = nearJump (rel8Target s rel) s := rfl
theorem callBody_rel (rel : DWord) (s : State) : callBody (.rel rel) s = nearCall (relTarget s rel) s := rfl

theorem jmpBody_ev {m : Rm} (h : readRm s.osz.width m s = .ok x s1) : jmpBody (.ev m) s = nearJump x s1 := by
  simp only [jmpBody, M.bind_run, M.get_run, h]

theorem callBody_ev {m : Rm} (h : readRm s.osz.width m s = .ok x s1) : callBody (.ev m) s = nearCall x s1 := by
  simp only [callBody, M.bind_run, M.get_run, h]

theorem nearCall_run {t : Nat} {ps : List BytePlace} (h : t % 2 ^ s.osz.bits ≤ s.segs.cs.hid.limit.toNat)
    (hl : locate .ss (s.spMinus s.osz.bytes) s.osz.bytes s.osz.bytes true s = .ok ps s1) :
    nearCall t s = .ok () (((s1.wrote ps (s.eip.toNat % 2 ^ s.osz.bits)).withSP (s.spMinus s.osz.bytes)).withEip
      (t % 2 ^ s.osz.bits)) := by
  simp only [nearCall, M.bind_run, nearTarget_ok h, M.get_run, push_run hl]
  rfl

theorem nearCall_beyond {t : Nat} (h : s.segs.cs.hid.limit.toNat < t % 2 ^ s.osz.bits) : nearCall t s = raiseGP 0 s := by
  simp only [nearCall, M.bind_run, nearTarget_beyond h, raiseGP_run]

theorem retBody_run {f : RetForm} (h : load .ss s.sp s.osz.bytes s.osz.bytes s = .ok x s1)
    (hle : x % 2 ^ s.osz.bits ≤ s.segs.cs.hid.limit.toNat) :
    let t := (s1.withSP (s.sp + s.osz.bytes)).withEip (x % 2 ^ s.osz.bits)
    retBody f s = .ok () (t.withSP (t.sp + RetForm.params f)) := by
  intro t
  have reads := load_reads h
  have hosz : (s1.withSP (s.sp + s.osz.bytes)).osz = s.osz := reads.osz
  have jump := nearJump_ok (s := s1.withSP (s.sp + s.osz.bytes)) (t := x) (by
    rw [hosz, State.withSP_segs, reads.segs]; exact hle)
  rw [hosz] at jump
  simp only [retBody, M.bind_run, M.get_run, pop_run h, jump, setSP_run]
  rfl

theorem retBody_beyond {f : RetForm} (h : load .ss s.sp s.osz.bytes s.osz.bytes s = .ok x s1)
    (hlt : s.segs.cs.hid.limit.toNat < x % 2 ^ s.osz.bits) :
    retBody f s = raiseGP 0 (s1.withSP (s.sp + s.osz.bytes)) := by
  have reads := load_reads h
  have hosz : (s1.withSP (s.sp + s.osz.bytes)).osz = s.osz := reads.osz
  have jump := nearJump_beyond (s := s1.withSP (s.sp + s.osz.bytes)) (t := x) (by
    rw [hosz, State.withSP_segs, reads.segs]; exact hlt)
  simp only [retBody, M.bind_run, M.get_run, pop_run h, jump, raiseGP_run]

end

/-- Settles O27. -/
theorem nearTransfers : Obligations.NearTransfers := by
  refine ⟨?_, ?_, ?_⟩
  · intro m rel rel8 x s s1 hr z lim dest back
    refine ⟨fun h => ?_, fun h => ?_, fun hx h => ?_, fun ps s2 h hl => ?_, fun ps s2 hx h hl => ?_⟩
    · exact completes_of_reads (l := false) rfl hr ((jmpBody_rel rel s.begin).trans (nearJump_ok (s := s.begin) h))
        (State.Reads.refl _) rfl
    · exact completes_of_reads (l := false) rfl hr ((jmpBody_rel8 rel8 s.begin).trans (nearJump_ok (s := s.begin) h))
        (State.Reads.refl _) rfl
    · have reads := readRm_reads hx
      have hosz : s1.osz = z := reads.osz
      have body := (jmpBody_ev (s := s.begin) hx).trans (nearJump_ok (by rw [hosz, reads.segs]; exact h))
      rw [hosz] at body
      exact ⟨reads, completes_of_reads (l := false) rfl hr body reads rfl⟩
    · have reads := locate_reads hl
      have body := (callBody_rel rel s.begin).trans (nearCall_run (s := s.begin) h hl)
      exact ⟨reads, completes_of_ok (l := false) rfl hr body rfl (keeps_of_wrote reads rfl rfl rfl)⟩
    · have reads := readRm_reads hx
      have hosz : s1.osz = z := reads.osz
      have hsp : s1.spMinus z.bytes = s.spMinus z.bytes := reads.spMinus _
      have heip : s1.eip = s.begin.eip := reads.eip
      have body := (callBody_ev (s := s.begin) hx).trans (nearCall_run (t := x) (ps := ps) (s1 := s2)
        (by rw [hosz, reads.segs]; exact h) (by rw [hosz, hsp]; exact hl))
      rw [hosz, hsp, heip] at body
      have all := reads.trans (locate_reads hl)
      exact ⟨all, completes_of_ok (l := false) rfl hr body rfl (keeps_of_wrote all rfl rfl rfl)⟩
  · intro f x s s1 hr z h hle
    refine ⟨load_reads h, ?_⟩
    exact completes_of_reads (l := false) rfl hr (retBody_run (s := s.begin) h hle) (load_reads h) rfl
  · intro m rel rel8 f x s s1 hr z lim
    refine ⟨fun h => ⟨?_, ?_⟩, fun h => ?_, fun hx h => ?_, fun hl h => ?_⟩
    · exact raises_of_error (l := false) (k := false) rfl hr
        ((jmpBody_rel rel s.begin).trans (nearJump_beyond (s := s.begin) h))
    · exact raises_of_error (l := false) (k := false) rfl hr
        ((callBody_rel rel s.begin).trans (nearCall_beyond (s := s.begin) h))
    · exact raises_of_error (l := false) (k := false) rfl hr
        ((jmpBody_rel8 rel8 s.begin).trans (nearJump_beyond (s := s.begin) h))
    · have reads := readRm_reads hx
      have hlt : s1.segs.cs.hid.limit.toNat < x % 2 ^ s1.osz.bits := by
        rw [reads.osz, reads.segs]; exact h
      exact ⟨raises_of_error (l := false) (k := false) rfl hr ((jmpBody_ev (s := s.begin) hx).trans (nearJump_beyond hlt)),
        raises_of_error (l := false) (k := false) rfl hr ((callBody_ev (s := s.begin) hx).trans (nearCall_beyond hlt))⟩
    · exact raises_of_error (l := false) (k := false) (i := .ret f) (u := s1.withSP (s.sp + z.bytes)) rfl hr
        (retBody_beyond (f := f) (s := s.begin) hl h)

end Sys2Proof.Machine
end

section
/-! ## Far transfers: the checks of targets, and their frames -/
set_option Elab.async false

namespace Sys2Proof.Machine

/-! ### Frames of descriptor accesses -/

theorem linRead_reads {lin n v : Nat} {s t : State} (h : linRead lin n s = .ok v t) : s.Reads t := by
  unfold linRead at h
  obtain ⟨ps, u, h1, h2⟩ := M.bind_ok.1 h
  exact (linLocate_reads h1).trans (readBytes_reads h2)

theorem readDesc_reads {lin : Nat} {d : Desc} {s t : State} (h : readDesc lin s = .ok d t) : s.Reads t := by
  obtain ⟨v, u, h1, h2⟩ := M.bind_ok.1 h
  cases h2
  exact linRead_reads h1

theorem descSpot_reads {lin : Nat} {sp : Spot} {s t : State} (h : descSpot lin s = .ok sp t) : s.Reads t := by
  obtain ⟨lo, u, h1, h⟩ := M.bind_ok.1 h
  obtain ⟨hi, v, h2, h⟩ := M.bind_ok.1 h
  cases h
  exact (linLocate_reads h1).trans (linLocate_reads h2)

theorem markSpot_reads {lin : Nat} {d : Desc} {sp : Spot} {s t : State} (h : markSpot lin d s = .ok sp t) : s.Reads t := by
  unfold markSpot at h
  split at h
  · cases h; exact .refl _
  · exact descSpot_reads h

/-- The bytes a mark writes: the upper half of the descriptor. -/
def Spot.written (sp : Spot) : List BytePlace := (Option.getD sp []).drop 4

section
variable {sp : Spot} {bits : BitVec 4} {s t : State}

theorem setMark_touches (h : setMark sp bits s = .ok () t) : s.Touches t := by
  cases sp with
  | none => cases h; exact .refl s
  | some ps =>
    obtain ⟨v, u, h1, h2⟩ := M.bind_ok.1 h
    cases h2
    exact (readBytes_reads h1).touches.trans (wrote_touches ..)

theorem setMark_keeps (h : setMark sp bits s = .ok () t) : s.KeepsBut t (Spot.written sp) := by
  cases sp with
  | none => cases h; exact .of_eq rfl rfl rfl
  | some ps =>
    obtain ⟨v, u, h1, h2⟩ := M.bind_ok.1 h
    cases h2
    exact (State.KeepsBut.of_reads (readBytes_reads h1)).trans (.wrote u _ _)

end

theorem accessed_touches {a : Nat} {d : Desc} {h : Hidden} {s t : State} (hx : accessed a d s = .ok h t) : s.Touches t := by
  obtain ⟨sp, u, mark, set, -⟩ := accessed_ok hx
  exact (markSpot_reads mark).touches.trans (setMark_touches set)

section
variable {s t : State}

theorem State.Touches.segs (h : s.Touches t) : t.segs = s.segs := by rw [h]
theorem State.Touches.sp (h : s.Touches t) : t.sp = s.sp := by rw [h]; rfl
theorem State.Touches.cpl (h : s.Touches t) : t.cpl = s.cpl := by rw [h]

theorem State.Reads.descAddr (h : s.Reads t) (sel : Word) : t.descAddr sel = s.descAddr sel := by rw [h.1]; rfl

theorem State.Pops.segs {k : Nat} (h : s.Pops t k) : t.segs = s.segs := by
  obtain ⟨reads, -, -⟩ := h
  exact reads.segs

theorem State.Pops.pe {k : Nat} (h : s.Pops t k) : t.pe = s.pe := by
  obtain ⟨reads, -, -⟩ := h
  exact reads.pe

theorem State.Pops.cpl {k : Nat} (h : s.Pops t k) : t.cpl = s.cpl := by
  obtain ⟨reads, -, -⟩ := h
  exact reads.cpl

end

/-! ### Targets of far jumps and calls -/

section
variable {sel : Word} {off : DWord} {s s1 : State} {a : Nat} {d : Desc}

theorem farTarget_real (hp : s.pe = false) (h : off ≤ s.segs.cs.hid.limit) :
    farTarget sel off s = .ok { cs := s.segs.cs.realLoad sel, off := off, mark := none } s := by
  simp [farTarget, hp, BitVec.not_lt.2 h]

theorem farTarget_real_beyond (hp : s.pe = false) (h : s.segs.cs.hid.limit < off) : farTarget sel off s = raiseGP 0 s := by
  simp [farTarget, hp, h]

theorem farTarget_null (hp : s.pe = true) (h : isNull sel = true) : farTarget sel off s = raiseGP 0 s := by
  simp [farTarget, hp, h]

theorem farTarget_beyond (hp : s.pe = true) (h : isNull sel = false) (ha : s.descAddr sel = none) :
    farTarget sel off s = raiseGP (selCode sel) s := by
  simp [farTarget, hp, h, needDesc_none ha]

theorem farTarget_system (hp : s.pe = true) (h : isNull sel = false) (ha : s.descAddr sel = some a) (hd : readDesc a s = .ok d s1)
    (hs : d.s = false) : farTarget sel off s = farSystem sel d.type s1 := by
  simp [farTarget, hp, h, needDesc_some ha hd, hs]

/-- The privilege check of a far jump or call. -/
def Desc.entersFrom (d : Desc) (cpl rpl : BitVec 2) : Prop :=
  if d.hidden.conforming = true then d.dpl ≤ cpl else rpl ≤ cpl ∧ d.dpl = cpl

theorem Desc.entersFrom_iff (d : Desc) (cpl rpl : BitVec 2) : d.entersFrom cpl rpl ↔
    ¬ (d.hidden.conforming && decide (cpl < d.dpl)) = true ∧
    ¬ (!d.hidden.conforming && (decide (cpl < rpl) || d.dpl != cpl)) = true := by
  unfold Desc.entersFrom
  cases d.hidden.conforming <;> simp

theorem farTarget_unfit (hp : s.pe = true) (h : isNull sel = false) (ha : s.descAddr sel = some a) (hd : readDesc a s = .ok d s1)
    (hs : d.s = true) (bad : d.hidden.isCode = false ∨ ¬ d.entersFrom s.cpl (selRPL sel)) :
    farTarget sel off s = raiseGP (selCode sel) s1 := by
  rw [Desc.entersFrom_iff, not_and_or, not_not, not_not] at bad
  simp only [farTarget, M.bind_run, M.get_run, hp, h, needDesc_some ha hd, hs, Bool.not_true, Bool.false_eq_true, if_false]
  by_cases hc : d.hidden.isCode = true
  · by_cases h1 : (d.hidden.conforming && decide (s.cpl < d.dpl)) = true
    · simp only [hc, h1, Bool.not_true, Bool.false_eq_true, if_false, if_true, M.bind_run, raiseGP_run]
    · have h2 := (bad.resolve_left (by rw [hc]; exact Bool.noConfusion)).resolve_left h1
      simp only [hc, h1, h2, Bool.not_true, Bool.false_eq_true, if_false, if_true, M.bind_run, raiseGP_run]
  · rw [Bool.not_eq_true] at hc
    simp only [hc, Bool.not_false, if_true, M.bind_run, raiseGP_run]

theorem farTarget_fit (hp : s.pe = true) (h : isNull sel = false) (ha : s.descAddr sel = some a) (hd : readDesc a s = .ok d s1)
    (hc : d.hidden.isCode = true) (fit : d.entersFrom s.cpl (selRPL sel)) :
    farTarget sel off s =
      if d.present = false then raiseNP (selCode sel) s1
      else if d.limit < off then raiseGP 0 s1
      else (do
        let sp ← markSpot a d
        pure { cs := { sel := selCode sel ||| s.cpl.setWidth 16, hid := d.marked }, off := off, mark := sp } : M FarTarget) s1 := by
  obtain ⟨h1, h2⟩ := (d.entersFrom_iff s.cpl (selRPL sel)).1 fit
  have hs : d.s = true := (Bool.and_eq_true_iff.1 hc).1
  simp only [farTarget, M.bind_run, M.get_run, hp, h, needDesc_some ha hd, hs, hc, h1, h2, Bool.not_true, Bool.false_eq_true,
    if_false]
  by_cases hpres : d.present = true
  · by_cases ho : d.limit < off <;> simp [hpres, ho]
  · simp [hpres]

/-- A target that `FarCode` describes is found. -/
theorem farTarget_code {u v : State} {cs : SegReg} {sp : Spot} (hp : u.pe = true) (reads : s.Reads u)
    (h : s.FarCode sel off u cs sp v) : farTarget sel off u = .ok { cs := cs, off := off, mark := sp } v := by
  obtain ⟨a, d, w, null, ha, hd, code, fit, present, limit, mark, rfl⟩ := h
  have fit' : d.entersFrom u.cpl (selRPL sel) := by rw [reads.cpl]; exact fit
  rw [farTarget_fit hp null ((reads.descAddr sel).trans ha) hd code fit', if_neg (by rw [present]; exact Bool.noConfusion),
    if_neg (BitVec.not_lt.2 limit), M.bind_run, mark, reads.cpl]
  rfl

theorem State.FarCode.reads {u v : State} {cs : SegReg} {sp : Spot} (h : s.FarCode sel off u cs sp v) : u.Reads v := by
  obtain ⟨a, d, w, null, ha, hd, code, fit, present, limit, mark, -⟩ := h
  exact (readDesc_reads hd).trans (markSpot_reads mark)

/-! ### Targets of far returns -/

theorem returnTarget_null (h : isNull sel = true) : returnTarget sel off s = raiseGP 0 s := by
  simp [returnTarget, h]

theorem returnTarget_beyond (h : isNull sel = false) (ha : s.descAddr sel = none) :
    returnTarget sel off s = raiseGP (selCode sel) s := by
  simp [returnTarget, h, needDesc_none ha]

/-- The checks of the type and the privilege of the code segment a far return goes to. -/
def Desc.returnsTo (d : Desc) (cpl rpl : BitVec 2) : Prop :=
  d.hidden.isCode = true ∧ cpl ≤ rpl ∧ if d.hidden.conforming = true then d.dpl ≤ rpl else d.dpl = rpl

theorem Desc.returnsTo_iff (d : Desc) (cpl rpl : BitVec 2) : d.returnsTo cpl rpl ↔
    ¬ (!d.hidden.isCode || decide (rpl < cpl)) = true ∧ ¬ (d.hidden.conforming && decide (rpl < d.dpl)) = true ∧
    ¬ (!d.hidden.conforming && d.dpl != rpl) = true := by
  unfold Desc.returnsTo
  cases d.hidden.isCode <;> cases d.hidden.conforming <;> simp

theorem returnTarget_unfit (h : isNull sel = false) (ha : s.descAddr sel = some a) (hd : readDesc a s = .ok d s1)
    (bad : ¬ d.returnsTo s.cpl (selRPL sel)) : returnTarget sel off s = raiseGP (selCode sel) s1 := by
  rw [Desc.returnsTo_iff] at bad
  simp only [returnTarget, M.bind_run, M.get_run, h, needDesc_some ha hd, Bool.false_eq_true, if_false]
  by_cases h1 : (!d.hidden.isCode || decide (selRPL sel < s.cpl)) = true
  · simp only [h1, if_true, M.bind_run, raiseGP_run]
  · by_cases h2 : (d.hidden.conforming && decide (selRPL sel < d.dpl)) = true
    · simp only [h1, h2, Bool.false_eq_true, if_true, if_false, M.bind_run, raiseGP_run]
    · have h3 : (!d.hidden.conforming && d.dpl != selRPL sel) = true := by
        by_contra h3
        exact bad ⟨h1, h2, h3⟩
      simp only [h1, h2, h3, Bool.false_eq_true, if_true, if_false, M.bind_run, raiseGP_run]

theorem returnTarget_fit (h : isNull sel = false) (ha : s.descAddr sel = some a) (hd : readDesc a s = .ok d s1)
    (fit : d.returnsTo s.cpl (selRPL sel)) :
    returnTarget sel off s =
      if d.present = false then raiseNP (selCode sel) s1 else if d.limit < off then raiseGP 0 s1 else .ok (a, d) s1 := by
  obtain ⟨h1, h2, h3⟩ := (d.returnsTo_iff s.cpl (selRPL sel)).1 fit
  simp only [returnTarget, M.bind_run, M.get_run, h, needDesc_some ha hd, h1, h2, h3, Bool.false_eq_true, if_false]
  by_cases hp : d.present = true
  · by_cases ho : d.limit < off <;> simp [hp, ho]
  · simp [hp]

end

/-! ### Far transfers -/

section
variable {s s1 s2 t : State} {sel : Word} {off : DWord}

theorem commitFar_run {ft : FarTarget} (h : setMark ft.mark 1 s = .ok () t) :
    commitFar ft s = .ok () ((t.withSeg .cs ft.cs).withEip ft.off.toNat) := by
  simp only [commitFar, M.bind_run, h, setSeg_run]
  rfl

theorem farCall_run {ft : FarTarget} {v : State} {pss : List (List BytePlace)} {u : Word} {c : Nat}
    (hf : farTarget sel off s = .ok ft v) (hu : freeHigh v.osz v.segs.cs.sel v = .ok (withUpper v.osz u v.segs.cs.sel) { v with freeCtr := c })
    (hp : pushPlaces v.osz.bytes v.osz.bytes 2 0 { v with freeCtr := c } = .ok pss s2)
    (hm : setMark ft.mark 1 ((s2.wroteAll pss [withUpper v.osz u v.segs.cs.sel, v.eip.toNat % 2 ^ v.osz.bits]).withSP
      (v.spMinus (v.osz.bytes * 2))) = .ok () t) :
    farCall sel off s = .ok () ((t.withSeg .cs ft.cs).withEip ft.off.toNat) := by
  have push := pushList_run (vs := [withUpper v.osz u v.segs.cs.sel, v.eip.toNat % 2 ^ v.osz.bits]) hp
  simp only [farCall, M.bind_run, hf, M.get_run, hu]
  rw [push]
  exact commitFar_run hm

theorem farCall_error {e : Stop} (h : farTarget sel off s = .error e t) : farCall sel off s = .error e t := by
  simp only [farCall, M.bind_run, h]

theorem farReturn_real (n imm : Nat) (hp : s.pe = false) :
    farReturn n imm sel off s = .ok () (((s.withSeg .cs (s.segs.cs.realLoad sel)).withEip off.toNat).withSP (s.sp + imm)) := by
  simp [farReturn, hp]

theorem farReturn_error {n imm : Nat} {e : Stop} (hp : s.pe = true) (h : returnTarget sel off s = .error e t) :
    farReturn n imm sel off s = .error e t := by
  simp [farReturn, hp, h]

theorem farReturn_same {n imm a : Nat} {d : Desc} {h : Hidden} (hp : s.pe = true) (ht : returnTarget sel off s = .ok (a, d) s1)
    (hr : selRPL sel = s.cpl) (hx : accessed a d s1 = .ok h s2) :
    farReturn n imm sel off s =
      .ok () (((s2.withSeg .cs { sel := sel, hid := h }).withEip off.toNat).withSP (s.sp + imm)) := by
  simp [farReturn, hp, ht, hr, hx]

theorem returnTarget_reads {a : Nat} {d : Desc} (h : returnTarget sel off s = .ok (a, d) t) : s.Reads t := by
  by_cases null : isNull sel = true
  · rw [returnTarget_null null] at h; cases h
  · rw [Bool.not_eq_true] at null
    cases ha : s.descAddr sel with
    | none => rw [returnTarget_beyond null ha] at h; cases h
    | some b =>
      cases hd : readDesc b s with
      | error e u =>
        simp only [returnTarget, M.bind_run, M.get_run, null, needDesc, findDesc, ha, hd, Bool.false_eq_true, if_false] at h
        cases h
      | ok d' u =>
        by_cases fit : d'.returnsTo s.cpl (selRPL sel)
        · rw [returnTarget_fit null ha hd fit] at h
          by_cases hp : d'.present = false
          · rw [if_pos hp] at h; cases h
          · rw [if_neg hp] at h
            by_cases ho : d'.limit < off
            · rw [if_pos ho] at h; cases h
            · rw [if_neg ho] at h; cases h; exact readDesc_reads hd
        · rw [returnTarget_unfit null ha hd fit] at h; cases h

theorem SegReg.afterReturn_eq (r : SegReg) (cpl : BitVec 2) : r.afterReturn cpl = r.keptFor cpl := by
  unfold SegReg.afterReturn SegReg.keptFor Hidden.conforming Hidden.isData Hidden.isCode
  congr 1
  cases r.hid.s <;> cases r.hid.type.getLsbD 3 <;> cases r.hid.type.getLsbD 2 <;> simp

theorem checkSS_reads {cpl : BitVec 2} {code : Word} {h : Hidden} {sp : Spot}
    (hx : checkSS sel cpl (raiseGP 0) (raiseGP code) s = .ok (h, sp) t) : s.Reads t := by
  by_cases null : isNull sel = true
  · rw [checkSS_null null] at hx; cases hx
  · rw [Bool.not_eq_true] at null
    cases ha : s.descAddr sel with
    | none => rw [checkSS_beyond null ha] at hx; cases hx
    | some b =>
      cases hd : readDesc b s with
      | error e u =>
        simp only [checkSS, M.bind_run, null, needDesc, findDesc, M.get_run, ha, hd, Bool.false_eq_true, if_false] at hx
        cases hx
      | ok d u =>
        rw [checkSS_run null ha hd] at hx
        split at hx
        · cases hx
        · split at hx
          · cases hx
          · obtain ⟨sp', w, mark, rest⟩ := M.bind_ok.1 hx
            cases rest
            exact (readDesc_reads hd).trans (markSpot_reads mark)

/-- Two pops as the body of an instruction makes them. -/
theorem popMany_two {n a b : Nat} (h : popMany n 2 s = .ok [a, b] t) :
    ∃ u : State, pop n s = .ok a u ∧ pop n u = .ok b t := by
  obtain ⟨_, _, u, h1, k1, e1⟩ := popMany_succ h
  cases e1
  obtain ⟨_, _, w, h2, k2, e2⟩ := popMany_succ k1
  cases e2
  cases k2
  exact ⟨u, h1, h2⟩

/-- The return to an outer level is what `ReturnsOuter` describes. -/
theorem farReturn_outer {n imm a : Nat} {d : Desc} (hp : s.pe = true) (ht : returnTarget sel off s = .ok (a, d) s1)
    (hr : selRPL sel ≠ s.cpl) (h : s1.ReturnsOuter n imm sel off a d t) : farReturn n imm sel off s = .ok () t := by
  obtain ⟨esp, ss, hid, ssSpot, csSpot, u1, u2, u3, u4, u5, pops, check, mark, setSS, setCS, rfl⟩ := h
  obtain ⟨v, pop1, pop2⟩ := popMany_two pops
  have reads := returnTarget_reads ht
  have segs : u5.segs = s1.segs := by
    rw [(setMark_touches setCS).segs, (setMark_touches setSS).segs, (markSpot_reads mark).segs, (checkSS_reads check).segs,
      (popMany_pops pops).segs]
    rfl
  rw [reads.sp] at pop1
  simp only [farReturn, M.bind_run, M.get_run, hp, ht, Bool.not_true, Bool.false_eq_true, if_false, beq_eq_false_iff_ne.2 hr,
    setSP_run, pop1, pop2]
  rw [show checkSS (BitVec.ofNat 16 ss) (selRPL sel) (raiseGP 0) (raiseGP (selCode (BitVec.ofNat 16 ss))) u1 = .ok (hid, ssSpot) u2
    from check]
  simp only [mark, setSS, setCS, M.modify_run, segs, SegReg.afterReturn_eq]
  rfl

end

end Sys2Proof.Machine
end

section
/-! ## The size of what is read, and far JMP, CALL and RETF -/
set_option Elab.async false

namespace Sys2Proof.Machine

/-! ### Reads give no more bits than they ask for -/

theorem memValue_lt (m : Memory) (n : Nat) : ∀ a : Nat, memValue m a n < 2 ^ (8 * n) := by
  induction n with
  | zero => exact fun _ => Nat.one_pos
  | succ n ih =>
    intro a
    have low := (memRead m a).isLt
    have high := ih (a + 1)
    rw [memValue, Nat.mul_succ, Nat.pow_add, show (2 : Nat) ^ 8 = 256 from rfl]
    omega

section
variable {locked : Bool} {ps : List BytePlace} {v : Nat} {s t : State}

theorem busRead_lt {code : Bool} {attr : Attr} {a n : Nat} (h : busRead code attr a n s = .ok v t) : v < 2 ^ (8 * n) := by
  have pos := Nat.two_pow_pos (8 * n)
  unfold busRead at h
  simp only at h
  split at h <;> cases h
  · exact memValue_lt _ _ _
  · exact memValue_lt _ _ _
  · exact Nat.mod_lt _ pos
  · exact Nat.mod_lt _ pos

theorem blockValue_lt (d : BitVec 128) (a n : Nat) : blockValue d a n < 2 ^ (8 * n) := Nat.mod_lt _ (Nat.two_pow_pos _)

theorem physRead_lt {attr : Attr} {pa n : Nat} (h : physRead locked attr pa n s = .ok v t) : v < 2 ^ (8 * n) := by
  unfold physRead at h
  simp only at h
  split at h
  · cases h; exact blockValue_lt _ _ _
  · split at h
    · obtain ⟨d, u, h1, h⟩ := M.bind_ok.1 h
      obtain ⟨_, w, h2, h⟩ := M.bind_ok.1 h
      cases h
      exact blockValue_lt _ _ _
    · exact busRead_lt h

theorem readTransfer_lt (h : readTransfer locked ps s = .ok v t) : v < 2 ^ (8 * ps.length) := by
  cases ps with
  | nil => cases h; exact Nat.one_pos
  | cons p ps => exact physRead_lt h

theorem lowPart_le (ps : List BytePlace) : lowPart ps ≤ ps.length := by
  cases ps with
  | nil => exact le_refl 0
  | cons p ps => exact min_le_left _ _

/-- Two numbers side by side. -/
theorem add_mul_two_pow_lt {x y a b : Nat} (hx : x < 2 ^ a) (hy : y < 2 ^ b) : x + y * 2 ^ a < 2 ^ (a + b) := by
  rw [Nat.pow_add, Nat.mul_comm (2 ^ a)]
  calc x + y * 2 ^ a < 2 ^ a + y * 2 ^ a := by omega
    _ = (y + 1) * 2 ^ a := by rw [Nat.succ_mul, Nat.add_comm]
    _ ≤ 2 ^ b * 2 ^ a := Nat.mul_le_mul_right _ hy

theorem readPiece_lt (h : readPiece locked ps s = .ok v t) : v < 2 ^ (8 * ps.length) := by
  obtain ⟨hi, u, h1, h⟩ := M.bind_ok.1 h
  obtain ⟨lo, w, h2, h⟩ := M.bind_ok.1 h
  cases h
  have hk := lowPart_le ps
  have high := readTransfer_lt h1
  have low := readTransfer_lt h2
  rw [List.length_drop] at high
  rw [List.length_take, min_eq_left hk] at low
  have := add_mul_two_pow_lt low high
  rwa [← Nat.mul_add, Nat.add_sub_of_le hk] at this

theorem readPieces_lt (locked : Bool) (ps : List BytePlace) :
    ∀ (v : Nat) (s t : State), readPieces locked (pieces ps) s = .ok v t → v < 2 ^ (8 * ps.length) := by
  induction ps using pieces.induct with
  | case1 p q r x ps ih =>
    intro v s t h
    rw [pieces] at h
    obtain ⟨low, u, h1, h⟩ := M.bind_ok.1 h
    obtain ⟨rest, w, h2, h⟩ := M.bind_ok.1 h
    cases h
    have := add_mul_two_pow_lt (readPiece_lt h1) (ih _ _ _ h2)
    rw [Nat.mul_comm rest] at this
    exact lt_of_lt_of_eq this (by simp only [List.length_cons, List.length_nil]; congr 1; ring)
  | case2 => intro v s t h; cases h; exact Nat.one_pos
  | case3 ps h1 h2 =>
    intro v s t h
    rw [pieces] at h
    · obtain ⟨low, u, hp, h⟩ := M.bind_ok.1 h
      cases h
      exact lt_of_eq_of_lt (Nat.add_zero _) (readPiece_lt hp)
    all_goals assumption

theorem readBytes_lt (h : readBytes locked ps s = .ok v t) : v < 2 ^ (8 * ps.length) := readPieces_lt _ _ _ _ _ h

end

/-! ### Operands have the bytes asked for -/

theorem places_length (pa : Nat) (attr : Attr) (n : Nat) : (places pa attr n).length = n := by
  rw [places, List.length_map, List.length_range]

section
variable {n al v : Nat} {ps : List BytePlace} {s t : State}

theorem linLocate_length {lin : Nat} {w u : Bool} (h : linLocate lin n w u s = .ok ps t) : ps.length = n := by
  unfold linLocate at h
  obtain ⟨⟨p1, c1⟩, t1, h1, h⟩ := M.bind_ok.1 h
  simp only at h
  have le : firstPart lin n ≤ n := min_le_left _ _
  split at h
  · obtain ⟨⟨p2, c2⟩, t2, h2, h⟩ := M.bind_ok.1 h
    cases h
    rw [List.length_append, places_length, places_length]
    omega
  · cases h
    rw [places_length]
    omega

theorem locate_length {sr : SegName} {off : Nat} {w : Bool} (h : locate sr off n al w s = .ok ps t) : ps.length = n := by
  obtain ⟨lin, t0, h0, h⟩ := M.bind_ok.1 h
  obtain ⟨_, t1, h1, h⟩ := M.bind_ok.1 h
  obtain ⟨_, t2, h2, h⟩ := M.bind_ok.1 h
  obtain ⟨qs, t3, h3, h⟩ := M.bind_ok.1 h
  obtain ⟨_, t4, h4, h5⟩ := M.bind_ok.1 h
  cases h5
  exact linLocate_length h3

theorem load_lt {sr : SegName} {off : Nat} (h : load sr off n al s = .ok v t) : v < 2 ^ (8 * n) := by
  obtain ⟨ps, t0, h0, h⟩ := M.bind_ok.1 h
  have := readBytes_lt h
  rwa [locate_length h0] at this

theorem loadMem_lt {m : Mem} {d : Nat} (h : loadMem m d n al s = .ok v t) : v < 2 ^ (8 * n) := by
  obtain ⟨_, t0, h0, h⟩ := M.bind_ok.1 h
  exact load_lt h

theorem State.ReadsFar.lt {m : Mem} {off : Nat} {sel : Word} (h : s.ReadsFar m off sel t) : off < 2 ^ 32 := by
  obtain ⟨x, u, h1, -, -⟩ := h
  refine lt_of_lt_of_le (loadMem_lt h1) (Nat.pow_le_pow_right two_pos ?_)
  cases s.osz <;> decide

end

end Sys2Proof.Machine
end

section
/-! ## Far JMP, CALL and RETF -/
set_option Elab.async false

namespace Sys2Proof.Machine

/-! ### The bodies of the far forms -/

section
variable {s s1 s2 t u v : State} {sel q : Word} {off : DWord} {m : Mem} {o : Nat} {ft : FarTarget}

/-- A far jump once its target is known. -/
def farJump (sel : Word) (off : DWord) : M Unit := do
  let t ← farTarget sel off
  commitFar t

theorem jmpBody_far (off : DWord) (sel : Word) (s : State) : jmpBody (.far off sel) s = farJump sel off s := rfl
theorem callBody_far (off : DWord) (sel : Word) (s : State) : callBody (.far off sel) s = farCall sel off s := rfl

theorem jmpBody_mp (h : s.ReadsFar m o q s1) : jmpBody (.mp m) s = farJump q (BitVec.ofNat 32 o) s1 := by
  simp only [jmpBody, farJump, M.bind_run, M.get_run, loadFar_run h]

theorem callBody_mp (h : s.ReadsFar m o q s1) : callBody (.mp m) s = farCall q (BitVec.ofNat 32 o) s1 := by
  simp only [callBody, M.bind_run, M.get_run, loadFar_run h]

theorem farJump_run (hf : farTarget sel off s = .ok ft v) (hm : setMark ft.mark 1 v = .ok () t) :
    farJump sel off s = .ok () ((t.withSeg .cs ft.cs).withEip ft.off.toNat) := by
  simp only [farJump, M.bind_run, hf, commitFar_run hm]

theorem farJump_error {e : Stop} (h : farTarget sel off s = .error e t) : farJump sel off s = .error e t := by
  simp only [farJump, M.bind_run, h]

/-- A far call pushes CS and EIP and then goes, after reads only; what is written are the pushes and the mark. -/
theorem farCall_pushes (reads : s.Reads v) (hf : farTarget sel off u = .ok ft v) :
    ∃ (w : Word) (c : Nat), ∀ (pss : List (List BytePlace)) (s2 t : State),
      pushPlaces s.osz.bytes s.osz.bytes 2 0 { v with freeCtr := c } = .ok pss s2 →
      setMark ft.mark 1 ((s2.wroteAll pss [withUpper s.osz w s.segs.cs.sel, s.eip.toNat % 2 ^ s.osz.bits]).withSP
        (s.spMinus (s.osz.bytes * 2))) = .ok () t →
      farCall sel off u = .ok () ((t.withSeg .cs ft.cs).withEip ft.off.toNat) ∧
      s.KeepsBut t (pss.flatten ++ Spot.written ft.mark) := by
  obtain ⟨w, c, free⟩ := freeHigh_run v.osz v.segs.cs.sel v
  refine ⟨w, c, fun pss s2 t hp hm => ⟨?_, ?_⟩⟩
  · rw [← reads.osz, ← reads.segs, ← reads.eip, ← reads.spMinus] at hm
    rw [← reads.osz] at hp
    exact farCall_run hf free hp hm
  · have before : s.KeepsBut s2 [] :=
      .of_reads ((reads.trans (reads_freeCtr v c)).trans (pushPlaces_reads hp))
    have pushed := before.trans (.wroteAll pss [withUpper s.osz w s.segs.cs.sel, s.eip.toNat % 2 ^ s.osz.bits] s2)
    have moved : (s2.wroteAll pss [withUpper s.osz w s.segs.cs.sel, s.eip.toNat % 2 ^ s.osz.bits]).KeepsBut
        ((s2.wroteAll pss [withUpper s.osz w s.segs.cs.sel, s.eip.toNat % 2 ^ s.osz.bits]).withSP (s.spMinus (s.osz.bytes * 2))) [] :=
      .of_eq rfl rfl rfl
    exact ((pushed.trans moved).trans (setMark_keeps hm)).mono (by simp)

theorem retfBody_run {f : RetForm} {o q : Nat} (h : popMany s.osz.bytes 2 s = .ok [o, q] s1) :
    retfBody f s = farReturn s.osz.bytes (RetForm.params f) (BitVec.ofNat 16 q) (BitVec.ofNat 32 o) s1 := by
  obtain ⟨u, h1, h2⟩ := popMany_two h
  simp only [retfBody, M.bind_run, M.get_run, h1, h2]

end

/-! ### Far JMP and CALL that stop -/

section
variable {s s1 : State} {sel : Word} {off : DWord}

/-- A far JMP or CALL whose target's check raises. -/
theorem raises_of_farTarget {v : Byte} {c : Option Word} (hr : s.Ready false)
    (h : farTarget sel off s.begin = .error (.exn { vector := v, code := c, cls := .fault }) s1) :
    Raises (.jmp (.far off sel)) s s1 v c ∧ Raises (.call (.far off sel)) s s1 v c :=
  ⟨raises_of_error (l := false) (k := false) rfl hr ((jmpBody_far off sel s.begin).trans (farJump_error h)),
   raises_of_error (l := false) (k := false) rfl hr ((callBody_far off sel s.begin).trans (farCall_error h))⟩

theorem refuses_of_farTarget {r : Refusal} (hr : s.Ready false) (h : farTarget sel off s.begin = .error (.refuse r) s1) :
    exec (.jmp (.far off sel)) s = .refused r ∧ exec (.call (.far off sel)) s = .refused r :=
  ⟨runInstr_refuse hr ((jmpBody_far off sel s.begin).trans (farJump_error h)),
   runInstr_refuse hr ((callBody_far off sel s.begin).trans (farCall_error h))⟩

theorem farSystem_callGate {type : BitVec 4} (h : type.toNat = 4 ∨ type.toNat = 12) :
    farSystem sel type s = .error (.refuse .callGate) s := by
  rcases h with h | h <;> simp [farSystem, h]

theorem farSystem_task {type : BitVec 4} (h : type.toNat ∈ [1, 5, 9]) :
    farSystem sel type s = .error (.refuse .taskSwitch) s := by
  simp only [List.mem_cons, List.not_mem_nil, or_false] at h
  rcases h with h | h | h <;> simp [farSystem, h]

theorem farSystem_other {type : BitVec 4} (h : type.toNat ∉ [1, 4, 5, 9, 12]) :
    farSystem sel type s = raiseGP (selCode sel) s := by
  have raises : farSystem sel type = raiseGP (selCode sel) := by
    unfold farSystem
    split <;> simp_all
  rw [raises]

end

/-! ### Real mode -/

/-- CS and EIP after a far transfer in real mode. -/
def State.farReal (s t : State) (sel : Word) (off : Nat) : State := (t.withSeg .cs (s.segs.cs.realLoad sel)).withEip off

section
variable {s s1 : State} {sel : Word} {off : DWord}

theorem farTransfers_real_jmp {i : Instr} {body : M Unit} (hr : s.Ready false) (hi : exec i s = runInstr false false body s)
    (hb : body s.begin = farJump sel off s1) (reads : s.begin.Reads s1) (hp : s.pe = false) (ho : off ≤ s.segs.cs.hid.limit) :
    Completes i s ((s.farReal s1 sel off.toNat).complete false) [] := by
  have target := farTarget_real (sel := sel) (off := off) (s := s1) (reads.pe.trans hp) (by rw [reads.segs]; exact ho)
  have run := hb.trans (farJump_run target rfl)
  rw [reads.segs] at run
  exact completes_of_reads hi hr run reads rfl

theorem farTransfers_real_call {i : Instr} {body : M Unit} (hr : s.Ready false) (hi : exec i s = runInstr false false body s)
    (hb : body s.begin = farCall sel off s1) (reads : s.begin.Reads s1) (hp : s.pe = false) (ho : off ≤ s.segs.cs.hid.limit) :
    ∃ (u : Word) (c : Nat), ∀ (pss : List (List BytePlace)) (s2 : State),
      pushPlaces s.osz.bytes s.osz.bytes 2 0 { s1 with freeCtr := c } = .ok pss s2 →
      Completes i s ((s.farReal ((s2.wroteAll pss [withUpper s.osz u s.segs.cs.sel, s.begin.eip.toNat % 2 ^ s.osz.bits]).withSP
        (s.spMinus (s.osz.bytes * 2))) sel off.toNat).complete false) pss.flatten := by
  have target := farTarget_real (sel := sel) (off := off) (s := s1) (reads.pe.trans hp) (by rw [reads.segs]; exact ho)
  rw [reads.segs] at target
  obtain ⟨u, c, call⟩ := farCall_pushes reads target
  refine ⟨u, c, fun pss s2 h => ?_⟩
  obtain ⟨run, keeps⟩ := call pss s2 _ h rfl
  exact completes_of_ok hi hr (hb.trans run) rfl ((keeps.mono (by simp [Spot.written])).keepsMemory rfl)

/-- A far pointer read in real mode that lies beyond the limit. -/
theorem farTarget_real_beyond_read {m : Mem} {o : Nat} {q : Word} (hp : s.pe = false) (h : s.begin.ReadsFar m o q s1)
    (ho : s.segs.cs.hid.limit.toNat < o) : farTarget q (BitVec.ofNat 32 o) s1 = raiseGP 0 s1 := by
  have reads := h.reads
  refine farTarget_real_beyond (reads.pe.trans hp) ?_
  rw [reads.segs, BitVec.lt_def, BitVec.toNat_ofNat, Nat.mod_eq_of_lt h.lt]
  exact ho

theorem farTransfers_retf_real {f : RetForm} {o q : Nat} (hr : s.Ready false) (hp : s.pe = false)
    (h : popMany s.osz.bytes 2 s.begin = .ok [o, q] s1) :
    let t := s.farReal s1 (BitVec.ofNat 16 q) (o % 2 ^ 32)
    exec (.retf f) s = .next ((t.withSP (t.sp + RetForm.params f)).complete false) := by
  intro t
  have pops := popMany_pops h
  have run := (retfBody_run (f := f) (s := s.begin) h).trans
    (farReturn_real s.begin.osz.bytes (RetForm.params f) (pops.pe.trans hp))
  rw [pops.segs, BitVec.toNat_ofNat] at run
  exact runInstr_ok hr run

end

theorem farTransfers_real (sel : Word) (off : DWord) (m : Mem) (s s1 : State) (hr : s.Ready false) (hp : s.pe = false) :
    let z := s.osz
    let go (t : State) (sel : Word) (off : Nat) : State :=
      (t.withSeg .cs { sel := sel, hid := { s.segs.cs.hid with base := sel.setWidth 32 <<< 4, valid := true } }).withEip off
    (off ≤ s.segs.cs.hid.limit →
      Completes (.jmp (.far off sel)) s ((go s.begin sel off.toNat).complete false) [] ∧
      ∃ (u : Word) (c : Nat), ∀ (pss : List (List BytePlace)) (s2 : State),
        pushPlaces z.bytes z.bytes 2 0 { s.begin with freeCtr := c } = .ok pss s2 →
        Completes (.call (.far off sel)) s
          ((go ((s2.wroteAll pss [withUpper z u s.segs.cs.sel, s.begin.eip.toNat % 2 ^ z.bits]).withSP (s.spMinus (z.bytes * 2)))
            sel off.toNat).complete false) pss.flatten) ∧
    (∀ (o : Nat) (q : Word), s.begin.ReadsFar m o q s1 → o ≤ s.segs.cs.hid.limit.toNat →
      s.begin.Reads s1 ∧ Completes (.jmp (.mp m)) s ((go s1 q o).complete false) [] ∧
      ∃ (u : Word) (c : Nat), ∀ (pss : List (List BytePlace)) (s2 : State),
        pushPlaces z.bytes z.bytes 2 0 { s1 with freeCtr := c } = .ok pss s2 →
        Completes (.call (.mp m)) s
          ((go ((s2.wroteAll pss [withUpper z u s.segs.cs.sel, s.begin.eip.toNat % 2 ^ z.bits]).withSP (s.spMinus (z.bytes * 2)))
            q o).complete false) pss.flatten) ∧
    (∀ (o : Nat) (q : Word), s.begin.ReadsFar m o q s1 → s.segs.cs.hid.limit.toNat < o →
      Raises (.jmp (.mp m)) s s1 13 (some 0) ∧ Raises (.call (.mp m)) s s1 13 (some 0)) ∧
    (∀ (f : RetForm) (o q : Nat), popMany z.bytes 2 s.begin = .ok [o, q] s1 →
      let t := go s1 (BitVec.ofNat 16 q) (o % 2 ^ 32)
      exec (.retf f) s = .next ((t.withSP (t.sp + RetForm.params f)).complete false)) ∧
    (s.segs.cs.hid.limit < off →
      Raises (.jmp (.far off sel)) s s.begin 13 (some 0) ∧ Raises (.call (.far off sel)) s s.begin 13 (some 0)) := by
  intro z go
  have refl := State.Reads.refl s.begin
  refine ⟨fun ho => ⟨farTransfers_real_jmp hr rfl (jmpBody_far off sel s.begin) refl hp ho,
      farTransfers_real_call hr rfl (callBody_far off sel s.begin) refl hp ho⟩, fun o q h ho => ?_, fun o q h ho => ?_,
    fun f o q h => farTransfers_retf_real hr hp h, fun ho => raises_of_farTarget hr (farTarget_real_beyond (s := s.begin) hp ho)⟩
  · have value : (BitVec.ofNat 32 o).toNat = o := by rw [BitVec.toNat_ofNat, Nat.mod_eq_of_lt h.lt]
    have inside : BitVec.ofNat 32 o ≤ s.segs.cs.hid.limit := by rw [BitVec.le_def, value]; exact ho
    have jmp := farTransfers_real_jmp (i := .jmp (.mp m)) hr rfl (jmpBody_mp h) h.reads hp inside
    have call := farTransfers_real_call (i := .call (.mp m)) hr rfl (callBody_mp h) h.reads hp inside
    rw [value] at jmp call
    exact ⟨h.reads, jmp, call⟩
  · have beyond := farTarget_real_beyond_read hp h ho
    exact ⟨raises_of_error (l := false) (k := false) rfl hr ((jmpBody_mp h).trans (farJump_error beyond)),
      raises_of_error (l := false) (k := false) rfl hr ((callBody_mp h).trans (farCall_error beyond))⟩

/-! ### Protected mode -/

section
variable {s s1 : State} {sel : Word} {off : DWord} {cs : SegReg} {sp : Spot} {v : State}

theorem farTransfers_jumps {i : Instr} {body : M Unit} (hr : s.Ready false) (hi : exec i s = runInstr false false body s)
    (hb : body s.begin = farJump sel off s1) (reads : s.begin.Reads s1) (hp : s.pe = true)
    (code : s.begin.FarCode sel off s1 cs sp v) {t : State} (mark : setMark sp 1 v = .ok () t) :
    Completes i s (((t.withSeg .cs cs).withEip off.toNat).complete false) (Spot.written sp) := by
  have run := hb.trans (farJump_run (farTarget_code (reads.pe.trans hp) reads code) mark)
  have keeps := (State.KeepsBut.of_reads (reads.trans code.reads)).trans (setMark_keeps mark)
  exact completes_of_ok hi hr run rfl (keeps.keepsMemory rfl)

theorem farTransfers_calls {i : Instr} {body : M Unit} (hr : s.Ready false) (hi : exec i s = runInstr false false body s)
    (hb : body s.begin = farCall sel off s1) (reads : s.begin.Reads s1) (hp : s.pe = true)
    (code : s.begin.FarCode sel off s1 cs sp v) :
    ∃ (u : Word) (c : Nat), ∀ (pss : List (List BytePlace)) (s2 t : State),
      pushPlaces s.osz.bytes s.osz.bytes 2 0 { v with freeCtr := c } = .ok pss s2 →
      setMark sp 1 ((s2.wroteAll pss [withUpper s.osz u s.segs.cs.sel, s.begin.eip.toNat % 2 ^ s.osz.bits]).withSP
        (s.spMinus (s.osz.bytes * 2))) = .ok () t →
      Completes i s (((t.withSeg .cs cs).withEip off.toNat).complete false) (pss.flatten ++ Spot.written sp) := by
  obtain ⟨u, c, call⟩ := farCall_pushes (reads.trans code.reads) (farTarget_code (reads.pe.trans hp) reads code)
  refine ⟨u, c, fun pss s2 t h mark => ?_⟩
  obtain ⟨run, keeps⟩ := call pss s2 t h mark
  exact completes_of_ok hi hr (hb.trans run) rfl (keeps.keepsMemory rfl)

theorem farTransfers_retf_same {f : RetForm} {o q a : Nat} {d : Desc} {s2 : State} (hr : s.Ready false) (hp : s.pe = true)
    (h : popMany s.osz.bytes 2 s.begin = .ok [o, q] s1)
    (ht : returnTarget (BitVec.ofNat 16 q) (BitVec.ofNat 32 o) s1 = .ok (a, d) s2) (rpl : selRPL (BitVec.ofNat 16 q) = s.cpl)
    {hid : Hidden} {s3 : State} (hx : accessed a d s2 = .ok hid s3) :
    let t := (s3.withSeg .cs { sel := BitVec.ofNat 16 q, hid := hid }).withEip (o % 2 ^ 32)
    exec (.retf f) s = .next ((t.withSP (t.sp + RetForm.params f)).complete false) := by
  intro t
  have pops := popMany_pops h
  have run := (retfBody_run (f := f) (s := s.begin) h).trans
    (farReturn_same (n := s.begin.osz.bytes) (imm := RetForm.params f) (pops.pe.trans hp) ht (rpl.trans pops.cpl.symm) hx)
  have sp : s1.sp = t.sp := ((returnTarget_reads ht).touches.trans (accessed_touches hx)).sp.symm
  rw [BitVec.toNat_ofNat, sp] at run
  exact runInstr_ok hr run

theorem farTransfers_retf_outer {f : RetForm} {o q a : Nat} {d : Desc} {s2 t : State} (hr : s.Ready false) (hp : s.pe = true)
    (h : popMany s.osz.bytes 2 s.begin = .ok [o, q] s1)
    (ht : returnTarget (BitVec.ofNat 16 q) (BitVec.ofNat 32 o) s1 = .ok (a, d) s2) (rpl : selRPL (BitVec.ofNat 16 q) ≠ s.cpl)
    (outer : s2.ReturnsOuter s.osz.bytes (RetForm.params f) (BitVec.ofNat 16 q) (BitVec.ofNat 32 o) a d t) :
    exec (.retf f) s = .next (t.complete false) := by
  have pops := popMany_pops h
  exact runInstr_ok hr ((retfBody_run (f := f) (s := s.begin) h).trans
    (farReturn_outer (pops.pe.trans hp) ht (fun e => rpl (e.trans pops.cpl)) outer))

end

theorem farTransfers_system {sel : Word} {off : DWord} {a : Nat} {d : Desc} {s s1 : State} (hr : s.Ready false) (hp : s.pe = true)
    (null : isNull sel = false) (ha : s.descAddr sel = some a) (hd : readDesc a s.begin = .ok d s1) (hs : d.s = false) :
    (d.type.toNat = 4 ∨ d.type.toNat = 12 →
      exec (.jmp (.far off sel)) s = .refused .callGate ∧ exec (.call (.far off sel)) s = .refused .callGate) ∧
    (d.type.toNat ∈ [1, 5, 9] →
      exec (.jmp (.far off sel)) s = .refused .taskSwitch ∧ exec (.call (.far off sel)) s = .refused .taskSwitch) ∧
    (d.type.toNat ∉ [1, 4, 5, 9, 12] →
      Raises (.jmp (.far off sel)) s s1 13 (some (sel &&& 0xFFFC)) ∧ Raises (.call (.far off sel)) s s1 13 (some (sel &&& 0xFFFC))) := by
  have target := farTarget_system (off := off) (s := s.begin) hp null ha hd hs
  exact ⟨fun h => refuses_of_farTarget hr (target.trans (farSystem_callGate h)),
    fun h => refuses_of_farTarget hr (target.trans (farSystem_task h)),
    fun h => raises_of_farTarget hr (target.trans (farSystem_other h))⟩

/-- Settles O28: the targets by `farTarget_*` and `returnTarget_*`, what is written by `farCall_pushes`. -/
theorem farTransfers : Obligations.FarTransfers := by
  refine ⟨fun sel off m s s1 hr hp => farTransfers_real sel off m s s1 hr hp, ⟨?_, ?_, ?_⟩, ?_⟩
  · intro sel off m s s1 cs sp v hr hp z marks go jumps calls
    refine ⟨fun code => ⟨fun t mark => ?_, ?_⟩, fun o q far code => ⟨fun t mark => ?_, ?_⟩⟩
    · exact farTransfers_jumps hr rfl (jmpBody_far off sel s.begin) (.refl _) hp code mark
    · exact farTransfers_calls hr rfl (callBody_far off sel s.begin) (.refl _) hp code
    · exact farTransfers_jumps hr rfl (jmpBody_mp far) far.reads hp code mark
    · exact farTransfers_calls hr rfl (callBody_mp far) far.reads hp code
  · intro sel off a d s s1 hr hp null ha hd hs
    exact farTransfers_system hr hp null ha hd hs
  · intro f o q a d s s1 s2 hr hp n sel h ht
    exact ⟨fun rpl hid s3 hx => farTransfers_retf_same hr hp h ht rpl hx,
      fun rpl t outer => farTransfers_retf_outer hr hp h ht rpl outer⟩
  · intro sel off s hp code rpl
    refine ⟨?_, ?_, ?_⟩
    · intro hr both
      refine ⟨fun null => raises_of_farTarget hr (farTarget_null (s := s.begin) hp null),
        fun null ha => raises_of_farTarget hr (farTarget_beyond (s := s.begin) hp null ha), ?_⟩
      intro a d s1 null ha hd hs allowed
      refine ⟨fun bad => raises_of_farTarget hr (farTarget_unfit (s := s.begin) hp null ha hd hs bad),
        fun isCode fit absent => ?_, fun isCode fit present beyond => ?_⟩
      · have target := farTarget_fit (off := off) (s := s.begin) hp null ha hd isCode fit
        exact raises_of_farTarget hr (target.trans (if_pos absent))
      · have target := farTarget_fit (off := off) (s := s.begin) hp null ha hd isCode fit
        exact raises_of_farTarget hr (target.trans ((if_neg (by rw [present]; exact Bool.noConfusion)).trans (if_pos beyond)))
    · intro stops
      refine ⟨returnTarget_null, returnTarget_beyond, ?_⟩
      intro a d s1 null ha hd allowed
      exact ⟨returnTarget_unfit null ha hd, fun fit absent => (returnTarget_fit null ha hd fit).trans (if_pos absent),
        fun fit present beyond => (returnTarget_fit null ha hd fit).trans
          ((if_neg (by rw [present]; exact Bool.noConfusion)).trans (if_pos beyond)),
        fun fit present inside => (returnTarget_fit null ha hd fit).trans
          ((if_neg (by rw [present]; exact Bool.noConfusion)).trans (if_neg (BitVec.not_lt.2 inside)))⟩
    · intro f o q v c s1 s2 hr h ht
      exact raises_of_error (l := false) (k := false) rfl hr ((retfBody_run (f := f) (s := s.begin) h).trans
        (farReturn_error ((popMany_pops h).pe.trans hp) ht))

end Sys2Proof.Machine
end

section
/-! ## System instructions: where they stop -/
set_option Elab.async false

namespace Sys2Proof.Machine

/-! ### Privilege, mode and LOCK -/

/-- What stops the first part of a computation stops it. -/
theorem M.bind_error {α β : Type} {x : M α} {f : α → M β} {s t : State} {e : Stop} (h : x s = .error e t) :
    (x >>= f) s = .error e t := by
  rw [M.bind_run, h]

/-- The first part of a computation ended well. -/
theorem M.bind_of_ok {α β : Type} {x : M α} {f : α → M β} {s t : State} {a : α} {r : EStateM.Result Stop State β}
    (h : x s = .ok a t) (hf : f a t = r) : (x >>= f) s = r := by
  rw [M.bind_run, h, ← hf]

section
variable {s : State}

theorem requireCpl0_raises (hp : s.pe = true) (hc : s.cpl ≠ 0) : requireCpl0 s = raiseGP 0 s := by
  have hc' : (s.pe && s.cpl != 0) = true := by rw [hp, Bool.true_and]; exact bne_iff_ne.2 hc
  exact if_pos hc'

theorem requireProtected_raises (hp : s.pe = false) : requireProtected s = raiseUD s := by
  simp [requireProtected, hp]

theorem movCr_guard {c : RegNum} (h : c = 0 ∨ c = 2 ∨ c = 3) : (!(c == 0 || c == 2 || c == 3)) = false := by
  rcases h with rfl | rfl | rfl <;> rfl

theorem movFromCr_stops {c : RegNum} (r : RegNum) (h : c = 0 ∨ c = 2 ∨ c = 3) (hp : s.pe = true) (hc : s.cpl ≠ 0) :
    movFromCr c r s = raiseGP 0 s := by
  simp only [movFromCr, movCr_guard h, Bool.false_eq_true, if_false, M.bind_run, requireCpl0_raises hp hc, raiseGP_run]

theorem movToCr_stops {c : RegNum} (r : RegNum) (h : c = 0 ∨ c = 2 ∨ c = 3) (hp : s.pe = true) (hc : s.cpl ≠ 0) :
    movToCr c r s = raiseGP 0 s := by
  simp only [movToCr, movCr_guard h, Bool.false_eq_true, if_false, M.bind_run, requireCpl0_raises hp hc, raiseGP_run]

theorem movFromTr_stops {t : RegNum} (r : RegNum) (h : 3 ≤ t.toNat) (hp : s.pe = true) (hc : s.cpl ≠ 0) :
    movFromTr t r s = raiseGP 0 s := by
  simp [movFromTr, not_lt.2 h, requireCpl0_raises hp hc]

theorem movToTr_stops {t : RegNum} (r : RegNum) (h : 3 ≤ t.toNat) (hp : s.pe = true) (hc : s.cpl ≠ 0) :
    movToTr t r s = raiseGP 0 s := by
  simp [movToTr, not_lt.2 h, requireCpl0_raises hp hc]

end

/-- Every privileged instruction checks the privilege level before anything but its own form and the mode. -/
theorem privileged_stops {m : Rm} {a : Mem} {k c r t : RegNum} {mode : BitVec 2} {s : State} {i : Instr} (hr : s.Ready false)
    (hp : s.pe = true) (hcpl : s.cpl ≠ 0) (hc : c = 0 ∨ c = 2 ∨ c = 3) (ht : 3 ≤ t.toNat)
    (hi : i ∈ privileged m a k c r t mode) : Raises i s s.begin 13 (some 0) := by
  have cpl : requireCpl0 s.begin = raiseGP 0 s.begin := requireCpl0_raises (s := s.begin) hp hcpl
  have prot : requireProtected s.begin = .ok () s.begin := requireProtected_ok (s := s.begin) hp
  have debug : debugAccess s.begin = raiseGP 0 s.begin := M.bind_error cpl
  simp only [privileged, List.mem_cons, List.not_mem_nil, or_false] at hi
  rcases hi with rfl | rfl | rfl | rfl | rfl | rfl | rfl | rfl | rfl | rfl | rfl | rfl | rfl | rfl | rfl | rfl
  -- hlt, clts, invd, wbinvd, lmsw
  · exact raises_of_error (l := false) (k := false) rfl hr (M.bind_error cpl)
  · exact raises_of_error (l := false) (k := false) rfl hr (M.bind_error cpl)
  · exact raises_of_error (l := false) (k := false) rfl hr (M.bind_error cpl)
  · exact raises_of_error (l := false) (k := false) rfl hr (M.bind_error cpl)
  · exact raises_of_error (l := false) (k := false) rfl hr (M.bind_error cpl)
  -- lldt, ltr
  · exact raises_of_error (l := false) (k := false) rfl hr (M.bind_of_ok prot (M.bind_error cpl))
  · exact raises_of_error (l := false) (k := false) rfl hr (M.bind_of_ok prot (M.bind_error cpl))
  -- lgdt, lidt, invlpg
  · exact raises_of_error (l := false) (k := false) rfl hr (M.bind_error (M.bind_error cpl))
  · exact raises_of_error (l := false) (k := false) rfl hr (M.bind_error (M.bind_error cpl))
  · exact raises_of_error (l := false) (k := false) rfl hr (M.bind_error cpl)
  -- moves of control, debug and test registers
  · exact raises_of_error (l := false) (k := false) rfl hr (movFromCr_stops (s := s.begin) r hc hp hcpl)
  · exact raises_of_error (l := false) (k := false) rfl hr (movToCr_stops (s := s.begin) r hc hp hcpl)
  · exact raises_of_error (l := false) (k := false) (body := movFromDr k r) rfl hr (M.bind_error debug)
  · exact raises_of_error (l := false) (k := false) (body := movToDr k r) rfl hr (M.bind_error debug)
  · exact raises_of_error (l := false) (k := false) rfl hr (movFromTr_stops (s := s.begin) r ht hp hcpl)
  · exact raises_of_error (l := false) (k := false) rfl hr (movToTr_stops (s := s.begin) r ht hp hcpl)

/-- Every instruction of protected mode checks the mode first. -/
theorem protectedOnly_stops {r : RegNum} {m : Rm} {s : State} {i : Instr} (hr : s.Ready false) (hp : s.pe = false)
    (hi : i ∈ protectedOnly r m) : Raises i s s.begin 6 none := by
  have mode : requireProtected s.begin = raiseUD s.begin := requireProtected_raises (s := s.begin) hp
  simp only [protectedOnly, List.mem_cons, List.not_mem_nil, or_false] at hi
  rcases hi with rfl | rfl | rfl | rfl | rfl | rfl | rfl | rfl | rfl <;>
    exact raises_of_error (l := false) (k := false) rfl hr (M.bind_error mode)

/-! ### LOCK -/

theorem AluForm.lockable_eq (f : AluForm) : AluForm.lockable f = (aluDst f).isMem := by cases f <;> rfl

/-- `exec` runs a body without LOCK. -/
theorem lockless_of {i : Instr} {s : State} {l k : Bool} {body : M Unit} (h : exec i s = runInstr l k body s)
    (hl : l = false) : ∃ (k : Bool) (body : M Unit), exec i s = runInstr false k body s :=
  ⟨k, body, hl ▸ h⟩

/-- The instructions that do not take LOCK, prefixes and ESC instructions apart, run without it. -/
theorem exec_lockless {i : Instr} (s : State) (hl : takesLock i = false) (hp : isPrefix i = false) (he : isEsc i = false) :
    ∃ (k : Bool) (body : M Unit), exec i s = runInstr false k body s := by
  cases i
  case repPrefix | repnePrefix | lockPrefix | csPrefix | ssPrefix | dsPrefix | esPrefix | fsPrefix | gsPrefix | opsizePrefix |
      addrsizePrefix =>
    cases hp
  case add f | or f | adc f | sbb f | and f | sub f | xor f =>
    exact lockless_of (l := AluForm.lockable f) rfl ((AluForm.lockable_eq f).trans hl)
  case bts f | btr f | btc f =>
    exact lockless_of rfl hl
  case inc f | dec f =>
    cases f <;> exact lockless_of rfl hl
  case neg f | not f | xadd f | cmpxchg f | xchg f =>
    cases f <;> exact lockless_of rfl hl
  case fld f | fild f | fst f | fist f | fstp f | fistp f | fadd f | fiadd f | fmul f | fimul f | fsub f | fisub f | fsubr f |
      fisubr f | fdiv f | fidiv f | fdivr f | fidivr f | fcom f | fcomp f | ficom f | ficomp f | fnstsw f | undefinedEsc f =>
    cases f <;> cases he
  case fbld | fbstp | fxch | fld1 | fldl2t | fldl2e | fldpi | fldlg2 | fldln2 | fldz | faddp | fmulp | fsubp | fsubrp | fdivp |
      fdivrp | fsqrt | fscale | fprem | fprem1 | frndint | fxtract | fabs | fchs | fcompp | fucom | fucomp | fucompp | ftst |
      fxam | fptan | fpatan | fsin | fcos | fsincos | f2xm1 | fyl2x | fyl2xp1 | fninit | fldcw | fnstcw | fnclex | fincstp |
      fdecstp | ffree | fnop | feni | fdisi | fsetpm | fnstenv | fldenv | fnsave | frstor =>
    cases he
  all_goals exact ⟨_, _, rfl⟩

/-- Settles O29. -/
theorem privilegeAndModeFaults : Obligations.PrivilegeAndModeFaults := by
  refine ⟨?_, ?_, ?_⟩
  · intro m a k c r t mode s i hr hp hcpl hc ht hi
    exact privileged_stops hr hp hcpl hc ht hi
  · intro r m s i hr hp hi
    exact protectedOnly_stops hr hp hi
  · intro i s hv hlock hl hp he
    obtain ⟨k, body, exec⟩ := exec_lockless s hl hp he
    exact exec.trans (runInstr_locked hv hlock)

end Sys2Proof.Machine
end

section
/-! ## System instructions: descriptor tables -/
set_option Elab.async false

namespace Sys2Proof.Machine

/-! ### LGDT, LIDT, SGDT, SIDT -/

theorem loadTable_run {m : Mem} {lim base : Nat} {s s1 s2 : State} (hp : s.Privileged) (h1 : loadMem m 0 2 2 s = .ok lim s1)
    (h2 : loadMem m 2 4 4 s1 = .ok base s2) :
    loadTable m s = .ok { base := BitVec.ofNat 32 (if s.osz = .s16 then base % 2 ^ 24 else base), limit := BitVec.ofNat 16 lim } s2 := by
  have osz : s2.osz = s.osz := ((loadMem_reads h1).trans (loadMem_reads h2)).osz
  simp only [loadTable, M.bind_run, requireCpl0_ok hp, h1, h2, M.get_run, M.pure_run, osz]
  cases s.osz <;> rfl

theorem alignCheck_off {s : State} (h : s.am = false ∨ s.flags.ac = false ∨ s.cpl ≠ 3) (lin n : Nat) :
    alignCheck lin n s = .ok () s := by
  refine if_neg fun hc => ?_
  simp only [Bool.and_eq_true, beq_iff_eq] at hc
  obtain ⟨⟨⟨am, ac⟩, cpl⟩, -⟩ := hc
  rcases h with h | h | h
  · exact absurd (am.symm.trans h) Bool.noConfusion
  · exact absurd (ac.symm.trans h) Bool.noConfusion
  · exact h cpl

theorem tableAlign_off {s : State} (h : s.am = false ∨ s.flags.ac = false ∨ s.cpl ≠ 3) (sr : SegName) (off : Nat) :
    tableAlign sr off s = .ok () s := by
  unfold tableAlign
  cases hseg : segCheck sr off 6 true s with
  | error e t => rfl
  | ok lin t =>
    obtain ⟨rfl, -⟩ := segCheck_ok hseg
    simp only [M.bind_run, alignCheck_off h]

/-- SGDT and SIDT draw the byte that is free with a 16-bit operand size, and write limit and base. -/
theorem storeTable_run {s : State} (t : TableReg) (m : Mem) (h : s.am = false ∨ s.flags.ac = false ∨ s.cpl ≠ 3) :
    ∃ (u : Byte) (c : Nat), ∀ (ps : List BytePlace) (s2 : State), locateMem m 6 1 true { s with freeCtr := c } = .ok ps s2 →
      storeTable t m s = .ok () ((s2.wrote (ps.take 2) t.limit.toNat).wrote (ps.drop 2)
        (if s.osz = .s16 then t.base.toNat % 2 ^ 24 + u.toNat * 2 ^ 24 else t.base.toNat)) := by
  have draws : ∃ (u : Byte) (c : Nat), (match s.osz with
      | .s32 => pure t.base.toNat
      | .s16 => do
        let u ← fresh
        pure (t.base.toNat % 2 ^ 24 + (u.toNat % 2 ^ 8) * 2 ^ 24) : M Nat) s =
      .ok (if s.osz = .s16 then t.base.toNat % 2 ^ 24 + u.toNat * 2 ^ 24 else t.base.toNat) { s with freeCtr := c } := by
    cases s.osz with
    | s32 => exact ⟨0, s.freeCtr, rfl⟩
    | s16 => exact ⟨s.draw.setWidth 8, s.drawn.freeCtr, by simp; rfl⟩
  obtain ⟨u, c, run⟩ := draws
  refine ⟨u, c, fun ps s2 hl => ?_⟩
  have align (sr : SegName) (off : Nat) : tableAlign sr off { s with freeCtr := c } = .ok () { s with freeCtr := c } :=
    tableAlign_off (s := { s with freeCtr := c }) h sr off
  have write (x : Nat) : storeWith (s.memSeg m) (s.memOff m) 6 1 x (writeTable t.limit.toNat
      (if s.osz = .s16 then t.base.toNat % 2 ^ 24 + u.toNat * 2 ^ 24 else t.base.toNat)) { s with freeCtr := c } = _ :=
    storeWith_run (s1 := s2) (ps := ps) hl
  exact M.bind_of_ok (M.get_run s) (M.bind_of_ok run (M.bind_of_ok (align _ _) (write _)))

theorem completes_of_storeTable {i : Instr} {m : Mem} {t : TableReg} {s : State} {body : M Unit}
    (hi : exec i s = runInstr false false body s) (hb : body s.begin = storeTable t m s.begin) (hr : s.Ready false)
    (h : s.am = false ∨ s.flags.ac = false ∨ s.cpl ≠ 3) :
    ∃ (u : Byte) (c : Nat), ∀ (ps : List BytePlace) (s2 : State),
      locateMem m 6 1 true { s.begin with freeCtr := c } = .ok ps s2 →
      s.begin.Reads s2 ∧ Completes i s (((s2.wrote (ps.take 2) t.limit.toNat).wrote (ps.drop 2)
        (if s.osz = .s16 then t.base.toNat % 2 ^ 24 + u.toNat * 2 ^ 24 else t.base.toNat)).complete false) ps := by
  obtain ⟨u, c, run⟩ := storeTable_run (s := s.begin) t m h
  refine ⟨u, c, fun ps s2 hl => ?_⟩
  have reads : s.begin.Reads s2 := (reads_freeCtr s.begin c).trans (locateMem_reads hl)
  have keeps := ((State.KeepsBut.of_reads reads).trans (.wrote s2 (ps.take 2) t.limit.toNat)).trans
    (.wrote _ (ps.drop 2) (if s.osz = .s16 then t.base.toNat % 2 ^ 24 + u.toNat * 2 ^ 24 else t.base.toNat))
  rw [List.nil_append, List.take_append_drop] at keeps
  exact ⟨reads, completes_of_ok hi hr (hb.trans (run ps s2 hl)) rfl (keeps.keepsMemory rfl)⟩

/-! ### LLDT and LTR -/

section
variable {m : Rm} {x a : Nat} {d : Desc} {s s1 s2 s3 s4 : State} {sel : Word}

theorem gdtDesc_ldt (h : selTI sel = true) : gdtDesc sel s = raiseGP (selCode sel) s := by
  simp [gdtDesc, h]

theorem gdtDesc_beyond (h : s.descAddr sel = none) : gdtDesc sel s = raiseGP (selCode sel) s := by
  by_cases ti : selTI sel = true
  · exact gdtDesc_ldt ti
  · simp [gdtDesc, ti, needDesc_none h]

theorem gdtDesc_some (ti : selTI sel = false) (ha : s.descAddr sel = some a) (hd : readDesc a s = .ok d s1) :
    gdtDesc sel s = .ok (a, d) s1 := by
  simp [gdtDesc, ti, needDesc_some ha hd]

/-- What LLDT does once its selector is read. -/
def lldtLoad (sel : Word) : M Unit :=
  if isNull sel then
    modify (fun s => { s with ldtr := { sel := sel, hid := { s.ldtr.hid with valid := false } } })
  else do
    let (_, d) ← gdtDesc sel
    if d.s || d.type != 2 then raiseGP (selCode sel)
    if !d.present then raiseNP (selCode sel)
    modify (fun s => { s with ldtr := { sel := sel, hid := d.hidden } })

/-- What LTR does once its selector is read. -/
def ltrLoad (sel : Word) : M Unit := do
  if isNull sel then raiseGP 0
  let (a, d) ← gdtDesc sel
  if d.s || !(d.type == 1 || d.type == 9) then raiseGP (selCode sel)
  if !d.present then raiseNP (selCode sel)
  let sp ← descSpot a
  setMark sp 2
  modify (fun s => { s with tr := { sel := sel, hid := { d.hidden with type := d.type ||| 2 } } })

theorem lldtBody_run (pe : s.pe = true) (hp : s.Privileged) (hx : readRm .w16 m s = .ok x s1) :
    lldtBody m s = lldtLoad (BitVec.ofNat 16 x) s1 := by
  simp only [lldtBody, M.bind_run, requireProtected_ok pe, requireCpl0_ok hp, hx]
  rfl

theorem ltrBody_run (pe : s.pe = true) (hp : s.Privileged) (hx : readRm .w16 m s = .ok x s1) :
    ltrBody m s = ltrLoad (BitVec.ofNat 16 x) s1 := by
  simp only [ltrBody, M.bind_run, requireProtected_ok pe, requireCpl0_ok hp, hx]
  rfl

theorem lldtLoad_null (h : isNull sel = true) :
    lldtLoad sel s = .ok () { s with ldtr := { sel := sel, hid := { s.ldtr.hid with valid := false } } } := by
  simp [lldtLoad, h]

theorem lldtLoad_refused (h : isNull sel = false) (hg : gdtDesc sel s = raiseGP (selCode sel) s) :
    lldtLoad sel s = raiseGP (selCode sel) s := by
  simp [lldtLoad, h, hg]

theorem lldtLoad_run (h : isNull sel = false) (hg : gdtDesc sel s = .ok (a, d) s1) :
    lldtLoad sel s =
      if d.s = true ∨ d.type ≠ 2 then raiseGP (selCode sel) s1
      else if d.present = false then raiseNP (selCode sel) s1
      else .ok () { s1 with ldtr := { sel := sel, hid := d.hidden } } := by
  simp only [lldtLoad, h, Bool.false_eq_true, if_false, M.bind_run, hg, M.ite_run, Bool.or_eq_true, bne_iff_ne, Bool.not_eq_true',
    raiseGP_run, raiseNP_run, M.modify_run]

theorem ltrLoad_null (h : isNull sel = true) : ltrLoad sel s = raiseGP 0 s := by
  simp [ltrLoad, h]

theorem ltrLoad_refused (h : isNull sel = false) (hg : gdtDesc sel s = raiseGP (selCode sel) s) :
    ltrLoad sel s = raiseGP (selCode sel) s := by
  simp [ltrLoad, h, hg]

theorem ltrLoad_type (h : isNull sel = false) (hg : gdtDesc sel s = .ok (a, d) s1)
    (hd : d.s = true ∨ ¬ (d.type = 1 ∨ d.type = 9)) : ltrLoad sel s = raiseGP (selCode sel) s1 := by
  have hd' : (d.s || !(d.type == 1 || d.type == 9)) = true := by simpa using hd
  simp only [ltrLoad, h, Bool.false_eq_true, if_false, M.bind_run, hg, hd', if_true, raiseGP_run]

theorem ltrLoad_tss (h : isNull sel = false) (hg : gdtDesc sel s = .ok (a, d) s1) (hs : d.s = false)
    (ht : d.type = 1 ∨ d.type = 9) :
    ltrLoad sel s = (do
      if !d.present then raiseNP (selCode sel)
      let sp ← descSpot a
      setMark sp 2
      modify (fun s => { s with tr := { sel := sel, hid := { d.hidden with type := d.type ||| 2 } } }) : M Unit) s1 := by
  have hd : (d.s || !(d.type == 1 || d.type == 9)) = false := by
    rcases ht with ht | ht <;> rw [hs, ht] <;> rfl
  rw [ltrLoad, h]
  simp only [Bool.false_eq_true, if_false, M.bind_run, hg, hd]

theorem ltrLoad_absent (h : isNull sel = false) (hg : gdtDesc sel s = .ok (a, d) s1) (hs : d.s = false)
    (ht : d.type = 1 ∨ d.type = 9) (hpr : d.present = false) : ltrLoad sel s = raiseNP (selCode sel) s1 := by
  rw [ltrLoad_tss h hg hs ht]
  simp [hpr]

theorem ltrLoad_run {sp : Spot} (h : isNull sel = false) (hg : gdtDesc sel s = .ok (a, d) s1) (hs : d.s = false)
    (ht : d.type = 1 ∨ d.type = 9) (hpr : d.present = true) (hsp : descSpot a s1 = .ok sp s2) (hm : setMark sp 2 s2 = .ok () s3) :
    ltrLoad sel s = .ok () { s3 with tr := { sel := sel, hid := { d.hidden with type := d.type ||| 2 } } } := by
  rw [ltrLoad_tss h hg hs ht, hpr]
  exact M.bind_of_ok hsp (M.bind_of_ok hm rfl)

end

/-- Settles O30. -/
theorem systemTables : Obligations.SystemTables := by
  refine ⟨?_, ?_, ?_⟩
  · intro m s hr
    constructor
    · intro lim base s1 s2 hp h1 h2 t
      have run : loadTable m s.begin = .ok t s2 := loadTable_run (s := s.begin) hp h1 h2
      have reads : s.begin.Reads s2 := (loadMem_reads h1).trans (loadMem_reads h2)
      have gdt : lgdtBody m s.begin = .ok () { s2 with gdtr := t } := M.bind_of_ok run rfl
      have idt : lidtBody m s.begin = .ok () { s2 with idtr := t } := M.bind_of_ok run rfl
      exact ⟨reads, completes_of_reads (l := false) (k := false) rfl hr gdt reads rfl,
        completes_of_reads (l := false) (k := false) rfl hr idt reads rfl⟩
    · intro g ha r
      cases g with
      | true => exact completes_of_storeTable (body := sgdtBody m) rfl rfl hr ha
      | false => exact completes_of_storeTable (body := sidtBody m) rfl rfl hr ha
  · intro s hr m i v hi hpe
    have run : ∃ body : M Unit, exec i s = runInstr false false body s ∧ body s.begin = writeSystemWord m v s.begin := by
      simp only [systemWord, List.mem_cons, List.not_mem_nil, or_false, Prod.mk.injEq] at hi
      rcases hi with ⟨rfl, rfl⟩ | ⟨rfl, rfl⟩ | ⟨rfl, rfl⟩
      · have pe : s.begin.pe = true := hpe.resolve_right nofun
        exact ⟨_, rfl, M.bind_of_ok (requireProtected_ok pe) rfl⟩
      · have pe : s.begin.pe = true := hpe.resolve_right nofun
        exact ⟨_, rfl, M.bind_of_ok (requireProtected_ok pe) rfl⟩
      · exact ⟨_, rfl, rfl⟩
    obtain ⟨body, exec, run⟩ := run
    constructor
    · rintro r rfl
      obtain ⟨u, c, write⟩ := writeSystemWord_reg_run r v s.begin
      exact ⟨u, c, completes_of_reads exec hr (run.trans write) (reads_freeCtr s.begin c) rfl⟩
    · rintro a ps s1 rfl hl
      have reads := locateMem_reads hl
      exact ⟨reads, completes_of_wrote exec hr (run.trans (writeSystemWord_mem_run hl)) reads rfl rfl⟩
  · intro m x s s1 hr pe cpl hx sel code
    have hp : s.begin.Privileged := by
      show (s.pe && s.cpl != 0) = false
      rw [cpl, Bool.and_eq_false_iff]
      exact .inr rfl
    have reads : s.begin.Reads s1 := readRm_reads hx
    have addr : s1.descAddr sel = s.descAddr sel := reads.descAddr sel
    have lldt : lldtBody m s.begin = lldtLoad sel s1 := lldtBody_run pe hp hx
    have ltr : ltrBody m s.begin = ltrLoad sel s1 := ltrBody_run pe hp hx
    have lldt_raises {v : Byte} {c : Option Word} {u : State}
        (h : lldtLoad sel s1 = .error (.exn { vector := v, code := c, cls := .fault }) u) : Raises (.lldt m) s u v c :=
      raises_of_error (l := false) (k := false) rfl hr (lldt.trans h)
    have ltr_raises {v : Byte} {c : Option Word} {u : State}
        (h : ltrLoad sel s1 = .error (.exn { vector := v, code := c, cls := .fault }) u) : Raises (.ltr m) s u v c :=
      raises_of_error (l := false) (k := false) rfl hr (ltr.trans h)
    refine ⟨reads, fun null => ⟨?_, ltr_raises (ltrLoad_null null)⟩, fun null => ⟨fun h => ?_, ?_⟩⟩
    · have run := lldt.trans (lldtLoad_null null)
      rw [reads.ldtr] at run
      exact completes_of_reads (l := false) (k := false) rfl hr run reads rfl
    · have refused : gdtDesc sel s1 = raiseGP (selCode sel) s1 :=
        h.elim gdtDesc_ldt fun h => gdtDesc_beyond (addr.trans h)
      exact ⟨lldt_raises (lldtLoad_refused null refused), ltr_raises (ltrLoad_refused null refused)⟩
    · intro a d s2 ti ha hd
      have desc : gdtDesc sel s1 = .ok (a, d) s2 := gdtDesc_some ti (addr.trans ha) hd
      have reads2 : s.begin.Reads s2 := reads.trans (readDesc_reads hd)
      have load := lldtLoad_run null desc
      refine ⟨fun hs ht hpr => ?_, fun h => ?_, fun hs ht hpr => ?_, fun hs ht => ⟨fun hpr => ?_, ?_⟩, fun h => ?_⟩
      · rw [if_neg (by simp [hs, ht]), if_neg (by simp [hpr])] at load
        exact completes_of_reads (l := false) (k := false) rfl hr (lldt.trans load) reads2 rfl
      · exact lldt_raises (load.trans (if_pos h))
      · rw [if_neg (by simp [hs, ht]), if_pos hpr] at load
        exact lldt_raises load
      · exact ltr_raises (ltrLoad_absent null desc hs ht hpr)
      · intro sp s3 s4 hpr hsp hm
        exact runInstr_ok hr (ltr.trans (ltrLoad_run null desc hs ht hpr hsp hm))
      · exact ltr_raises (ltrLoad_type null desc h)

end Sys2Proof.Machine
end

section
/-! ## System instructions: control registers, flags and machine control -/
set_option Elab.async false

namespace Sys2Proof.Machine

/-! ### Bits of CR0 -/

/-- Replacing under the mask `m` by what differs only under `m` replaces everything. -/
theorem replace_under_mask {n : Nat} (a v e f m : BitVec n) (he : e &&& m = e) (hf : f &&& m = f) :
    (a &&& ~~~m) ||| (((a &&& ~~~e) ||| (v &&& f)) &&& m) = (a &&& ~~~e) ||| (v &&& f) := by
  ext i hi
  have bit : ∀ a v e f m : Bool, (e && m) = e → (f && m) = f →
      (a && !m || (a && !e || v && f) && m) = (a && !e || v && f) := by decide
  have he' : (e[i] && m[i]) = e[i] := by rw [← BitVec.getElem_and, he]
  have hf' : (f[i] && m[i]) = f[i] := by rw [← BitVec.getElem_and, hf]
  simp only [BitVec.getElem_or, BitVec.getElem_and, BitVec.getElem_not]
  exact bit a[i] v[i] e[i] f[i] m[i] he' hf'

/-- The bits PG, WP and PE of CR0 are 31, 16 and 0. -/
theorem and_pagingBits_eq (x y : DWord) :
    x &&& 0x80010001 = y &&& 0x80010001 ↔
      x.getLsbD 31 = y.getLsbD 31 ∧ x.getLsbD 0 = y.getLsbD 0 ∧ x.getLsbD 16 = y.getLsbD 16 := by
  constructor
  · intro h
    have bit (i : Nat) : (x.getLsbD i && (0x80010001 : DWord).getLsbD i) = (y.getLsbD i && (0x80010001 : DWord).getLsbD i) := by
      rw [← BitVec.getLsbD_and, ← BitVec.getLsbD_and, h]
    exact ⟨by simpa using bit 31, by simpa using bit 0, by simpa using bit 16⟩
  · rintro ⟨h31, h0, h16⟩
    refine BitVec.eq_of_getLsbD_eq fun i hi => ?_
    rw [BitVec.getLsbD_and, BitVec.getLsbD_and]
    by_cases hb : i = 31 ∨ i = 0 ∨ i = 16
    · rcases hb with rfl | rfl | rfl
      · rw [h31]
      · rw [h0]
      · rw [h16]
    · have clear : (0x80010001 : DWord).getLsbD i = false := by
        revert hb
        generalize hk : (⟨i, hi⟩ : Fin 32) = k
        obtain rfl : i = k.val := by rw [← hk]
        revert k
        decide
      rw [clear, Bool.and_false, Bool.and_false]

theorem setCr0_run (v : DWord) (s : State) :
    setCr0 v s = .ok () { s with
      cr0 := (s.cr0 &&& ~~~(0xE005003F : DWord)) ||| (v &&& 0xE005003F)
      tlb := if s.cr0 &&& 0x80010001 = v &&& 0x80010001 then s.tlb else s.tlb.flush } := by
  have pg : ((s.cr0 &&& ~~~(0xE005003F : DWord)) ||| (v &&& 0xE005003F)).getLsbD 31 = v.getLsbD 31 := by simp
  have pe : ((s.cr0 &&& ~~~(0xE005003F : DWord)) ||| (v &&& 0xE005003F)).getLsbD 0 = v.getLsbD 0 := by simp
  have wp : ((s.cr0 &&& ~~~(0xE005003F : DWord)) ||| (v &&& 0xE005003F)).getLsbD 16 = v.getLsbD 16 := by simp
  have change : (v.getLsbD 31 != s.pg || v.getLsbD 0 != s.pe || v.getLsbD 16 != s.wp) = true ↔
      ¬ (s.cr0 &&& 0x80010001 = v &&& 0x80010001) := by
    rw [and_pagingBits_eq, Bool.or_eq_true, Bool.or_eq_true, bne_iff_ne, bne_iff_ne, bne_iff_ne]
    unfold State.pg State.pe State.wp
    tauto
  rw [← pg, ← pe, ← wp] at change
  by_cases h : s.cr0 &&& 0x80010001 = v &&& 0x80010001
  · rw [if_pos h]
    exact congrArg _ (if_neg fun hc => change.1 hc h)
  · rw [if_neg h]
    exact congrArg _ (if_pos (change.2 h))

/-! ### CLI, STI, LMSW -/

theorem requireIopl_raises {s : State} (hp : s.pe = true) (h : s.flags.iopl < s.cpl) : requireIopl s = raiseGP 0 s := by
  refine if_pos ?_
  rw [hp, Bool.true_and]
  exact decide_eq_true h

theorem stiBody_run {s : State} (h : s.IoPrivileged) :
    stiBody s = .ok () { s.withFlags { s.flags with intf := true } with
      latch := if s.flags.intf then s.latch else { s.latch with shadow := .held } } := by
  simp only [stiBody, M.bind_run, requireIopl_ok h, M.get_run, modFlags_run]
  cases s.flags.intf <;> rfl

/-- The value LMSW loads: the four low bits of its operand, but PE is never cleared. -/
def msw (cr0 v : DWord) : DWord := (cr0 &&& ~~~(0xE : DWord)) ||| (v &&& 0xF)

theorem ofNat_mod_sixteen (x : Nat) : BitVec.ofNat 32 (x % 16) = BitVec.ofNat 32 x &&& 0xF := by
  apply BitVec.eq_of_toNat_eq
  rw [BitVec.toNat_and, BitVec.toNat_ofNat, BitVec.toNat_ofNat]
  show _ = (x % 2 ^ 32) &&& (2 ^ 4 - 1)
  rw [Nat.and_two_pow_sub_one_eq_mod]
  omega

theorem msw_pagingBits (cr0 v : DWord) :
    cr0 &&& 0x80010001 = msw cr0 v &&& 0x80010001 ↔ ¬ (cr0.getLsbD 0 = false ∧ v.getLsbD 0 = true) := by
  rw [and_pagingBits_eq]
  simp [msw]
  cases cr0[0] <;> simp

theorem lmswBody_run {m : Rm} {x : Nat} {s s1 : State} (hp : s.Privileged) (hx : readRm .w16 m s = .ok x s1) :
    lmswBody m s = .ok () { s1 with
      cr0 := msw s.cr0 (BitVec.ofNat 32 x)
      tlb := if s.pe = false ∧ (BitVec.ofNat 32 x).getLsbD 0 = true then s1.tlb.flush else s1.tlb } := by
  have value : (s1.cr0 &&& 0xFFFFFFF1) ||| BitVec.ofNat 32 (x % 16) = msw s.cr0 (BitVec.ofNat 32 x) := by
    rw [(readRm_reads hx).cr0, ofNat_mod_sixteen]
    rfl
  have cr0 : (s.cr0 &&& ~~~(0xE005003F : DWord)) ||| (msw s.cr0 (BitVec.ofNat 32 x) &&& 0xE005003F) =
      msw s.cr0 (BitVec.ofNat 32 x) := replace_under_mask _ _ _ _ _ (by decide) (by decide)
  have tlb : (if s.cr0 &&& 0x80010001 = msw s.cr0 (BitVec.ofNat 32 x) &&& 0x80010001 then s1.tlb else s1.tlb.flush) =
      if s.pe = false ∧ (BitVec.ofNat 32 x).getLsbD 0 = true then s1.tlb.flush else s1.tlb := by
    rw [if_congr (msw_pagingBits _ _) rfl rfl, ite_not]
    rfl
  simp only [lmswBody, M.bind_run, requireCpl0_ok hp, hx, M.get_run, value, setCr0_run]
  rw [(readRm_reads hx).cr0, cr0, tlb]

/-- Settles O33. -/
theorem interruptFlagAndMachineControl : Obligations.InterruptFlagAndMachineControl := by
  constructor
  · intro s hr
    refine ⟨fun hp => ⟨?_, ?_⟩, fun hp h => ?_⟩
    · exact completes_of_ok (l := false) (k := false) rfl hr (M.bind_of_ok (requireIopl_ok (s := s.begin) hp) rfl) rfl
        (keeps_of_mem rfl)
    · refine completes_of_ok (l := false) (k := false) rfl hr (stiBody_run (s := s.begin) hp) ?_ (keeps_of_mem rfl)
      show _ = State.complete { s.begin.withFlags { s.flags with intf := true } with
        latch := if s.flags.intf then s.begin.latch else { s.begin.latch with shadow := .held } } false
      cases s.flags.intf <;> rfl
    · have stop : requireIopl s.begin = raiseGP 0 s.begin := requireIopl_raises (s := s.begin) hp h
      exact ⟨raises_of_error (l := false) (k := false) rfl hr (M.bind_error stop),
        raises_of_error (l := false) (k := false) rfl hr (M.bind_error stop)⟩
  · intro a s hr hp
    have cpl : requireCpl0 s.begin = .ok () s.begin := requireCpl0_ok (s := s.begin) hp
    refine ⟨?_, ?_, ?_, ?_, ?_, ?_⟩
    · intro m x s1 hx v new
      have reads : s.begin.Reads s1 := readRm_reads hx
      exact ⟨reads, completes_of_reads (l := false) (k := false) rfl hr (lmswBody_run (s := s.begin) hp hx) reads rfl⟩
    all_goals exact completes_of_ok (l := false) (k := false) rfl hr (M.bind_of_ok cpl rfl) rfl (keeps_of_mem rfl)

end Sys2Proof.Machine
end

section
/-! ## System instructions: moves of control, debug and test registers -/
set_option Elab.async false

namespace Sys2Proof.Machine

/-! ### The bodies -/

/-- The state after a move to or from a control, debug or test register: the six status flags are free. -/
def State.statusFreed (s : State) : State := s.drawn.withFlags (freeStatus s.draw s.flags)

theorem freeFlags_run (s : State) : freeFlags s = .ok () s.statusFreed := rfl

/-- A control register by number. -/
def State.controlReg (s : State) (c : RegNum) : DWord :=
  match c.toNat with
  | 0 => s.cr0
  | 2 => s.cr2
  | _ => s.cr3

section
variable {s : State} {c : RegNum}

theorem movFromCr_run (r : RegNum) (h : c = 0 ∨ c = 2 ∨ c = 3) (hp : s.Privileged) :
    movFromCr c r s =
      .ok () (s.withReg .w32 r (s.controlReg c).toNat).statusFreed := by
  simp only [movFromCr, movCr_guard h, Bool.false_eq_true, if_false, M.bind_run, requireCpl0_ok hp, M.get_run, setReg_run,
    freeFlags_run]
  rfl

theorem ofNat_read (r : RegNum) (s : State) : BitVec.ofNat 32 (s.regs.read .w32 r) = s.regs.get r := BitVec.ofNat_toNat ..

theorem movToCr2_run (r : RegNum) (hp : s.Privileged) :
    movToCr 2 r s = .ok () { s with cr2 := s.regs.get r }.statusFreed := by
  simp only [movToCr, movCr_guard (.inr (.inl rfl)), Bool.false_eq_true, if_false, M.bind_run, requireCpl0_ok hp, getReg_run,
    ofNat_read]
  rfl

theorem movToCr3_run (r : RegNum) (hp : s.Privileged) :
    movToCr 3 r s = .ok () { s with cr3 := s.regs.get r &&& 0xFFFFF018, tlb := s.tlb.flush }.statusFreed := by
  simp only [movToCr, movCr_guard (.inr (.inr rfl)), Bool.false_eq_true, if_false, M.bind_run, requireCpl0_ok hp, getReg_run,
    ofNat_read]
  rfl

theorem movToCr0_refused (r : RegNum) (hp : s.Privileged)
    (h : ((s.regs.get r).getLsbD 31 = true ∧ (s.regs.get r).getLsbD 0 = false) ∨
      ((s.regs.get r).getLsbD 29 = true ∧ (s.regs.get r).getLsbD 30 = false)) : movToCr 0 r s = raiseGP 0 s := by
  have number : BitVec.toNat (0 : RegNum) = 0 := rfl
  simp only [movToCr, movCr_guard (.inl rfl), Bool.false_eq_true, if_false, M.bind_run, requireCpl0_ok hp, getReg_run, ofNat_read,
    number]
  by_cases pg : (s.regs.get r).getLsbD 31 = true ∧ (s.regs.get r).getLsbD 0 = false
  · obtain ⟨h31, h0⟩ := pg
    simp only [h31, h0, Bool.not_false, Bool.and_true, if_true, M.bind_run, raiseGP_run]
  · obtain ⟨h29, h30⟩ := h.resolve_left pg
    have pg' : ((s.regs.get r).getLsbD 31 && !(s.regs.get r).getLsbD 0) = false := by simpa using pg
    simp only [pg', h29, h30, Bool.false_eq_true, if_false, Bool.not_false, Bool.true_and, if_true, M.bind_run, raiseGP_run]

theorem movToCr0_run (r : RegNum) (hp : s.Privileged) (hpg : (s.regs.get r).getLsbD 31 = true → (s.regs.get r).getLsbD 0 = true)
    (hnw : (s.regs.get r).getLsbD 29 = true → (s.regs.get r).getLsbD 30 = true) :
    movToCr 0 r s = .ok () { s with
      cr0 := (s.cr0 &&& ~~~(0xE005003F : DWord)) ||| (s.regs.get r &&& 0xE005003F)
      tlb := if s.cr0 &&& 0x80010001 = s.regs.get r &&& 0x80010001 then s.tlb else s.tlb.flush }.statusFreed := by
  have number : BitVec.toNat (0 : RegNum) = 0 := rfl
  have pg : ((s.regs.get r).getLsbD 31 && !(s.regs.get r).getLsbD 0) = false := by simpa using hpg
  have nw : (!(s.regs.get r).getLsbD 30 && (s.regs.get r).getLsbD 29) = false := by
    revert hnw
    cases (s.regs.get r).getLsbD 30 <;> cases (s.regs.get r).getLsbD 29 <;> simp
  simp only [movToCr, movCr_guard (.inl rfl), Bool.false_eq_true, if_false, M.bind_run, requireCpl0_ok hp, getReg_run, ofNat_read,
    number, pg, nw, setCr0_run, freeFlags_run]

theorem debugAccess_ok (hp : s.Privileged) (h : s.dbg.dr7.getLsbD 13 = false) : debugAccess s = .ok () s := by
  simp only [debugAccess, M.bind_run, requireCpl0_ok hp, M.get_run, h, Bool.false_eq_true, if_false, M.pure_run]

theorem debugAccess_detects (hp : s.Privileged) (h : s.dbg.dr7.getLsbD 13 = true) :
    debugAccess s = (raise 1 none : M Unit) { s with dbg := { s.dbg with dr6 := s.dbg.dr6 ||| 0x2000 } } := by
  simp only [debugAccess, M.bind_run, requireCpl0_ok hp, M.get_run, h, if_true, M.set_run]
  rfl

theorem movFromDr_run (r : RegNum) (hp : s.Privileged) (h : s.dbg.dr7.getLsbD 13 = false) :
    movFromDr c r s = .ok () (s.withReg .w32 r (s.dbg.get c).toNat).statusFreed :=
  M.bind_of_ok (debugAccess_ok hp h) rfl

theorem movToDr_run (r : RegNum) (hp : s.Privileged) (h : s.dbg.dr7.getLsbD 13 = false) :
    movToDr c r s = .ok () { s with dbg := s.dbg.set c (s.regs.get r) }.statusFreed := by
  refine M.bind_of_ok (debugAccess_ok hp h) ?_
  rw [← ofNat_read]
  rfl

theorem movFromTr_run (r : RegNum) (hp : s.Privileged) (h : 3 ≤ c.toNat) :
    movFromTr c r s = .ok () (s.withReg .w32 r (s.test.get c).toNat).statusFreed := by
  simp only [movFromTr, if_neg (not_lt.2 h), M.bind_run, requireCpl0_ok hp, M.get_run, setReg_run, freeFlags_run]

theorem movToTr_run (r : RegNum) (hp : s.Privileged) (h : 3 ≤ c.toNat) :
    movToTr c r s = .ok () { s with test := s.test.set c (s.regs.get r) }.statusFreed := by
  simp only [movToTr, if_neg (not_lt.2 h), M.bind_run, requireCpl0_ok hp, getReg_run, ofNat_read, M.modify_run, freeFlags_run]

theorem movCr_guard_undefined (h0 : c ≠ 0) (h2 : c ≠ 2) (h3 : c ≠ 3) : (!(c == 0 || c == 2 || c == 3)) = true := by
  rw [beq_false_of_ne h0, beq_false_of_ne h2, beq_false_of_ne h3]
  rfl

theorem movFromCr_undefined (r : RegNum) (h0 : c ≠ 0) (h2 : c ≠ 2) (h3 : c ≠ 3) : movFromCr c r s = raiseUD s := by
  simp only [movFromCr, movCr_guard_undefined h0 h2 h3, if_true, M.bind_run, raiseUD_run]

theorem movToCr_undefined (r : RegNum) (h0 : c ≠ 0) (h2 : c ≠ 2) (h3 : c ≠ 3) : movToCr c r s = raiseUD s := by
  simp only [movToCr, movCr_guard_undefined h0 h2 h3, if_true, M.bind_run, raiseUD_run]

theorem movFromTr_undefined (r : RegNum) (h : c.toNat < 3) : movFromTr c r s = raiseUD s := by
  simp only [movFromTr, if_pos h, M.bind_run, raiseUD_run]

theorem movToTr_undefined (r : RegNum) (h : c.toNat < 3) : movToTr c r s = raiseUD s := by
  simp only [movToTr, if_pos h, M.bind_run, raiseUD_run]

end

/-! ### What the debug and test registers read back -/

theorem regNum_cases (n : RegNum) : n = 0 ∨ n = 1 ∨ n = 2 ∨ n = 3 ∨ n = 4 ∨ n = 5 ∨ n = 6 ∨ n = 7 := by
  revert n
  decide

theorem DebugRegs.get_set_address (d : DebugRegs) {n : RegNum} (hn : n.toNat < 4) (v : DWord) (k : RegNum) :
    (d.set n v).get k = if k = n then v else d.get k := by
  have low : n = 0 ∨ n = 1 ∨ n = 2 ∨ n = 3 := by
    revert n
    decide
  rcases low with rfl | rfl | rfl | rfl <;>
    rcases regNum_cases k with rfl | rfl | rfl | rfl | rfl | rfl | rfl | rfl <;> rfl

theorem TestRegs.get_set (t : TestRegs) {n k : RegNum} (hn : 3 ≤ n.toNat) (hk : 3 ≤ k.toNat) (v : DWord) :
    (t.set n v).get k = if k = n then v else t.get k := by
  have tests : ∀ n : RegNum, 3 ≤ n.toNat → n = 3 ∨ n = 4 ∨ n = 5 ∨ n = 6 ∨ n = 7 := by decide
  rcases tests n hn with rfl | rfl | rfl | rfl | rfl <;>
    rcases tests k hk with rfl | rfl | rfl | rfl | rfl <;> rfl

/-- Settles O32. -/
theorem specialRegisterMoves : Obligations.SpecialRegisterMoves := by
  refine ⟨?_, ?_, ?_⟩
  · intro mode c r s hr hp v free
    have hb : s.begin.Privileged := hp
    have done {i : Instr} {body : M Unit} {t : State} (hi : exec i s = runInstr false false body s)
        (h : body s.begin = .ok () t.statusFreed) (hf : t.flags = s.flags) (hm : t.mem = s.mem) : Completes i s (free t) [] := by
      refine completes_of_ok hi hr h ?_ (keeps_of_mem hm)
      show (t.drawn.withFlags (freeStatus t.draw s.flags)).complete false = t.statusFreed.complete false
      rw [← hf]
      rfl
    refine ⟨?_, ?_, ?_, ?_, ?_, fun h => ?_, fun hpg hnw => ?_, fun h => ⟨?_, ?_⟩, fun h => ⟨?_, ?_⟩, fun h => ⟨?_, ?_⟩,
      fun h0 h2 h3 => ⟨?_, ?_⟩⟩
    · exact done rfl (movFromCr_run r (.inl rfl) hb) rfl rfl
    · exact done rfl (movFromCr_run r (.inr (.inl rfl)) hb) rfl rfl
    · exact done rfl (movFromCr_run r (.inr (.inr rfl)) hb) rfl rfl
    · exact done rfl (movToCr2_run r hb) rfl rfl
    · exact done rfl (movToCr3_run r hb) rfl rfl
    · exact raises_of_error (l := false) (k := false) rfl hr (movToCr0_refused r hb h)
    · exact ⟨if s.cr0 &&& 0x80010001 = v &&& 0x80010001 then s.tlb else s.tlb.flush, fun h => if_pos h, fun h => if_neg h,
        done rfl (movToCr0_run r hb hpg hnw) rfl rfl⟩
    · exact done (body := movFromDr c r) rfl (movFromDr_run r hb h) rfl rfl
    · exact done (body := movToDr c r) rfl (movToDr_run r hb h) rfl rfl
    · exact done (body := movFromTr c r) rfl (movFromTr_run r hb h) rfl rfl
    · exact done (body := movToTr c r) rfl (movToTr_run r hb h) rfl rfl
    · exact raises_of_error (l := false) (k := false) rfl hr (movFromTr_undefined r h)
    · exact raises_of_error (l := false) (k := false) rfl hr (movToTr_undefined r h)
    · exact raises_of_error (l := false) (k := false) rfl hr (movFromCr_undefined r h0 h2 h3)
    · exact raises_of_error (l := false) (k := false) rfl hr (movToCr_undefined r h0 h2 h3)
  · intro d t n k v
    refine ⟨fun hn => ⟨?_, fun hk => ?_⟩, rfl, rfl, rfl, rfl, fun hn => ⟨?_, fun hk hkn => ?_⟩⟩
    · exact (d.get_set_address hn v n).trans (if_pos rfl)
    · exact (d.get_set_address hn v k).trans (if_neg hk)
    · exact (t.get_set hn hn v).trans (if_pos rfl)
    · exact (t.get_set hn hk v).trans (if_neg hkn)
  · intro mode c r s hr hp h u
    have detect : debugAccess s.begin = (raise 1 none : M Unit) u := debugAccess_detects (s := s.begin) hp h
    exact ⟨raises_of_error (l := false) (k := false) (body := movFromDr c r) rfl hr (M.bind_error detect),
      raises_of_error (l := false) (k := false) (body := movToDr c r) rfl hr (M.bind_error detect)⟩

end Sys2Proof.Machine
end

section
/-! ## System instructions: inspection of selectors -/
set_option Elab.async false

namespace Sys2Proof.Machine

/-! ### LAR, LSL, VERR, VERW -/

/-- The state with ZF replaced. -/
def State.withZF (s : State) (z : Bool) : State := s.withFlags { s.flags with zf := z }

theorem setZF_run (z : Bool) (s : State) : setZF z s = .ok () (s.withZF z) := rfl

section
variable {s s1 s2 : State} {sel : Word} {a x : Nat} {d : Desc} {m : Rm}

theorem inspect_none (h : isNull sel = true ∨ s.descAddr sel = none) : inspect sel s = .ok none s := by
  by_cases null : isNull sel = true
  · simp [inspect, null]
  · simp [inspect, null, findDesc, h.resolve_left null]

theorem inspect_some (null : isNull sel = false) (ha : s.descAddr sel = some a) (hd : readDesc a s = .ok d s1) :
    inspect sel s = .ok (some d) s1 := by
  simp [inspect, null, findDesc, ha, hd]

theorem Desc.visible_iff (cpl : BitVec 2) (sel : Word) :
    d.visible cpl sel = true ↔ d.hidden.conforming = true ∨ (cpl ≤ d.dpl ∧ selRPL sel ≤ d.dpl) := by
  simp [Desc.visible]

variable {types : BitVec 4 → Bool} {value : Size → Desc → Nat} {r : RegNum} {ok : Desc → BitVec 2 → Word → Bool}

theorem inspectInto_none (pe : s.pe = true) (hx : readRm s.osz.width m s = .ok x s1)
    (hi : inspect (BitVec.ofNat 16 x) s1 = .ok none s1) : inspectInto types value r m s = .ok () (s1.withZF false) := by
  simp only [inspectInto, M.bind_run, requireProtected_ok pe, getWidth_run, hx, hi, M.get_run, setZF_run]

theorem inspectInto_some (pe : s.pe = true) (hx : readRm s.osz.width m s = .ok x s1)
    (hi : inspect (BitVec.ofNat 16 x) s1 = .ok (some d) s2) :
    inspectInto types value r m s =
      if (d.s || types d.type) && d.visible s2.cpl (BitVec.ofNat 16 x) then
        .ok () ((s2.withReg s.osz.width r (value s2.osz d)).withZF true)
      else .ok () (s2.withZF false) := by
  simp only [inspectInto, M.bind_run, requireProtected_ok pe, getWidth_run, hx, hi, M.get_run, M.ite_run, setReg_run, setZF_run]

theorem verify_none (pe : s.pe = true) (hx : readRm .w16 m s = .ok x s1)
    (hi : inspect (BitVec.ofNat 16 x) s1 = .ok none s1) : verify ok m s = .ok () (s1.withZF false) := by
  simp only [verify, M.bind_run, requireProtected_ok pe, hx, hi, M.get_run, setZF_run]

theorem verify_some (pe : s.pe = true) (hx : readRm .w16 m s = .ok x s1)
    (hi : inspect (BitVec.ofNat 16 x) s1 = .ok (some d) s2) :
    verify ok m s = .ok () (s2.withZF (ok d s2.cpl (BitVec.ofNat 16 x))) := by
  simp only [verify, M.bind_run, requireProtected_ok pe, hx, hi, M.get_run, setZF_run]

end

theorem larType_iff (t : BitVec 4) : larType t = true ↔ t.toNat ∈ [1, 2, 3, 4, 5, 9, 11, 12] := List.contains_iff_mem ..

theorem lslType_iff (t : BitVec 4) : lslType t = true ↔ t.toNat ∈ [1, 2, 3, 9, 11] := List.contains_iff_mem ..

theorem larValue_eq (z : Size) (d : Desc) :
    larValue z d = (d.hi &&& (if z = .s32 then 0x00F0FF00 else 0x0000FF00)).toNat := by
  cases z <;> rfl

/-! ### ARPL -/

section
variable {m : Mem} {r k : RegNum} {s s1 s2 s3 : State} {x y : Nat} {ps : List BytePlace}

theorem arplBody_kept {m : Rm} (pe : s.pe = true) (hx : readRm .w16 m s = .ok x s1) (h : s1.regs.read .w16 r % 4 ≤ x % 4) :
    arplBody r m s = .ok () (s1.withZF false) := by
  simp only [arplBody, M.bind_run, requireProtected_ok pe, hx, getReg_run, M.ite_run, if_neg (not_lt.2 h), setZF_run]

theorem arplBody_raised {m : Rm} (pe : s.pe = true) (hx : readRm .w16 m s = .ok x s1) (h : x % 4 < s1.regs.read .w16 r % 4)
    (hm : modifyRm .w16 m (fun d => pure (d / 4 * 4 + s1.regs.read .w16 r % 4)) s1 = .ok () s2) :
    arplBody r m s = .ok () (s2.withZF true) := by
  simp only [arplBody, M.bind_run, requireProtected_ok pe, hx, getReg_run, M.ite_run, if_pos h, hm, setZF_run]

end

/-- Settles O31. -/
theorem inspectSelectors : Obligations.InspectSelectors := by
  constructor
  · intro r m s hr pe w
    have pb : s.begin.pe = true := pe
    have done {i : Instr} {body : M Unit} {s1 t : State} {z : Bool} (hi : exec i s = runInstr false false body s)
        (hb : body s.begin = .ok () (t.withZF z)) (reads : s.begin.Reads s1) (hf : t.flags = s1.flags) (hm : t.mem = s1.mem) :
        Completes i s ((t.withFlags { s.flags with zf := z }).complete false) [] := by
      have eq : t.withZF z = t.withFlags { s.flags with zf := z } := by
        rw [State.withZF, hf, reads.flags]
        rfl
      exact completes_of_reads hi hr (hb.trans (congrArg _ eq)) reads hm
    constructor
    · intro x s1 h none
      have inspected (reads : s.begin.Reads s1) : inspect (BitVec.ofNat 16 x) s1 = .ok .none s1 :=
        inspect_none (h.imp_right fun h => (reads.descAddr _).trans h)
      refine ⟨fun hx => ?_, fun hx => ?_⟩
      · have reads := readRm_reads hx
        exact ⟨done rfl (inspectInto_none pb hx (inspected reads)) reads rfl rfl,
          done rfl (inspectInto_none pb hx (inspected reads)) reads rfl rfl⟩
      · have reads := readRm_reads hx
        exact ⟨done rfl (verify_none pb hx (inspected reads)) reads rfl rfl,
          done rfl (verify_none pb hx (inspected reads)) reads rfl rfl⟩
    · intro x a d s1 s2 null ha hd rpl reach flagged
      have inspected (reads : s.begin.Reads s1) : inspect (BitVec.ofNat 16 x) s1 = .ok (some d) s2 :=
        inspect_some null ((reads.descAddr _).trans ha) hd
      have visible (u : State) (hu : s.begin.Reads u) :
          d.visible u.cpl (BitVec.ofNat 16 x) = true ↔ d.hidden.conforming = true ∨ reach := by
        rw [hu.cpl]
        exact Desc.visible_iff _ _
      refine ⟨fun hx => ?_, fun hx => ?_⟩
      · have reads := (readRm_reads hx).trans (readDesc_reads hd)
        have osz : s2.osz = s.osz := reads.osz
        have found := inspected (readRm_reads hx)
        have lar := inspectInto_some (types := larType) (value := larValue) (r := r) pb hx found
        have lsl := inspectInto_some (types := lslType) (value := lslValue) (r := r) pb hx found
        have shown {types : BitVec 4 → Bool} (hv : d.hidden.conforming = true ∨ reach) (ht : d.s = true ∨ types d.type = true) :
            ((d.s || types d.type) && d.visible s2.cpl (BitVec.ofNat 16 x)) = true := by
          rw [(visible s2 reads).2 hv, Bool.and_true, Bool.or_eq_true]
          exact ht
        have hidden {types : BitVec 4 → Bool} (h : ¬ (d.hidden.conforming = true ∨ reach) ∨ (d.s = false ∧ types d.type ≠ true)) :
            ¬ ((d.s || types d.type) && d.visible s2.cpl (BitVec.ofNat 16 x)) = true := by
          rw [Bool.and_eq_true, Bool.or_eq_true, visible s2 reads]
          rintro ⟨ht, hv⟩
          rcases h with h | ⟨hs, h⟩
          · exact h hv
          · exact ht.elim (fun ht => Bool.noConfusion (hs.symm.trans ht)) h
        refine ⟨fun h => ?_, fun h => ?_, fun h => ⟨?_, ?_⟩, fun hs => ⟨fun h => ?_, fun h => ?_⟩⟩
        · have run := lar.trans (if_pos (shown h.1 (h.2.imp_right (larType_iff _).2)))
          rw [larValue_eq, osz] at run
          exact done rfl run reads rfl rfl
        · exact done rfl (lsl.trans (if_pos (shown h.1 (h.2.imp_right (lslType_iff _).2)))) reads rfl rfl
        · exact done rfl (lar.trans (if_neg (hidden (.inl h)))) reads rfl rfl
        · exact done rfl (lsl.trans (if_neg (hidden (.inl h)))) reads rfl rfl
        · exact done rfl (lar.trans (if_neg (hidden (.inr ⟨hs, fun ht => h ((larType_iff _).1 ht)⟩)))) reads rfl rfl
        · exact done rfl (lsl.trans (if_neg (hidden (.inr ⟨hs, fun ht => h ((lslType_iff _).1 ht)⟩)))) reads rfl rfl
      · have reads := (readRm_reads hx).trans (readDesc_reads hd)
        have found := inspected (readRm_reads hx)
        have verified {i : Instr} {ok : Desc → BitVec 2 → Word → Bool} {z : Bool}
            (hi : exec i s = runInstr false false (verify ok m) s) (hz : ok d s.cpl (BitVec.ofNat 16 x) = z) :
            Completes i s (flagged s2 z) [] := by
          have run := verify_some (ok := ok) pb hx found
          rw [show s2.cpl = s.cpl from reads.cpl, hz] at run
          exact done hi run reads rfl rfl
        have seen : d.visible s.cpl (BitVec.ofNat 16 x) = true ↔ d.hidden.conforming = true ∨ reach := Desc.visible_iff _ _
        refine ⟨fun hrd hv => verified rfl ?_, fun h => verified rfl ?_, fun hw hv => verified rfl ?_, fun h => verified rfl ?_⟩
        · show (d.hidden.readable && d.visible s.cpl _) = true
          rw [hrd, seen.2 hv]
          rfl
        · show (d.hidden.readable && d.visible s.cpl _) = false
          rw [Bool.and_eq_false_iff]
          exact h.imp_right fun h => Bool.eq_false_iff.2 (mt seen.1 h)
        · show (d.hidden.writable && decide (s.cpl ≤ d.dpl) && decide (rpl ≤ d.dpl)) = true
          rw [hw, decide_eq_true hv.1, decide_eq_true hv.2]
          rfl
        · show (d.hidden.writable && decide (s.cpl ≤ d.dpl) && decide (rpl ≤ d.dpl)) = false
          rw [Bool.and_assoc, Bool.and_eq_false_iff, ← Bool.decide_and]
          exact h.imp_right decide_eq_false
  · intro r s hr pe rpl
    have pb : s.begin.pe = true := pe
    have lock : s.dec.lock = false := State.Ready.lock hr
    refine ⟨?_, fun m x s1 hx => ⟨fun h ps y s2 s3 hl hy => ?_, fun h => ?_⟩⟩
    · intro k x
      refine ⟨fun h => ?_, fun h => ?_⟩
      · exact completes_of_ok (l := false) (k := false) rfl hr
          (arplBody_raised pb (readRm_reg ..) h (modifyRm_reg_run rfl)) rfl (keeps_of_mem rfl)
      · exact completes_of_ok (l := false) (k := false) rfl hr (arplBody_kept pb (readRm_reg ..) h) rfl (keeps_of_mem rfl)
    · have hx' : readRm .w16 (.mem m) s.begin = .ok x s1 := hx
      have reads : s.begin.Reads s1 := loadMem_reads hx
      have regs : s1.regs.read .w16 r % 4 = rpl := by rw [reads.regs]; rfl
      have lock1 : s1.dec.lock = false := by rw [reads.dec]; exact lock
      have reads3 : s.begin.Reads s3 := (reads.trans (locateMem_reads hl)).trans (readBytes_reads hy)
      have flags : (s3.wrote ps (y / 4 * 4 + rpl)).flags = s.flags := by
        rw [State.wrote_flags, reads3.flags]
        rfl
      have run := arplBody_raised (r := r) pb hx' (by rw [regs]; exact h)
        (modifyRm_mem_run (w := .w16) hl (by rw [lock1]; exact hy) rfl)
      rw [regs, State.withZF, flags] at run
      exact completes_of_ok (l := false) (k := false) rfl hr run rfl (keeps_of_wrote reads3 rfl rfl rfl)
    · have hx' : readRm .w16 (.mem m) s.begin = .ok x s1 := hx
      have reads : s.begin.Reads s1 := loadMem_reads hx
      have regs : s1.regs.read .w16 r % 4 = rpl := by rw [reads.regs]; rfl
      have run := arplBody_kept (r := r) pb hx' (by rw [regs]; exact h)
      rw [State.withZF, reads.flags] at run
      exact completes_of_reads (l := false) (k := false) rfl hr run reads rfl

end Sys2Proof.Machine
end

section
/-! ## Input and output -/
set_option Elab.async false

namespace Sys2Proof.Machine

/-! ### Widths, numbers of bytes -/

theorem Width.bits_eq (w : Width) : w.bits = 8 * w.bytes := by cases w <;> rfl

theorem Regs.read_lt (r : Regs) (w : Width) (n : RegNum) : r.read w n < 2 ^ (8 * w.bytes) := by
  cases w
  · unfold Regs.read
    dsimp only
    split
    all_goals exact Nat.mod_lt _ (by decide)
  · exact Nat.mod_lt _ (by decide)
  · exact (r.get n).isLt

/-! ### The permission check -/

section
variable {port n : Nat} {s s1 s2 : State}

theorem ioPermission_reads {b : Bool} (h : ioPermission port n s = .ok b s1) : s.Reads s1 := by
  unfold ioPermission at h
  obtain ⟨_, _, h0, h⟩ := M.bind_ok.1 h
  cases h0
  split at h
  · cases h
    exact .refl s
  · obtain ⟨ptr, t, h1, h⟩ := M.bind_ok.1 h
    have reads := linRead_reads h1
    split at h
    · cases h
      exact reads
    · obtain ⟨bits, u, h2, h⟩ := M.bind_ok.1 h
      cases h
      exact reads.trans (linRead_reads h2)

theorem ioCheck_run (port n : Nat) (s : State) :
    ioCheck port n s = if s.pe && decide (s.flags.iopl < s.cpl) then
      (ioPermission port n >>= fun b => if !b then raiseGP 0 else pure ()) s else .ok () s := by
  simp only [ioCheck, M.bind_run, M.get_run, M.ite_run]
  split <;> rfl

theorem ioCheck_reads (h : ioCheck port n s = .ok () s1) : s.Reads s1 := by
  rw [ioCheck_run] at h
  split at h
  · obtain ⟨b, t, h1, h2⟩ := M.bind_ok.1 h
    cases b with
    | false => cases h2
    | true =>
      cases h2
      exact ioPermission_reads h1
  · cases h
    exact .refl s

theorem ioCheck_free (h : s.IoPrivileged) : ioCheck port n s = .ok () s := by
  rw [ioCheck_run, if_neg (by rw [show (s.pe && decide (s.flags.iopl < s.cpl)) = false from h]; exact Bool.noConfusion)]

theorem ioCheck_permission {b : Bool} (pe : s.pe = true) (hc : s.flags.iopl < s.cpl) (h : ioPermission port n s = .ok b s1) :
    ioCheck port n s = if b then .ok () s1 else raiseGP 0 s1 := by
  rw [ioCheck_run, if_pos (by rw [pe, decide_eq_true hc]; rfl), M.bind_run, h]
  cases b <;> rfl

theorem ioPermission_none (h : (s.tr.hid.type ≠ 9 ∧ s.tr.hid.type ≠ 11) ∨ isNull s.tr.sel = true ∨ 2 ^ 16 < port + n ∨
    s.tr.hid.limit.toNat < 0x67) : ioPermission port n s = .ok false s := by
  have refused : (isNull s.tr.sel || !(s.tr.hid.type == 9 || s.tr.hid.type == 11) || decide (port + n > 2 ^ 16) ||
      decide (s.tr.hid.limit.toNat < 0x67)) = true := by
    simp only [Bool.or_eq_true, Bool.not_eq_true', Bool.or_eq_false_iff, beq_eq_false_iff_ne, decide_eq_true_iff]
    tauto
  simp only [ioPermission, M.bind_run, M.get_run, refused, if_true, M.pure_run]

variable {ptr bits : Nat}

theorem ioPermission_map (null : isNull s.tr.sel = false) (tss : s.tr.hid.type = 9 ∨ s.tr.hid.type = 11)
    (hport : port + n ≤ 2 ^ 16) (hlim : 0x67 ≤ s.tr.hid.limit.toNat) (h1 : linRead (s.tr.hid.base.toNat + 0x66) 2 s = .ok ptr s1) :
    ioPermission port n s = if port / 8 + ptr + 1 > s.tr.hid.limit.toNat then .ok false s1 else
      (linRead (s.tr.hid.base.toNat + (port / 8 + ptr)) 2 >>= fun bits =>
        pure (bits &&& ((2 ^ n - 1) * 2 ^ (port % 8)) == 0)) s1 := by
  have allowed : (isNull s.tr.sel || !(s.tr.hid.type == 9 || s.tr.hid.type == 11) || decide (port + n > 2 ^ 16) ||
      decide (s.tr.hid.limit.toNat < 0x67)) = false := by
    rw [null, decide_eq_false (by omega : ¬ port + n > 2 ^ 16), decide_eq_false (by omega : ¬ s.tr.hid.limit.toNat < 0x67)]
    rcases tss with h | h <;> rw [h] <;> rfl
  simp only [ioPermission, M.bind_run, M.get_run, allowed, Bool.false_eq_true, if_false, h1, M.ite_run, M.pure_run]

/-- The map's bits are all 0 exactly when their conjunction with the operand's mask is. -/
theorem and_mask_eq_zero (bits n k : Nat) :
    (bits &&& ((2 ^ n - 1) * 2 ^ k) == 0) = true ↔ ∀ i, i < n → bits.testBit (k + i) = false := by
  rw [beq_iff_eq]
  constructor
  · intro h i hi
    have bit : (bits &&& ((2 ^ n - 1) * 2 ^ k)).testBit (k + i) = false := by rw [h, Nat.zero_testBit]
    simpa [Nat.testBit_mul_two_pow, Nat.testBit_two_pow_sub_one, hi] using bit
  · intro h
    refine Nat.eq_of_testBit_eq fun i => ?_
    simp only [Nat.testBit_and, Nat.testBit_mul_two_pow, Nat.testBit_two_pow_sub_one, Nat.zero_testBit]
    by_cases hi : k ≤ i ∧ i - k < n
    · have bit := h (i - k) hi.2
      rw [Nat.add_sub_cancel' hi.1] at bit
      rw [bit, Bool.false_and]
    · simp only [Bool.and_eq_false_iff, decide_eq_false_iff_not]
      tauto

end

/-! ### The cycles -/

section
variable {port n : Nat} {s : State}

theorem ioReadCycle_run (port n : Nat) (s : State) : ∃ x : Nat, x < 2 ^ (8 * n) ∧
    ioReadCycle port n s = .ok x ({ s with freeCtr := s.freeCtr + 1 }.drive
      (.ioRead (BitVec.ofNat 16 port) n (BitVec.ofNat 32 x))) :=
  ⟨(Config.ioRead port n s.freeCtr).toNat % 2 ^ (8 * n), Nat.mod_lt _ (Nat.two_pow_pos _), rfl⟩

theorem ioRead_one (hfit : port + n ≤ 2 ^ 16) (h : n ≤ 4 - port % 4) : ioRead port n s = ioReadCycle port n s := by
  simp only [ioRead, if_neg (by omega : ¬ port + n > 2 ^ 16), if_pos h]

theorem ioRead_two (hfit : port + n ≤ 2 ^ 16) (h : 4 - port % 4 < n) :
    ∃ lo hi : Nat, lo < 2 ^ (8 * (4 - port % 4)) ∧ hi < 2 ^ (8 * (n - (4 - port % 4))) ∧
      ioRead port n s = .ok (lo + hi * 2 ^ (8 * (4 - port % 4))) (({ s with freeCtr := s.freeCtr + 2 }.drive
        (.ioRead (BitVec.ofNat 16 (port + (4 - port % 4))) (n - (4 - port % 4)) (BitVec.ofNat 32 hi))).drive
        (.ioRead (BitVec.ofNat 16 port) (4 - port % 4) (BitVec.ofNat 32 lo))) := by
  obtain ⟨hi, hhi, second⟩ := ioReadCycle_run (port + (4 - port % 4)) (n - (4 - port % 4)) s
  obtain ⟨lo, hlo, first⟩ := ioReadCycle_run port (4 - port % 4) ({ s with freeCtr := s.freeCtr + 1 }.drive
    (.ioRead (BitVec.ofNat 16 (port + (4 - port % 4))) (n - (4 - port % 4)) (BitVec.ofNat 32 hi)))
  refine ⟨lo, hi, hlo, hhi, ?_⟩
  simp only [ioRead, if_neg (by omega : ¬ port + n > 2 ^ 16), if_neg (by omega : ¬ n ≤ 4 - port % 4), M.bind_run, second, first]
  rfl

theorem ioReadWrapped_run (port n : Nat) (s : State) :
    ∃ bs : List Byte, bs.length = n ∧ ioReadWrapped port n s = .ok (bytesValue bs) (s.portBytesRead port bs) := by
  induction n generalizing port s with
  | zero => exact ⟨[], rfl, rfl⟩
  | succ n ih =>
    let v := (Config.ioRead (port % 2 ^ 16) 1 s.freeCtr).toNat % 2 ^ (8 * 1)
    let b : Byte := BitVec.ofNat 8 v
    have value : b.toNat = v := by
      rw [BitVec.toNat_ofNat]
      exact Nat.mod_eq_of_lt (Nat.mod_lt _ (by decide))
    have widened : BitVec.ofNat 32 v = b.setWidth 32 := by
      rw [← value]
      exact BitVec.eq_of_toNat_eq (by simp)
    have number : BitVec.ofNat 16 (port % 2 ^ 16) = BitVec.ofNat 16 port := BitVec.eq_of_toNat_eq (by simp)
    obtain ⟨bs, hlen, run⟩ := ih (port + 1)
      ({ s with freeCtr := s.freeCtr + 1 }.drive (.ioRead (BitVec.ofNat 16 port) 1 (b.setWidth 32)))
    have first : ioReadCycle (port % 2 ^ 16) 1 s = .ok b.toNat
        ({ s with freeCtr := s.freeCtr + 1 }.drive (.ioRead (BitVec.ofNat 16 port) 1 (b.setWidth 32))) := by
      rw [value, ← widened, ← number]
      rfl
    exact ⟨b :: bs, congrArg (· + 1) hlen, M.bind_of_ok first (M.bind_of_ok run rfl)⟩

theorem ioRead_wrapped (h : 2 ^ 16 < port + n) : ioRead port n s = ioReadWrapped port n s := by
  simp only [ioRead, if_pos (by omega : port + n > 2 ^ 16)]

variable {v : Nat}

theorem ioWriteCycle_run (hv : v < 2 ^ (8 * n)) :
    ioWriteCycle port n v s = .ok () (s.drive (.ioWrite (BitVec.ofNat 16 port) n (BitVec.ofNat 32 v))) := by
  rw [ioWriteCycle, Nat.mod_eq_of_lt hv]

theorem ioWrite_one (hfit : port + n ≤ 2 ^ 16) (h : n ≤ 4 - port % 4) : ioWrite port n v s = ioWriteCycle port n v s := by
  simp only [ioWrite, if_neg (by omega : ¬ port + n > 2 ^ 16), if_pos h]

theorem ioWrite_two (hfit : port + n ≤ 2 ^ 16) (h : 4 - port % 4 < n) (hv : v < 2 ^ (8 * n)) :
    ioWrite port n v s = .ok () ((s.drive
      (.ioWrite (BitVec.ofNat 16 (port + (4 - port % 4))) (n - (4 - port % 4)) (BitVec.ofNat 32 (v / 2 ^ (8 * (4 - port % 4)))))).drive
      (.ioWrite (BitVec.ofNat 16 port) (4 - port % 4) (BitVec.ofNat 32 (v % 2 ^ (8 * (4 - port % 4)))))) := by
  have high : v / 2 ^ (8 * (4 - port % 4)) < 2 ^ (8 * (n - (4 - port % 4))) := by
    rw [Nat.div_lt_iff_lt_mul (Nat.two_pow_pos _), ← Nat.pow_add]
    rwa [show 8 * (n - (4 - port % 4)) + 8 * (4 - port % 4) = 8 * n by omega]
  simp only [ioWrite, if_neg (by omega : ¬ port + n > 2 ^ 16), if_neg (by omega : ¬ n ≤ 4 - port % 4), M.bind_run,
    ioWriteCycle_run high]
  rfl

theorem ioWrite_wrapped (h : 2 ^ 16 < port + n) : ioWrite port n v s = ioWriteWrapped port n v s := by
  simp only [ioWrite, if_pos (by omega : port + n > 2 ^ 16)]

theorem ioWriteWrapped_run (port : Nat) (bs : List Byte) (s : State) :
    ioWriteWrapped port bs.length (bytesValue bs) s = .ok () (s.portBytesWritten port bs) := by
  induction bs generalizing port s with
  | nil => rfl
  | cons b bs ih =>
    have low : (bytesValue (b :: bs)) % 2 ^ (8 * 1) = b.toNat := by
      have := b.isLt
      simp only [bytesValue]
      omega
    have high : bytesValue (b :: bs) / 256 = bytesValue bs := by
      have := b.isLt
      simp only [bytesValue]
      omega
    have widened : BitVec.ofNat 32 b.toNat = b.setWidth 32 := BitVec.eq_of_toNat_eq (by simp)
    have number : BitVec.ofNat 16 (port % 2 ^ 16) = BitVec.ofNat 16 port := BitVec.eq_of_toNat_eq (by simp)
    have first : ioWriteCycle (port % 2 ^ 16) 1 (bytesValue (b :: bs)) s =
        .ok () (s.drive (.ioWrite (BitVec.ofNat 16 port) 1 (b.setWidth 32))) := by
      rw [ioWriteCycle, low, widened, number]
    refine M.bind_of_ok first ?_
    rw [high]
    exact ih (port + 1) _

theorem State.portBytesRead_mem (s : State) (port : Nat) (bs : List Byte) : (s.portBytesRead port bs).mem = s.mem := by
  induction bs generalizing s port with
  | nil => rfl
  | cons b bs ih => exact ih _ _

theorem State.portBytesWritten_mem (s : State) (port : Nat) (bs : List Byte) : (s.portBytesWritten port bs).mem = s.mem := by
  induction bs generalizing s port with
  | nil => rfl
  | cons b bs ih => exact ih _ _

end

/-! ### IN and OUT -/

theorem inBody_run (f : InForm) (s : State) : inBody f s = inPort (inWidth s.osz.width f) (inPortOf s.regs f) s := by
  cases f <;> rfl

theorem outBody_run (f : OutForm) (s : State) : outBody f s = outPort (outWidth s.osz.width f) (outPortOf s.regs f) s := by
  cases f <;> rfl

theorem inPortOf_lt (r : Regs) (f : InForm) : inPortOf r f < 2 ^ 16 := by
  cases f
  case alIb imm | eaxIb imm => exact imm.isLt.trans (by decide)
  case alDx | eaxDx => exact Nat.mod_lt _ (by decide)

theorem outPortOf_lt (r : Regs) (f : OutForm) : outPortOf r f < 2 ^ 16 := by
  cases f
  case ibAl imm | ibEax imm => exact imm.isLt.trans (by decide)
  case dxAl | dxEax => exact Nat.mod_lt _ (by decide)

section
variable {s s1 t : State}

theorem completes_of_in {f : InForm} {x : Nat} (hr : s.Ready false)
    (hc : ioCheck (inPortOf s.regs f) (inWidth s.osz.width f).bytes s.begin = .ok () s1)
    (hx : ioRead (inPortOf s.regs f) (inWidth s.osz.width f).bytes s1 = .ok x t) (hm : t.mem = s1.mem) :
    Completes (.in_ f) s ((t.withReg (inWidth s.osz.width f) regEAX x).complete false) [] := by
  have run : inPort (inWidth s.osz.width f) (inPortOf s.regs f) s.begin = .ok () (t.withReg (inWidth s.osz.width f) regEAX x) :=
    M.bind_of_ok hc (M.bind_of_ok hx rfl)
  exact completes_of_reads rfl hr ((inBody_run f s.begin).trans run) (ioCheck_reads hc) hm

theorem completes_of_out {f : OutForm} (hr : s.Ready false)
    (hc : ioCheck (outPortOf s.regs f) (outWidth s.osz.width f).bytes s.begin = .ok () s1)
    (hx : ioWrite (outPortOf s.regs f) (outWidth s.osz.width f).bytes (s.regs.read (outWidth s.osz.width f) regEAX) s1 = .ok () t)
    (hm : t.mem = s1.mem) : Completes (.out f) s (t.complete false) [] := by
  have value : getReg (outWidth s.osz.width f) regEAX s1 = .ok (s.regs.read (outWidth s.osz.width f) regEAX) s1 := by
    rw [getReg_run, (ioCheck_reads hc).regs]
    rfl
  have run : outPort (outWidth s.osz.width f) (outPortOf s.regs f) s.begin = .ok () t :=
    M.bind_of_ok hc (M.bind_of_ok value hx)
  exact completes_of_reads rfl hr ((outBody_run f s.begin).trans run) (ioCheck_reads hc) hm

end

/-- Settles O34. -/
theorem inputOutput : Obligations.InputOutput := by
  refine ⟨fun s hr => ⟨?_, ?_⟩, fun s hr => ⟨?_, ?_⟩, fun port n s => ⟨ioCheck_free, fun pe hc h => ?_, ?_⟩⟩
  · intro f s1 w port hc h
    have := inPortOf_lt s.regs f
    have run := ioRead_one (s := s1) (port := port) (n := w.bytes) (by omega) (by omega)
    obtain ⟨x, hx, cycle⟩ := ioReadCycle_run port w.bytes s1
    exact ⟨ioCheck_reads hc, x, by rwa [Width.bits_eq], completes_of_in hr hc (run.trans cycle) rfl⟩
  · intro f s1 w port hc h
    have := outPortOf_lt s.regs f
    have run := ioWrite_one (s := s1) (port := port) (n := w.bytes) (v := s.regs.read w regEAX) (by omega) (by omega)
    exact ⟨ioCheck_reads hc, completes_of_out hr hc (run.trans (ioWriteCycle_run (Regs.read_lt ..))) rfl⟩
  · intro f s1 w port k hc
    refine ⟨fun hfit hk => ?_, fun h => ?_⟩
    · obtain ⟨lo, hi, hlo, hhi, run⟩ := ioRead_two (s := s1) hfit hk
      exact ⟨lo, hi, hlo, hhi, completes_of_in hr hc run rfl⟩
    · obtain ⟨bs, hlen, run⟩ := ioReadWrapped_run port w.bytes s1
      exact ⟨bs, hlen, completes_of_in hr hc ((ioRead_wrapped h).trans run) (s1.portBytesRead_mem port bs)⟩
  · intro f s1 w port x k hc
    refine ⟨fun hfit hk => ?_, fun h bs hlen hv => ?_⟩
    · exact completes_of_out hr hc (ioWrite_two hfit hk (Regs.read_lt ..)) rfl
    · have run := ioWriteWrapped_run port bs s1
      rw [hlen, hv] at run
      exact completes_of_out hr hc ((ioWrite_wrapped h).trans run) (s1.portBytesWritten_mem port bs)
  · exact ioCheck_permission pe hc (ioPermission_none h)
  · intro ptr bits s1 s2 pe hc null tss hport hlim h1
    have map := ioPermission_map null tss hport hlim h1
    refine ⟨fun h => ?_, fun h h2 => ?_⟩
    · exact ioCheck_permission pe hc (map.trans (if_pos h))
    · have read := map.trans ((if_neg (not_lt.2 h)).trans (M.bind_of_ok h2 rfl))
      refine ⟨fun hz => ?_, fun hz => ?_⟩
      · rw [(and_mask_eq_zero bits n (port % 8)).2 hz] at read
        exact ioCheck_permission pe hc read
      · have refused : (bits &&& ((2 ^ n - 1) * 2 ^ (port % 8)) == 0) = false := by
          rw [Bool.eq_false_iff, ne_eq, and_mask_eq_zero]
          obtain ⟨i, hi, hb⟩ := hz
          exact fun h => Bool.noConfusion ((h i hi).symm.trans hb)
        rw [refused] at read
        exact ioCheck_permission pe hc read

end Sys2Proof.Machine
end

section
/-! ## String instructions -/
set_option Elab.async false

namespace Sys2Proof.Machine

/-! ### What a port access changes -/

/-- Only the bus and the counter of free choices moved. -/
def State.Drives (s t : State) : Prop := t = { s with bus := t.bus, freeCtr := t.freeCtr }

section
variable {port n v : Nat} {s t u : State}

theorem State.Drives.refl (s : State) : s.Drives s := rfl

theorem State.Drives.trans (h : s.Drives t) (k : t.Drives u) : s.Drives u := by
  unfold State.Drives at *
  rw [k, h]

theorem State.Drives.cycle (s : State) (c : Nat) (e : BusEvent) : s.Drives ({ s with freeCtr := c }.drive e) := rfl

theorem State.Drives.portBytesRead (port : Nat) (bs : List Byte) (s : State) : s.Drives (s.portBytesRead port bs) := by
  induction bs generalizing port s with
  | nil => rfl
  | cons b bs ih => exact (State.Drives.cycle s (s.freeCtr + 1) _).trans (ih (port + 1) _)

theorem State.Drives.portBytesWritten (port : Nat) (bs : List Byte) (s : State) : s.Drives (s.portBytesWritten port bs) := by
  induction bs generalizing port s with
  | nil => rfl
  | cons b bs ih => exact (State.Drives.cycle s s.freeCtr _).trans (ih (port + 1) _)

theorem ioRead_drives (h : ioRead port n s = .ok v t) : s.Drives t := by
  by_cases fit : port + n ≤ 2 ^ 16
  · by_cases one : n ≤ 4 - port % 4
    · rw [ioRead_one fit one] at h
      cases h
      rfl
    · obtain ⟨lo, hi, -, -, run⟩ := ioRead_two (s := s) fit (not_le.1 one)
      rw [run] at h
      cases h
      rfl
  · obtain ⟨bs, -, run⟩ := ioReadWrapped_run port n s
    rw [ioRead_wrapped (not_le.1 fit), run] at h
    cases h
    exact .portBytesRead port bs s

theorem ioWriteWrapped_drives (h : ioWriteWrapped port n v s = .ok () t) : s.Drives t := by
  induction n generalizing port v s with
  | zero =>
    cases h
    rfl
  | succ n ih =>
    obtain ⟨_, u, h1, h2⟩ := M.bind_ok.1 h
    cases h1
    exact (State.Drives.cycle s s.freeCtr _).trans (ih h2)

theorem ioWrite_drives (h : ioWrite port n v s = .ok () t) : s.Drives t := by
  by_cases fit : port + n ≤ 2 ^ 16
  · by_cases one : n ≤ 4 - port % 4
    · rw [ioWrite_one fit one] at h
      cases h
      rfl
    · simp only [ioWrite, if_neg (by omega : ¬ port + n > 2 ^ 16), if_neg one] at h
      cases h
      rfl
  · rw [ioWrite_wrapped (not_le.1 fit)] at h
    exact ioWriteWrapped_drives h

end

/-! ### One operation -/

/-- The meaning of one operation. -/
def StringOp.once (op : StringOp) (w : Width) : M Unit :=
  match op with
  | .movs => movsOnce w
  | .cmps => cmpsOnce w
  | .scas => scasOnce w
  | .lods => lodsOnce w
  | .stos => stosOnce w
  | .ins => insOnce w
  | .outs => outsOnce w

theorem exec_string (op : StringOp) (byte : Bool) (s : State) :
    ∃ body : M Unit, exec (op.instr byte) s = runInstr false false body s ∧
      body s.begin = repeated op.scans (op.once (pickWidth byte s.osz.width)) s.begin := by
  cases op <;> cases byte <;> exact ⟨_, rfl, rfl⟩

theorem advance_run (r : RegNum) (n : Nat) (s : State) : advance r n s = .ok () (s.advanced r n) := rfl

section
variable {s t : State} {ps : List BytePlace} {n : Nat}

theorem loadSource_run (n : Nat) (s : State) :
    loadSource n s = load (s.dec.seg.getD .ds) (s.regs.read s.asz.width regESI) n n s := rfl

theorem loadDest_run (n : Nat) (s : State) : loadDest n s = load .es (s.regs.read s.asz.width regEDI) n n s := rfl

theorem destPlaces_run (n : Nat) (s : State) : destPlaces n s = locate .es (s.regs.read s.asz.width regEDI) n n true s := rfl

/-- One operation runs as its rule says. -/
theorem StringOp.once_run {op : StringOp} {w : Width} (h : op.Once w s t ps) : op.once w s = .ok () t := by
  cases op with
  | movs =>
    obtain ⟨x, s1, s2, h1, h2, rfl⟩ := h
    have reads := load_reads h1
    rw [← reads.regs, ← reads.asz] at h2
    exact M.bind_of_ok h1 (M.bind_of_ok h2 rfl)
  | cmps =>
    obtain ⟨a, b, s1, s2, h1, h2, rfl, rfl⟩ := h
    have reads := load_reads h1
    have flags : s2.flags = s.flags := (reads.trans (load_reads h2)).flags
    rw [← reads.regs, ← reads.asz] at h2
    rw [← flags]
    exact M.bind_of_ok h1 (M.bind_of_ok h2 rfl)
  | scas =>
    obtain ⟨b, s1, h1, rfl, rfl⟩ := h
    rw [← (load_reads h1).flags]
    exact M.bind_of_ok (getReg_run ..) (M.bind_of_ok h1 rfl)
  | lods =>
    obtain ⟨x, s1, h1, rfl, rfl⟩ := h
    exact M.bind_of_ok h1 rfl
  | stos =>
    obtain ⟨s1, h1, rfl⟩ := h
    exact M.bind_of_ok (getReg_run ..) (M.bind_of_ok h1 rfl)
  | ins =>
    obtain ⟨x, s1, s2, s3, h1, h2, h3, rfl⟩ := h
    have reads := ioCheck_reads h1
    rw [← reads.regs, ← reads.asz] at h2
    exact M.bind_of_ok (getReg_run ..) (M.bind_of_ok h1 (M.bind_of_ok h2 (M.bind_of_ok h3 rfl)))
  | outs =>
    obtain ⟨x, s1, s2, s3, h1, h2, rfl, h3, rfl⟩ := h
    have reads := ioCheck_reads h1
    have read : loadSource w.bytes s1 = .ok x s2 := by
      rw [loadSource_run, reads.dec, reads.regs, reads.asz]
      exact h2
    exact M.bind_of_ok (getReg_run ..) (M.bind_of_ok h1 (M.bind_of_ok read (M.bind_of_ok h3 rfl)))

/-- `t` follows `s` with EIP as it was and memory changed at `ps` only. -/
def State.KeepsEip (s t : State) (ps : List BytePlace) : Prop := s.KeepsBut t ps ∧ t.eip = s.eip

theorem State.KeepsEip.of_reads (h : s.Reads t) : s.KeepsEip t [] := ⟨.of_reads h, h.eip⟩

theorem State.KeepsEip.of_drives (h : s.Drives t) : s.KeepsEip t [] := by
  unfold State.Drives at h
  rw [h]
  exact ⟨.of_eq rfl rfl rfl, rfl⟩

theorem State.KeepsEip.trans {u : State} {qs : List BytePlace} (h : s.KeepsEip t ps) (k : t.KeepsEip u qs) :
    s.KeepsEip u (ps ++ qs) := ⟨h.1.trans k.1, k.2.trans h.2⟩

theorem State.KeepsEip.wrote (s : State) (ps : List BytePlace) (v : Nat) : s.KeepsEip (s.wrote ps v) ps := by
  refine ⟨.wrote s ps v, ?_⟩
  rw [wrote_touches s ps v]

theorem State.KeepsEip.advanced (h : s.KeepsEip t ps) (r : RegNum) (n : Nat) : s.KeepsEip (t.advanced r n) ps := h

theorem State.KeepsEip.withReg (h : s.KeepsEip t ps) (w : Width) (r : RegNum) (n : Nat) : s.KeepsEip (t.withReg w r n) ps := h

theorem State.KeepsEip.withFlags (h : s.KeepsEip t ps) (f : Flags) : s.KeepsEip (t.withFlags f) ps := h

theorem StringOp.once_keeps {op : StringOp} {w : Width} (h : op.Once w s t ps) : s.KeepsEip t ps := by
  cases op with
  | movs =>
    obtain ⟨x, s1, s2, h1, h2, rfl⟩ := h
    exact (((State.KeepsEip.of_reads ((load_reads h1).trans (locate_reads h2))).trans (.wrote s2 ps x)).advanced _ _).advanced _ _
  | cmps =>
    obtain ⟨a, b, s1, s2, h1, h2, rfl, rfl⟩ := h
    exact (((State.KeepsEip.of_reads ((load_reads h1).trans (load_reads h2))).withFlags _).advanced _ _).advanced _ _
  | scas =>
    obtain ⟨b, s1, h1, rfl, rfl⟩ := h
    exact ((State.KeepsEip.of_reads (load_reads h1)).withFlags _).advanced _ _
  | lods =>
    obtain ⟨x, s1, h1, rfl, rfl⟩ := h
    exact ((State.KeepsEip.of_reads (load_reads h1)).withReg _ _ _).advanced _ _
  | stos =>
    obtain ⟨s1, h1, rfl⟩ := h
    exact ((State.KeepsEip.of_reads (locate_reads h1)).trans (.wrote s1 ps _)).advanced _ _
  | ins =>
    obtain ⟨x, s1, s2, s3, h1, h2, h3, rfl⟩ := h
    have read := State.KeepsEip.of_reads ((ioCheck_reads h1).trans (locate_reads h2))
    exact ((read.trans (.of_drives (ioRead_drives h3))).trans (.wrote s3 ps x)).advanced _ _
  | outs =>
    obtain ⟨x, s1, s2, s3, h1, h2, rfl, h3, rfl⟩ := h
    have read := State.KeepsEip.of_reads ((ioCheck_reads h1).trans (load_reads h2))
    exact (read.trans (.of_drives (ioWrite_drives h3))).advanced _ _

end

/-! ### Repetition -/

/-- Whether ZF ends a scan. -/
def Rep.endsScan (k : Rep) (zf : Bool) : Bool :=
  match k with
  | .rep => !zf
  | .repne => zf

section
variable {scan : Bool} {once : M Unit} {k : Rep} {s t : State}

theorem repeated_once (h : s.dec.rep = none) : repeated scan once s = once s := by
  simp only [repeated, M.bind_run, M.get_run, h]

theorem repeated_zero (h : s.dec.rep = some k) (hn : s.regs.read s.asz.width regECX = 0) : repeated scan once s = .ok () s := by
  simp only [repeated, M.bind_run, M.get_run, h, getIndex_run, if_pos hn, M.pure_run]

theorem repeated_step (h : s.dec.rep = some k) (hn : s.regs.read s.asz.width regECX ≠ 0) (ht : once s = .ok () t) :
    repeated scan once s =
      if s.regs.read s.asz.width regECX = 1 ∨ (scan && k.endsScan t.flags.zf) = true then
        .ok () (t.withReg s.asz.width regECX (s.regs.read s.asz.width regECX - 1))
      else .ok () { t.withReg s.asz.width regECX (s.regs.read s.asz.width regECX - 1) with
        eip := t.eip - BitVec.ofNat 32 s.dec.len, latch := { t.latch with repActive := true } } := by
  simp only [repeated, M.bind_run, M.get_run, h, getIndex_run, if_neg hn, ht, setReg_run, M.ite_run, M.pure_run, M.modify_run]
  cases k <;> rfl

end

/-- Settles O35. -/
theorem stringInstructions : Obligations.StringInstructions := by
  constructor
  · intro op byte s t ps hr hrep once
    obtain ⟨body, exec, run⟩ := exec_string op byte s
    have hb := (run.trans (repeated_once hrep)).trans (StringOp.once_run once)
    obtain ⟨keeps, -⟩ := StringOp.once_keeps once
    exact completes_of_ok exec hr hb rfl (keeps.keepsMemory rfl)
  · intro op byte k s t ps hr hrep n
    obtain ⟨body, exec, run⟩ := exec_string op byte s
    refine ⟨fun hn => completes_of_ok exec hr (run.trans (repeated_zero hrep hn)) rfl (keeps_of_mem rfl), ?_⟩
    intro hn once t' ends
    have step := run.trans (repeated_step (s := s.begin) (scan := op.scans) hrep hn (StringOp.once_run once))
    obtain ⟨keeps, eip⟩ := StringOp.once_keeps once
    have ends_eq : (op.scans && k.endsScan t.flags.zf) = ends := by cases k <;> rfl
    rw [ends_eq] at step
    refine ⟨fun h => ?_, fun h1 hends => ?_⟩
    · exact completes_of_ok exec hr (step.trans (if_pos h)) rfl (keeps.keepsMemory rfl)
    · have back : t.eip - BitVec.ofNat 32 s.begin.dec.len = s.eip := by
        rw [eip]
        exact BitVec.add_sub_cancel ..
      have again : ¬ (n = 1 ∨ ends = true) := fun h => h.elim h1 fun h => Bool.noConfusion (hends.symm.trans h)
      have hb := step.trans (if_neg again)
      rw [back] at hb
      exact completes_of_ok exec hr hb rfl (keeps.keepsMemory rfl)

end Sys2Proof.Machine
end

section
/-! ## Extended reals: fields, classes, values -/
set_option Elab.async false

namespace Sys2Proof.Machine

/-! ### The number of bits -/

theorem bitLen_eq_size (n : Nat) : bitLen n = n.size := by
  unfold bitLen
  split
  next h => rw [h]; rfl
  next h =>
    refine (Nat.le_antisymm (Nat.size_le.2 ?_) (Nat.lt_size.2 ?_)).symm
    · exact Nat.lt_log2_self
    · exact Nat.log2_self_le h

theorem bitLen_zero : bitLen 0 = 0 := rfl

theorem bitLen_le {n k : Nat} : bitLen n ≤ k ↔ n < 2 ^ k := by rw [bitLen_eq_size, Nat.size_le]

theorem lt_bitLen {n k : Nat} : k < bitLen n ↔ 2 ^ k ≤ n := by rw [bitLen_eq_size, Nat.lt_size]

theorem lt_two_pow_bitLen (n : Nat) : n < 2 ^ bitLen n := bitLen_le.1 (le_refl _)

theorem bitLen_pos {n : Nat} (h : n ≠ 0) : 0 < bitLen n := lt_bitLen.2 (Nat.pos_of_ne_zero h)

theorem two_pow_le_of_ne_zero {n : Nat} (h : n ≠ 0) : 2 ^ (bitLen n - 1) ≤ n :=
  lt_bitLen.1 (Nat.sub_lt (bitLen_pos h) Nat.one_pos)

theorem bitLen_eq_iff {n k : Nat} : bitLen n = k + 1 ↔ 2 ^ k ≤ n ∧ n < 2 ^ (k + 1) := by
  rw [← lt_bitLen, ← bitLen_le]
  omega

theorem bitLen_mul_two_pow {n : Nat} (h : n ≠ 0) (k : Nat) : bitLen (n * 2 ^ k) = bitLen n + k := by
  obtain ⟨j, hj⟩ : ∃ j, bitLen n = j + 1 := ⟨bitLen n - 1, (Nat.succ_pred_eq_of_pos (bitLen_pos h)).symm⟩
  obtain ⟨lo, hi⟩ := bitLen_eq_iff.1 hj
  rw [hj, show j + 1 + k = (j + k) + 1 by omega, bitLen_eq_iff, Nat.pow_add 2 j k, show j + k + 1 = (j + 1) + k by omega, Nat.pow_add 2 (j + 1) k]
  exact ⟨Nat.mul_le_mul_right _ lo, Nat.mul_lt_mul_of_pos_right hi (Nat.two_pow_pos k)⟩

/-! ### Fields -/

theorem extExp_lt (x : Ext) : extExp x < 2 ^ 15 := (x.extractLsb' 64 15).isLt

theorem extSig_lt (x : Ext) : extSig x < 2 ^ 64 := (x.extractLsb' 0 64).isLt

theorem extPack_toNat (neg : Bool) {e sig : Nat} (he : e < 2 ^ 15) (hs : sig < 2 ^ 64) :
    (extPack neg e sig).toNat = (neg.toNat * 2 ^ 15 + e) * 2 ^ 64 + sig := by
  rw [extPack, BitVec.toNat_append, BitVec.toNat_append, BitVec.toNat_ofNat, BitVec.toNat_ofNat, BitVec.toNat_ofBool,
    Nat.mod_eq_of_lt he, Nat.mod_eq_of_lt hs, ← Nat.shiftLeft_add_eq_or_of_lt he, ← Nat.shiftLeft_add_eq_or_of_lt hs,
    Nat.shiftLeft_eq, Nat.shiftLeft_eq]

theorem extSig_eq (x : Ext) : extSig x = x.toNat % 2 ^ 64 := by
  rw [extSig, BitVec.extractLsb'_toNat, Nat.shiftRight_zero]

theorem extExp_eq (x : Ext) : extExp x = x.toNat / 2 ^ 64 % 2 ^ 15 := by
  rw [extExp, BitVec.extractLsb'_toNat, Nat.shiftRight_eq_div_pow]

theorem extNeg_eq (x : Ext) : extNeg x = decide (2 ^ 79 ≤ x.toNat) := by
  have := x.isLt
  rw [extNeg, BitVec.getLsbD, Nat.testBit_eq_decide_div_mod_eq]
  apply decide_eq_decide.2
  omega

section
variable (neg : Bool) {e sig : Nat}

theorem extSig_pack (he : e < 2 ^ 15) (hs : sig < 2 ^ 64) : extSig (extPack neg e sig) = sig := by
  rw [extSig_eq, extPack_toNat neg he hs]
  omega

theorem extExp_pack (he : e < 2 ^ 15) (hs : sig < 2 ^ 64) : extExp (extPack neg e sig) = e := by
  rw [extExp_eq, extPack_toNat neg he hs]
  omega

theorem extNeg_pack (he : e < 2 ^ 15) (hs : sig < 2 ^ 64) : extNeg (extPack neg e sig) = neg := by
  rw [extNeg_eq, extPack_toNat neg he hs]
  cases neg <;> simp <;> omega

end

theorem ext_eq_pack (x : Ext) : x = extPack (extNeg x) (extExp x) (extSig x) := by
  have := x.isLt
  refine BitVec.eq_of_toNat_eq ?_
  rw [extPack_toNat _ (extExp_lt x) (extSig_lt x), extSig_eq, extExp_eq, extNeg_eq]
  by_cases h : 2 ^ 79 ≤ x.toNat
  · rw [decide_eq_true h, Bool.toNat_true]
    omega
  · rw [decide_eq_false h, Bool.toNat_false]
    omega

/-- An extended value is known by its sign, exponent and significand. -/
theorem ext_ext {x y : Ext} (hn : extNeg x = extNeg y) (he : extExp x = extExp y) (hs : extSig x = extSig y) : x = y := by
  rw [ext_eq_pack x, ext_eq_pack y, hn, he, hs]

/-! ### Classes -/

/-- The class of a biased exponent and a significand. -/
def classOf (e sig : Nat) : FpClass :=
  if e = 0 then (if 2 ^ 63 ≤ sig then .pseudoDenormal else if sig = 0 then .zero else .denormal)
  else if e = 0x7FFF then
    (if 2 ^ 63 ≤ sig then (if sig = 2 ^ 63 then .infinity else if 2 ^ 63 + 2 ^ 62 ≤ sig then .qnan else .snan) else .pseudo)
  else (if 2 ^ 63 ≤ sig then .normal else .unnormal)

theorem extClass_eq (x : Ext) : extClass x = classOf (extExp x) (extSig x) := by
  have hs := extSig_lt x
  have j : x.getLsbD 63 = decide (2 ^ 63 ≤ extSig x) := by
    rw [extSig_eq, BitVec.getLsbD, Nat.testBit_eq_decide_div_mod_eq]
    apply decide_eq_decide.2
    omega
  have k : x.getLsbD 62 = decide (2 ^ 62 ≤ extSig x % 2 ^ 63) := by
    rw [extSig_eq, BitVec.getLsbD, Nat.testBit_eq_decide_div_mod_eq]
    apply decide_eq_decide.2
    omega
  unfold extClass classOf
  simp only [j, k, decide_eq_true_eq]
  split
  · split
    · rfl
    · next h => rw [if_congr (show extSig x % 2 ^ 63 = 0 ↔ extSig x = 0 by omega) rfl rfl]
  · split
    · split
      · next h =>
        rw [if_congr (show extSig x % 2 ^ 63 = 0 ↔ extSig x = 2 ^ 63 by omega) rfl rfl,
          if_congr (show 2 ^ 62 ≤ extSig x % 2 ^ 63 ↔ 2 ^ 63 + 2 ^ 62 ≤ extSig x by omega) rfl rfl]
      · rfl
    · rfl

theorem extClass_pack (neg : Bool) {e sig : Nat} (he : e < 2 ^ 15) (hs : sig < 2 ^ 64) :
    extClass (extPack neg e sig) = classOf e sig := by
  rw [extClass_eq, extExp_pack neg he hs, extSig_pack neg he hs]

theorem classOf_normal {e sig : Nat} (h0 : 0 < e) (he : e < 0x7FFF) (hs : 2 ^ 63 ≤ sig) : classOf e sig = .normal := by
  unfold classOf
  rw [if_neg (by omega), if_neg (by omega), if_pos hs]

section
variable {x : Ext}

theorem extClass_zero_iff : extClass x = .zero ↔ extExp x = 0 ∧ extSig x = 0 := by
  rw [extClass_eq, classOf]
  split_ifs <;> simp_all
  omega

theorem extClass_infinity_iff : extClass x = .infinity ↔ extExp x = 0x7FFF ∧ extSig x = 2 ^ 63 := by
  rw [extClass_eq, classOf]
  split_ifs <;> simp_all
  omega

theorem extClass_normal_iff : extClass x = .normal ↔ 0 < extExp x ∧ extExp x < 0x7FFF ∧ 2 ^ 63 ≤ extSig x := by
  have := extExp_lt x
  rw [extClass_eq, classOf]
  split_ifs <;> simp_all
  omega

theorem extClass_isDenormal_iff : (extClass x).isDenormal = true ↔ extExp x = 0 ∧ extSig x ≠ 0 := by
  rw [extClass_eq, classOf]
  split_ifs <;> simp_all [FpClass.isDenormal]
  omega

theorem extClass_isNan_iff : (extClass x).isNan = true ↔ extExp x = 0x7FFF ∧ 2 ^ 63 < extSig x := by
  rw [extClass_eq, classOf]
  split_ifs <;> simp_all [FpClass.isNan] <;> omega

theorem finiteExt_iff : finiteExt x = true ↔ extExp x = 0 ∨ (extExp x < 0x7FFF ∧ 2 ^ 63 ≤ extSig x) := by
  have := extExp_lt x
  unfold finiteExt
  rw [extClass_eq, classOf]
  split_ifs <;> simp_all
  omega

end

end Sys2Proof.Machine
end

section
/-! ## Extended reals: values, encoding, rounding -/
set_option Elab.async false

namespace Sys2Proof.Machine

/-! ### Powers of two -/

theorem two_zpow_pos (e : Int) : (0 : ℚ) < 2 ^ e := zpow_pos two_pos e

/-- A power of two moved into the exponent. -/
theorem mul_pow_mul_zpow (q : ℚ) {k : Nat} {a b : Int} (h : k + a = b) : q * 2 ^ k * (2 : ℚ) ^ a = q * (2 : ℚ) ^ b := by
  rw [← h, zpow_add₀ two_ne_zero, zpow_natCast, mul_assoc]

/-- The sign of a number. -/
def signOf (neg : Bool) : ℚ := if neg then -1 else 1

theorem signOf_ne_zero (neg : Bool) : signOf neg ≠ 0 := by cases neg <;> norm_num [signOf]

theorem abs_signOf (neg : Bool) : |signOf neg| = 1 := by cases neg <;> norm_num [signOf]

theorem signOf_mul_self (neg : Bool) : signOf neg * signOf neg = 1 := by cases neg <;> norm_num [signOf]

theorem signOf_xor (a b : Bool) : signOf (a ^^ b) = signOf a * signOf b := by cases a <;> cases b <;> norm_num [signOf]

/-! ### Values -/

theorem Finite.value_eq (x : Finite) : x.value = signOf x.neg * (x.sig * (2 : ℚ) ^ x.exp) := mul_assoc ..

theorem Finite.abs_value (x : Finite) : |x.value| = x.sig * (2 : ℚ) ^ x.exp := by
  rw [x.value_eq, abs_mul, abs_signOf, one_mul, abs_of_nonneg (mul_nonneg (Nat.cast_nonneg _) (two_zpow_pos _).le)]

theorem Finite.value_eq_zero {x : Finite} : x.value = 0 ↔ x.sig = 0 := by
  rw [← abs_eq_zero, x.abs_value, mul_eq_zero, Nat.cast_eq_zero, or_iff_left (two_zpow_pos _).ne']

theorem extValue_eq_zero {x : Ext} : extValue x = 0 ↔ extSig x = 0 := Finite.value_eq_zero

theorem extValue_pack (neg : Bool) {e sig : Nat} (he : e < 2 ^ 15) (hs : sig < 2 ^ 64) :
    extValue (extPack neg e sig) = signOf neg * (sig * (2 : ℚ) ^ (((max e 1 : Nat) : Int) - 16446)) := by
  rw [extValue, Finite.value_eq, extFinite, extNeg_pack neg he hs, extExp_pack neg he hs, extSig_pack neg he hs]

/-! ### Encoding -/

theorem extEncode_zero (neg : Bool) (unit : Int) : extEncode neg 0 unit = extZero neg := by
  simp [extEncode]

/-- What `extEncode` packs: a number of the format with the value asked for. -/
structure Encodes (e sig q : Nat) (unit : Int) : Prop where
  format : (e = 0 ∧ sig < 2 ^ 63) ∨ (0 < e ∧ e < 0x7FFF ∧ 2 ^ 63 ≤ sig ∧ sig < 2 ^ 64)
  value : (sig : ℚ) * (2 : ℚ) ^ (((max e 1 : Nat) : Int) - 16446) = q * (2 : ℚ) ^ unit

section
variable (neg : Bool) {q : Nat} {unit : Int}

theorem extEncode_normal (hq : q ≠ 0) (fit : q ≤ 2 ^ 64) (lo : -16382 ≤ leading q unit) (hi : leading q unit ≤ 16383) :
    ∃ e sig : Nat, extEncode neg q unit = extPack neg e sig ∧ Encodes e sig q unit ∧ 0 < e := by
  have pos := bitLen_pos hq
  unfold leading at lo hi
  refine ⟨(leading q unit + 16383).toNat, if bitLen q ≤ 64 then q * 2 ^ (64 - bitLen q) else q / 2 ^ (bitLen q - 64),
    ?_, ⟨.inr ?_, ?_⟩, by unfold leading; omega⟩
  · rw [extEncode]
    simp only [if_neg hq]
    rw [if_neg (by unfold leading; omega)]
  · have bounds : 2 ^ 63 ≤ (if bitLen q ≤ 64 then q * 2 ^ (64 - bitLen q) else q / 2 ^ (bitLen q - 64)) ∧
        (if bitLen q ≤ 64 then q * 2 ^ (64 - bitLen q) else q / 2 ^ (bitLen q - 64)) < 2 ^ 64 := by
      split
      next h =>
        have len := bitLen_mul_two_pow hq (64 - bitLen q)
        exact bitLen_eq_iff.1 (len.trans (by omega))
      next h =>
        have all : q = 2 ^ 64 := le_antisymm fit (lt_bitLen.1 (not_le.1 h))
        subst all
        decide
    unfold leading
    omega
  · unfold leading
    rw [max_eq_left (by omega), Int.toNat_of_nonneg (by omega)]
    split
    next h =>
      rw [Nat.cast_mul, Nat.cast_pow, Nat.cast_two]
      exact mul_pow_mul_zpow _ (by omega)
    next h =>
      have all : q = 2 ^ 64 := le_antisymm fit (lt_bitLen.1 (not_le.1 h))
      have len : bitLen q = 65 := by rw [all]; exact bitLen_eq_iff.2 (by decide)
      have half : q / 2 ^ (bitLen q - 64) = 2 ^ 63 := by rw [len, all]; rfl
      rw [half, len, all]
      push_cast
      rw [show unit + 65 - 1 + 16383 - 16446 = unit + 1 by omega, zpow_add_one₀ two_ne_zero]
      ring

theorem extEncode_denormal (hq : q ≠ 0) (lo : leading q unit < -16382) (hu : -16445 ≤ unit) :
    ∃ sig : Nat, extEncode neg q unit = extPack neg 0 sig ∧ Encodes 0 sig q unit := by
  unfold leading at lo
  refine ⟨q * 2 ^ (unit + 16445).toNat, ?_, ⟨.inl ⟨rfl, ?_⟩, ?_⟩⟩
  · rw [extEncode]
    simp only [if_neg hq]
    rw [if_pos (by unfold leading; omega)]
  · rw [← bitLen_le, bitLen_mul_two_pow hq]
    omega
  · rw [Nat.cast_mul, Nat.cast_pow, Nat.cast_two]
    refine mul_pow_mul_zpow _ ?_
    rw [Int.toNat_of_nonneg (by omega)]
    simp

/-- `extEncode` packs a representable number. -/
theorem extEncode_packs (fit : q ≤ 2 ^ 64) (hi : q ≠ 0 → leading q unit ≤ 16383) (lo : leading q unit < -16382 → -16445 ≤ unit) :
    ∃ e sig : Nat, extEncode neg q unit = extPack neg e sig ∧ Encodes e sig q unit := by
  by_cases hq : q = 0
  · subst hq
    exact ⟨0, 0, extEncode_zero neg unit, .inl (by decide), by simp⟩
  · by_cases tiny : leading q unit < -16382
    · obtain ⟨sig, eq, enc⟩ := extEncode_denormal neg hq tiny (lo tiny)
      exact ⟨0, sig, eq, enc⟩
    · obtain ⟨e, sig, eq, enc, -⟩ := extEncode_normal neg hq fit (not_lt.1 tiny) (hi hq)
      exact ⟨e, sig, eq, enc⟩

theorem Encodes.exp_lt {e sig q : Nat} {unit : Int} (h : Encodes e sig q unit) : e < 2 ^ 15 := by
  obtain ⟨h, -⟩ := h
  omega

theorem Encodes.sig_lt {e sig q : Nat} {unit : Int} (h : Encodes e sig q unit) : sig < 2 ^ 64 := by
  obtain ⟨h, -⟩ := h
  omega

/-- The number `extEncode` gives: finite, of the sign and value asked for. -/
theorem extEncode_spec (fit : q ≤ 2 ^ 64) (hi : q ≠ 0 → leading q unit ≤ 16383) (lo : leading q unit < -16382 → -16445 ≤ unit) :
    finiteExt (extEncode neg q unit) = true ∧ extNeg (extEncode neg q unit) = neg ∧
      extValue (extEncode neg q unit) = signOf neg * (q * (2 : ℚ) ^ unit) := by
  obtain ⟨e, sig, eq, enc⟩ := extEncode_packs neg fit hi lo
  rw [eq, extNeg_pack neg enc.exp_lt enc.sig_lt, extValue_pack neg enc.exp_lt enc.sig_lt, enc.value, finiteExt_iff,
    extExp_pack neg enc.exp_lt enc.sig_lt, extSig_pack neg enc.exp_lt enc.sig_lt]
  refine ⟨?_, rfl, rfl⟩
  rcases enc.format with ⟨he, -⟩ | ⟨-, he, hs, -⟩
  · exact .inl he
  · exact .inr ⟨he, hs⟩

end

/-! ### Rounding -/

/-- How a magnitude `t` lies among the multiples of `ulp`: between `q` and `q + 1` of them, `r` parts of 2^`d` above `q`. -/
structure Splits (t ulp : ℚ) (q r d : Nat) (part : ℚ) : Prop where
  part_pos : 0 < part
  lt : r < 2 ^ d
  ulp_eq : ulp = 2 ^ d * part
  eq : t = q * ulp + r * part

/-- `roundAt` splits a magnitude and takes the lower or the upper multiple. -/
theorem roundAt_splits (rc : BitVec 2) (x : Finite) (unit : Int) :
    ∃ (q r d : Nat) (part : ℚ), Splits (x.sig * (2 : ℚ) ^ x.exp) ((2 : ℚ) ^ unit) q r d part ∧
      roundAt rc x unit = { q := if roundsUp rc x.neg q r d then q + 1 else q, inexact := r != 0, up := roundsUp rc x.neg q r d } ∧
      (if unit ≤ x.exp then q = x.sig * 2 ^ (x.exp - unit).toNat else q = x.sig / 2 ^ (unit - x.exp).toNat) := by
  by_cases h : unit ≤ x.exp
  · have stays : roundsUp rc x.neg (x.sig * 2 ^ (x.exp - unit).toNat) 0 0 = false := by
      unfold roundsUp
      split <;> simp
    refine ⟨x.sig * 2 ^ (x.exp - unit).toNat, 0, 0, (2 : ℚ) ^ unit, ⟨two_zpow_pos _, by decide, by simp, ?_⟩, ?_, ?_⟩
    · push_cast
      rw [mul_pow_mul_zpow _ (show ((x.exp - unit).toNat : Int) + unit = x.exp by omega)]
      simp
    · rw [stays, roundAt, if_pos h]
      rfl
    · rw [if_pos h]
  · refine ⟨x.sig / 2 ^ (unit - x.exp).toNat, x.sig % 2 ^ (unit - x.exp).toNat, (unit - x.exp).toNat, (2 : ℚ) ^ x.exp,
      ⟨two_zpow_pos _, Nat.mod_lt _ (Nat.two_pow_pos _), ?_, ?_⟩, ?_, ?_⟩
    · rw [← zpow_natCast, ← zpow_add₀ two_ne_zero]
      congr 1
      omega
    · have whole : (x.sig : ℚ) = (x.sig / 2 ^ (unit - x.exp).toNat : Nat) * 2 ^ (unit - x.exp).toNat +
          (x.sig % 2 ^ (unit - x.exp).toNat : Nat) := by
        exact_mod_cast (Nat.div_add_mod' x.sig (2 ^ (unit - x.exp).toNat)).symm
      rw [← mul_pow_mul_zpow (x.sig / 2 ^ (unit - x.exp).toNat : Nat) (show ((unit - x.exp).toNat : Int) + x.exp = unit by omega),
        ← add_mul, ← whole]
    · rw [roundAt, if_neg h]
    · rw [if_neg h]

theorem roundsUp_pos {rc : BitVec 2} {neg : Bool} {q r d : Nat} (h : roundsUp rc neg q r d = true) : 0 < r := by
  have := Nat.two_pow_pos d
  unfold roundsUp at h
  split at h
  · simp only [Bool.or_eq_true, Bool.and_eq_true, decide_eq_true_eq] at h
    omega
  · simp only [Bool.and_eq_true, bne_iff_ne] at h
    omega
  · simp only [Bool.and_eq_true, bne_iff_ne] at h
    omega
  · cases h

section
variable {t ulp part : ℚ} {q r d : Nat}

theorem Splits.ulp_pos (h : Splits t ulp q r d part) : 0 < ulp := by
  rw [h.ulp_eq]
  exact mul_pos (by positivity) h.part_pos

/-- The lower multiple lies `r` parts below. -/
theorem Splits.lower (h : Splits t ulp q r d part) : q * ulp = t - r * part := by rw [h.eq]; ring

/-- The upper multiple lies `2^d - r` parts above. -/
theorem Splits.upper (h : Splits t ulp q r d part) : ((q + 1 : Nat) : ℚ) * ulp = t + ((2 ^ d - r : Nat) : ℚ) * part := by
  rw [h.eq, Nat.cast_sub h.lt.le, h.ulp_eq]
  push_cast
  ring

end

/-- What rounding to a multiple of a unit means (11_fpu_state R68). -/
structure RoundingMeans (rc : BitVec 2) (neg : Bool) (t ulp : ℚ) (r : Rounded) : Prop where
  inexact_iff : r.inexact = true ↔ r.q * ulp ≠ t
  up_iff : r.up = true ↔ t < r.q * ulp
  close : |r.q * ulp - t| < ulp
  nearest : rc = 0 → 2 * |r.q * ulp - t| ≤ ulp ∧ (2 * |r.q * ulp - t| = ulp → r.q % 2 = 0)
  down : rc = 1 → if neg then t ≤ r.q * ulp else r.q * ulp ≤ t
  upward : rc = 2 → if neg then r.q * ulp ≤ t else t ≤ r.q * ulp
  chop : rc = 3 → r.q * ulp ≤ t

theorem roundsUp_nearest (neg : Bool) (q r d : Nat) :
    roundsUp 0 neg q r d = true ↔ 2 ^ d < 2 * r ∨ (2 * r = 2 ^ d ∧ q % 2 = 1) := by
  simp [roundsUp]

section
variable {rc : BitVec 2} {neg : Bool} {t ulp part : ℚ} {q r d : Nat}

/-- The lower multiple is what rounding means when it is taken. -/
theorem Splits.means_lower (h : Splits t ulp q r d part) (up : roundsUp rc neg q r d = false) :
    RoundingMeans rc neg t ulp { q := q, inexact := r != 0, up := false } := by
  have hpart := h.part_pos
  have nonneg : 0 ≤ r * part := by positivity
  have below : q * ulp ≤ t := by
    rw [h.lower]
    linarith
  have gap : |q * ulp - t| = r * part := by
    rw [h.lower, abs_sub_comm, abs_of_nonneg (by linarith)]
    ring
  have exact (hr : ¬ r ≠ 0) : t ≤ q * ulp := by
    rw [h.lower, not_not.1 hr]
    simp
  refine ⟨?_, ?_, ?_, fun hrc => ⟨?_, fun tie => ?_⟩, fun hrc => ?_, fun hrc => ?_, fun _ => below⟩
  · show (r != 0) = true ↔ q * ulp ≠ t
    rw [bne_iff_ne, h.lower, ne_eq, ne_eq, sub_eq_self, mul_eq_zero, or_iff_left hpart.ne', Nat.cast_eq_zero]
  · exact ⟨fun h => Bool.noConfusion h, fun h => absurd below (not_le.2 h)⟩
  · show |q * ulp - t| < ulp
    rw [gap, h.ulp_eq]
    exact mul_lt_mul_of_pos_right (by exact_mod_cast h.lt) hpart
  · show 2 * |q * ulp - t| ≤ ulp
    rw [hrc, Bool.eq_false_iff, ne_eq, roundsUp_nearest, not_or, not_lt] at up
    rw [gap, h.ulp_eq, ← mul_assoc]
    exact mul_le_mul_of_nonneg_right (by exact_mod_cast up.1) hpart.le
  · change 2 * |q * ulp - t| = ulp at tie
    rw [hrc, Bool.eq_false_iff, ne_eq, roundsUp_nearest, not_or, not_and] at up
    rw [gap, h.ulp_eq, ← mul_assoc, mul_left_inj' hpart.ne'] at tie
    have := up.2 (by exact_mod_cast tie)
    show q % 2 = 0
    omega
  · subst hrc
    cases neg with
    | false => exact below
    | true => exact exact (by simpa [roundsUp] using up)
  · subst hrc
    cases neg with
    | true => exact below
    | false => exact exact (by simpa [roundsUp] using up)

/-- The upper multiple is what rounding means when it is taken. -/
theorem Splits.means_upper (h : Splits t ulp q r d part) (up : roundsUp rc neg q r d = true) :
    RoundingMeans rc neg t ulp { q := q + 1, inexact := r != 0, up := true } := by
  have hpart := h.part_pos
  have hr := roundsUp_pos up
  have hlt := h.lt
  have pos : 0 < ((2 ^ d - r : Nat) : ℚ) * part := mul_pos (by exact_mod_cast Nat.sub_pos_of_lt hlt) hpart
  have above : t < (q + 1 : Nat) * ulp := by
    rw [h.upper]
    linarith
  have gap : |((q + 1 : Nat) : ℚ) * ulp - t| = ((2 ^ d - r : Nat) : ℚ) * part := by
    rw [h.upper, add_sub_cancel_left, abs_of_pos pos]
  refine ⟨?_, ?_, ?_, fun hrc => ⟨?_, fun tie => ?_⟩, fun hrc => ?_, fun hrc => ?_, fun hrc => ?_⟩
  · exact ⟨fun _ => above.ne', fun _ => bne_iff_ne.2 hr.ne'⟩
  · exact ⟨fun _ => above, fun _ => rfl⟩
  · show |((q + 1 : Nat) : ℚ) * ulp - t| < ulp
    rw [gap, h.ulp_eq]
    refine mul_lt_mul_of_pos_right ?_ hpart
    exact_mod_cast Nat.sub_lt (Nat.two_pow_pos d) hr
  · show 2 * |((q + 1 : Nat) : ℚ) * ulp - t| ≤ ulp
    rw [hrc, roundsUp_nearest] at up
    rw [gap, h.ulp_eq, ← mul_assoc]
    refine mul_le_mul_of_nonneg_right ?_ hpart.le
    have : 2 * (2 ^ d - r) ≤ 2 ^ d := by omega
    exact_mod_cast this
  · change 2 * |((q + 1 : Nat) : ℚ) * ulp - t| = ulp at tie
    rw [hrc, roundsUp_nearest] at up
    rw [gap, h.ulp_eq, ← mul_assoc, mul_left_inj' hpart.ne'] at tie
    have even : 2 * (2 ^ d - r) = 2 ^ d := by exact_mod_cast tie
    show (q + 1) % 2 = 0
    omega
  · subst hrc
    cases neg with
    | false => simp [roundsUp] at up
    | true => exact above.le
  · subst hrc
    cases neg with
    | true => simp [roundsUp] at up
    | false => exact above.le
  · subst hrc
    simp [roundsUp] at up

end

theorem roundAt_means (rc : BitVec 2) (x : Finite) (unit : Int) :
    RoundingMeans rc x.neg (x.sig * (2 : ℚ) ^ x.exp) ((2 : ℚ) ^ unit) (roundAt rc x unit) := by
  obtain ⟨q, r, d, part, split, run, -⟩ := roundAt_splits rc x unit
  rw [run]
  cases up : roundsUp rc x.neg q r d with
  | false => exact split.means_lower up
  | true => exact split.means_upper up

/-! ### Rounding to a number of significant bits -/

theorem unitFor_le_iff {p : Nat} {x : Finite} : unitFor p x ≤ x.exp ↔ bitLen x.sig ≤ p := by
  unfold unitFor
  omega

/-- A number rounded to `p` bits has `p` of them, or is the next power of two. -/
theorem roundAt_unitFor (rc : BitVec 2) {x : Finite} (hx : x.sig ≠ 0) {p : Nat} (hp : 0 < p) :
    2 ^ (p - 1) ≤ (roundAt rc x (unitFor p x)).q ∧ (roundAt rc x (unitFor p x)).q ≤ 2 ^ p := by
  obtain ⟨q, r, d, part, -, run, hq⟩ := roundAt_splits rc x (unitFor p x)
  have pos := bitLen_pos hx
  have bounds : 2 ^ (p - 1) ≤ q ∧ q < 2 ^ p := by
    rw [← lt_bitLen, ← bitLen_le]
    split at hq
    next h =>
      have := unitFor_le_iff.1 h
      rw [hq, bitLen_mul_two_pow hx]
      unfold unitFor
      omega
    next h =>
      have hlt := not_le.1 (mt unitFor_le_iff.2 h)
      have expo : (unitFor p x - x.exp).toNat = bitLen x.sig - p := by
        unfold unitFor
        omega
      rw [hq, expo, lt_bitLen, bitLen_le, Nat.le_div_iff_mul_le (Nat.two_pow_pos _), Nat.div_lt_iff_lt_mul (Nat.two_pow_pos _),
        ← Nat.pow_add, ← Nat.pow_add, ← lt_bitLen, ← bitLen_le]
      omega
  rw [run]
  dsimp only
  split <;> omega

end Sys2Proof.Machine
end

section
/-! ## Extended reals: results of registers -/
set_option Elab.async false

namespace Sys2Proof.Machine

/-! ### Masks -/

theorem and_excO_bne_zero (m : BitVec 6) : (m &&& excO != 0) = m.getLsbD 3 := by
  revert m
  decide

theorem and_excU_bne_zero (m : BitVec 6) : (m &&& excU != 0) = m.getLsbD 4 := by
  revert m
  decide

/-! ### Infinities, zeros, the largest number -/

theorem overflowToInf_true {rc : BitVec 2} {neg : Bool} (h : rc = 0 ∨ (rc = 1 ∧ neg = true) ∨ (rc = 2 ∧ neg = false)) :
    overflowToInf rc neg = true := by
  rcases h with rfl | ⟨rfl, rfl⟩ | ⟨rfl, rfl⟩ <;> rfl

theorem overflowToInf_false {rc : BitVec 2} {neg : Bool} (h : rc = 3 ∨ (rc = 1 ∧ neg = false) ∨ (rc = 2 ∧ neg = true)) :
    overflowToInf rc neg = false := by
  rcases h with rfl | ⟨rfl, rfl⟩ | ⟨rfl, rfl⟩ <;> rfl

theorem extLargest_spec (neg : Bool) {p : Nat} (hp : 0 < p) (hp' : p ≤ 64) :
    finiteExt (extLargest neg p) = true ∧
      extValue (extLargest neg p) = signOf neg * ((2 ^ p - 1) * (2 : ℚ) ^ (16384 - p : Int)) := by
  have one : 1 ≤ 2 ^ p := Nat.one_le_two_pow
  have ne : 2 ^ p - 1 ≠ 0 := by
    have : 2 ^ 1 ≤ 2 ^ p := Nat.pow_le_pow_right two_pos hp
    omega
  have len : bitLen (2 ^ p - 1) = p := by
    obtain ⟨k, rfl⟩ := Nat.exists_eq_succ_of_ne_zero hp.ne'
    rw [Nat.succ_eq_add_one, bitLen_eq_iff, Nat.pow_succ]
    have := Nat.one_le_two_pow (n := k)
    omega
  have sig : bitLen ((2 ^ p - 1) * 2 ^ (64 - p)) = 63 + 1 := by
    rw [bitLen_mul_two_pow ne, len]
    omega
  obtain ⟨lo, hi⟩ := bitLen_eq_iff.1 sig
  refine ⟨?_, ?_⟩
  · rw [finiteExt_iff, extLargest, extExp_pack neg (by decide) hi, extSig_pack neg (by decide) hi]
    exact .inr ⟨by decide, lo⟩
  · rw [extLargest, extValue_pack neg (by decide) hi, Nat.cast_mul, Nat.cast_pow, Nat.cast_sub one]
    congr 1
    push_cast
    refine mul_pow_mul_zpow _ ?_
    rw [Nat.cast_sub hp']
    push_cast
    norm_num
    ring

/-! ### Magnitudes -/

theorem Finite.magnitude_lt (x : Finite) : (x.sig : ℚ) * (2 : ℚ) ^ x.exp < (2 : ℚ) ^ (x.exp + bitLen x.sig) := by
  rw [zpow_add₀ two_ne_zero, mul_comm]
  refine mul_lt_mul_of_pos_left ?_ (two_zpow_pos _)
  rw [zpow_natCast]
  exact_mod_cast lt_two_pow_bitLen x.sig

/-- What lies below `k` units rounds to at most `k` of them. -/
theorem roundAt_le {rc : BitVec 2} {x : Finite} {unit : Int} {k : Nat}
    (h : (x.sig : ℚ) * (2 : ℚ) ^ x.exp ≤ k * (2 : ℚ) ^ unit) : (roundAt rc x unit).q ≤ k := by
  have close := (abs_lt.1 (roundAt_means rc x unit).close).2
  have lt : ((roundAt rc x unit).q : ℚ) * (2 : ℚ) ^ unit < (k + 1 : ℚ) * (2 : ℚ) ^ unit := by linarith
  have := lt_of_mul_lt_mul_right lt (two_zpow_pos unit).le
  exact Nat.lt_succ_iff.1 (by exact_mod_cast this)

/-- The leading bit of a rounded number lies at its own or is one further. -/
theorem bitLen_roundAt (rc : BitVec 2) {x : Finite} (hx : x.sig ≠ 0) {p : Nat} (hp : 0 < p) :
    bitLen (roundAt rc x (unitFor p x)).q = p ∨
      (bitLen (roundAt rc x (unitFor p x)).q = p + 1 ∧ (roundAt rc x (unitFor p x)).q = 2 ^ p) := by
  obtain ⟨lo, hi⟩ := roundAt_unitFor rc hx hp
  have lo' := lt_bitLen.2 lo
  rcases hi.lt_or_eq with h | h
  · exact .inl (le_antisymm (bitLen_le.2 h) (by omega))
  · refine .inr ⟨?_, h⟩
    rw [h]
    exact bitLen_eq_iff.2 ⟨le_refl _, Nat.pow_lt_pow_right (by decide) (Nat.lt_succ_self p)⟩

/-- A tiny number has at most half of `p` bits in the denormal unit. -/
theorem roundAt_least_le {rc : BitVec 2} {x : Finite} (hx : x.sig ≠ 0) {p : Nat} (hp : 0 < p) {least : Int}
    (h : leading (roundAt rc x (unitFor p x)).q (unitFor p x) < least + p - 1) : (roundAt rc x least).q ≤ 2 ^ (p - 1) := by
  have len := bitLen_roundAt rc hx hp
  unfold leading at h
  generalize bitLen (roundAt rc x (unitFor p x)).q = k at len h
  refine roundAt_le (x.magnitude_lt.le.trans ?_)
  rw [Nat.cast_pow, Nat.cast_two, ← zpow_natCast, ← zpow_add₀ two_ne_zero]
  refine zpow_le_zpow_right₀ one_le_two ?_
  unfold unitFor at h
  omega

/-! ### `roundReg` -/

section
variable {f : Fpu} {p : Nat} {x : Finite}

theorem roundReg_zero (h : x.sig = 0) : roundReg f p x = Num.exact (extZero x.neg) := if_pos h

theorem roundReg_range (hx : x.sig ≠ 0) (lo : -16382 ≤ leading (roundAt f.rc x (unitFor p x)).q (unitFor p x))
    (hi : leading (roundAt f.rc x (unitFor p x)).q (unitFor p x) ≤ 16383) :
    roundReg f p x = { val := extEncode x.neg (roundAt f.rc x (unitFor p x)).q (unitFor p x)
                       exc := excIf (roundAt f.rc x (unitFor p x)).inexact excP
                       up := (roundAt f.rc x (unitFor p x)).up } := by
  simp only [roundReg, if_neg hx, if_neg (not_lt.2 hi), if_neg (not_lt.2 lo)]

theorem roundReg_over (hx : x.sig ≠ 0) (h : 16383 < leading (roundAt f.rc x (unitFor p x)).q (unitFor p x)) :
    roundReg f p x = overflowReg f p x.neg (roundAt f.rc x (unitFor p x)) (unitFor p x) := by
  simp only [roundReg, if_neg hx, if_pos h]

theorem roundReg_tiny (hx : x.sig ≠ 0) (h : leading (roundAt f.rc x (unitFor p x)).q (unitFor p x) < -16382) :
    roundReg f p x = tinyReg f p x (roundAt f.rc x (unitFor p x)) (unitFor p x) := by
  simp only [roundReg, if_neg hx, if_neg (show ¬ leading (roundAt f.rc x (unitFor p x)).q (unitFor p x) > 16383 by omega), if_pos h]

theorem leading_add (q : Nat) (unit k : Int) : leading q (unit + k) = leading q unit + k := by
  unfold leading
  omega

theorem leading_sub (q : Nat) (unit k : Int) : leading q (unit - k) = leading q unit - k := leading_add q unit (-k)

section
variable {neg : Bool} {r : Rounded} {unit : Int}

theorem overflowReg_masked (hm : f.masks.getLsbD 3 = true) : overflowReg f p neg r unit =
    ⟨if overflowToInf f.rc neg then extInf neg else extLargest neg p, excO ||| excP, overflowToInf f.rc neg⟩ :=
  if_pos (by rw [and_excO_bne_zero]; exact hm)

theorem overflowReg_inf (hm : f.masks.getLsbD 3 = false) (h : 16383 + 24576 < leading r.q unit) :
    overflowReg f p neg r unit = ⟨extInf neg, excO ||| excP, true⟩ :=
  (if_neg (by rw [and_excO_bne_zero, hm]; exact Bool.noConfusion)).trans (if_pos (by omega))

theorem overflowReg_scaled (hm : f.masks.getLsbD 3 = false) (h : leading r.q unit ≤ 16383 + 24576) :
    overflowReg f p neg r unit = ⟨extEncode neg r.q (unit - 24576), excO ||| excIf r.inexact excP, r.up⟩ :=
  (if_neg (by rw [and_excO_bne_zero, hm]; exact Bool.noConfusion)).trans (if_neg (by omega))

theorem tinyReg_masked (hm : f.masks.getLsbD 4 = true) : tinyReg f p x r unit =
    ⟨extEncode x.neg (roundAt f.rc x (-16381 - p)).q (-16381 - p), excIf (roundAt f.rc x (-16381 - p)).inexact (excU ||| excP),
      (roundAt f.rc x (-16381 - p)).up⟩ :=
  if_pos (by rw [and_excU_bne_zero]; exact hm)

theorem tinyReg_zero (hm : f.masks.getLsbD 4 = false) (h : leading r.q unit < -16382 - 24576) :
    tinyReg f p x r unit = ⟨extZero x.neg, excU ||| excP, false⟩ :=
  (if_neg (by rw [and_excU_bne_zero, hm]; exact Bool.noConfusion)).trans (if_pos (by omega))

theorem tinyReg_scaled (hm : f.masks.getLsbD 4 = false) (h : -16382 - 24576 ≤ leading r.q unit) :
    tinyReg f p x r unit = ⟨extEncode x.neg r.q (unit + 24576), excU ||| excIf r.inexact excP, r.up⟩ :=
  (if_neg (by rw [and_excU_bne_zero, hm]; exact Bool.noConfusion)).trans (if_neg (by omega))

end

/-- A number that rounds to `q` units within the range of exponents. -/
theorem extEncode_rounded (rc : BitVec 2) (hx : x.sig ≠ 0) (hp : 0 < p) (hp' : p ≤ 64) {unit : Int}
    (lo : -16382 ≤ leading (roundAt rc x (unitFor p x)).q unit) (hi : leading (roundAt rc x (unitFor p x)).q unit ≤ 16383) :
    finiteExt (extEncode x.neg (roundAt rc x (unitFor p x)).q unit) = true ∧
      extNeg (extEncode x.neg (roundAt rc x (unitFor p x)).q unit) = x.neg ∧
      extValue (extEncode x.neg (roundAt rc x (unitFor p x)).q unit) =
        signOf x.neg * ((roundAt rc x (unitFor p x)).q * (2 : ℚ) ^ unit) := by
  obtain ⟨-, fit⟩ := roundAt_unitFor rc hx hp
  exact extEncode_spec x.neg (fit.trans (Nat.pow_le_pow_right two_pos hp')) (fun _ => hi) (fun h => absurd lo (not_le.2 h))

/-- A tiny number rounded at the denormal unit. -/
theorem extEncode_tiny (rc : BitVec 2) (hx : x.sig ≠ 0) (hp : 0 < p) (hp' : p ≤ 64)
    (h : leading (roundAt rc x (unitFor p x)).q (unitFor p x) < -16382) :
    finiteExt (extEncode x.neg (roundAt rc x (-16381 - p)).q (-16381 - p)) = true ∧
      extNeg (extEncode x.neg (roundAt rc x (-16381 - p)).q (-16381 - p)) = x.neg ∧
      extValue (extEncode x.neg (roundAt rc x (-16381 - p)).q (-16381 - p)) =
        signOf x.neg * ((roundAt rc x (-16381 - p)).q * (2 : ℚ) ^ (-16381 - p : Int)) := by
  have small := roundAt_least_le hx hp (least := -16381 - p) (h.trans_le (by omega))
  have len : bitLen (roundAt rc x (-16381 - p)).q ≤ p :=
    bitLen_le.2 (small.trans_lt (Nat.pow_lt_pow_right (by decide) (by omega)))
  refine extEncode_spec x.neg (small.trans (Nat.pow_le_pow_right two_pos (by omega))) (fun _ => ?_) (fun _ => by omega)
  unfold leading
  omega

end

/-- Settles O46. -/
theorem fpuRoundingAndRange : Obligations.FpuRoundingAndRange := by
  constructor
  · intro rc x unit r ulp t v
    have means := roundAt_means rc x unit
    exact ⟨means.inexact_iff, means.up_iff, means.close, means.nearest, means.down, means.upward, means.chop⟩
  · intro f p x hp hx unit r n sign least d
    have pos : 0 < p := by omega
    have fit : p ≤ 64 := by omega
    refine ⟨fun lo hi => ?_, fun h hm => ?_, fun h hm => ?_, fun h hm => ⟨fun hi => ?_, fun hi => ?_⟩,
      fun h hm => ⟨fun lo => ?_, fun lo => ?_⟩⟩
    · have eq : n = _ := roundReg_range hx lo hi
      obtain ⟨fin, -, val⟩ := extEncode_rounded f.rc hx pos fit lo hi
      rw [eq]
      exact ⟨fin, val.trans (mul_assoc ..).symm, rfl, rfl⟩
    · have eq : n = _ := (roundReg_over hx h).trans (overflowReg_masked hm)
      rw [eq]
      refine ⟨rfl, fun hrc => if_pos (overflowToInf_true hrc), fun hrc => ?_⟩
      dsimp only
      rw [if_neg (by rw [overflowToInf_false hrc]; exact Bool.noConfusion)]
      exact (extLargest_spec x.neg pos fit).imp_right fun h => h.trans (mul_assoc ..).symm
    · have eq : n = _ := (roundReg_tiny hx h).trans (tinyReg_masked hm)
      obtain ⟨fin, -, val⟩ := extEncode_tiny f.rc hx pos fit h
      rw [eq]
      exact ⟨fin, val.trans (mul_assoc ..).symm, rfl, rfl⟩
    · have eq : n = _ := (roundReg_over hx h).trans (overflowReg_scaled hm hi)
      have shifted := leading_sub (roundAt f.rc x (unitFor p x)).q (unitFor p x) 24576
      obtain ⟨fin, -, val⟩ := extEncode_rounded f.rc hx pos fit (unit := unitFor p x - 24576)
        (by rw [shifted]; exact Int.le_sub_right_of_add_le (le_trans (by decide) h.le))
        (by rw [shifted]; exact Int.sub_right_le_of_le_add hi)
      rw [eq]
      exact ⟨fin, val.trans (mul_assoc ..).symm, rfl, rfl⟩
    · exact (roundReg_over hx h).trans (overflowReg_inf hm hi)
    · have eq : n = _ := (roundReg_tiny hx h).trans (tinyReg_scaled hm lo)
      have shifted := leading_add (roundAt f.rc x (unitFor p x)).q (unitFor p x) 24576
      obtain ⟨fin, -, val⟩ := extEncode_rounded f.rc hx pos fit (unit := unitFor p x + 24576)
        (by rw [shifted]; exact Int.le_add_of_sub_right_le lo)
        (by rw [shifted]; exact (Int.add_lt_add_right h 24576).le.trans (by decide))
      rw [eq]
      exact ⟨fin, val.trans (mul_assoc ..).symm, rfl, rfl⟩
    · exact (roundReg_tiny hx h).trans (tinyReg_zero hm lo)

end Sys2Proof.Machine
end

section
/-! ## Extended reals: the exact operations -/
set_option Elab.async false

namespace Sys2Proof.Machine

/-! ### Finite operands -/

section
variable {a b : Ext}

theorem isZero_iff : isZero a = true ↔ extClass a = .zero := decide_eq_true_iff

theorem isInf_iff : isInf a = true ↔ extClass a = .infinity := decide_eq_true_iff

theorem isInf_of_finite (h : finiteExt a = true) : isInf a = false := by
  rw [Bool.eq_false_iff, ne_eq, isInf_iff, extClass_infinity_iff]
  rcases finiteExt_iff.1 h with h | ⟨h, -⟩ <;> omega

theorem isZero_iff_value (h : finiteExt a = true) : isZero a = true ↔ extValue a = 0 := by
  rw [isZero_iff, extClass_zero_iff, extValue_eq_zero]
  rcases finiteExt_iff.1 h with h | ⟨h, hs⟩ <;> omega

theorem isZero_of_value_ne (h : extValue a ≠ 0) : isZero a = false := by
  rw [Bool.eq_false_iff, ne_eq, isZero_iff, extClass_zero_iff]
  rintro ⟨-, hs⟩
  exact h (extValue_eq_zero.2 hs)

end

/-! ### Sums -/

theorem signedOf_eq (neg : Bool) (q : Nat) : ((signedOf neg q : Int) : ℚ) = signOf neg * q := by
  cases neg <;> simp [signedOf, signOf]

theorem Finite.scaled_value {x : Finite} {unit : Int} (h : unit ≤ x.exp) :
    ((x.scaled unit : Int) : ℚ) * (2 : ℚ) ^ unit = x.value := by
  rw [Finite.scaled, signedOf_eq, x.value_eq, mul_assoc, Nat.cast_mul, Nat.cast_pow, Nat.cast_two,
    mul_pow_mul_zpow _ (show ((x.exp - unit).toNat : Int) + unit = x.exp by omega)]

/-- The sum of two numbers in the smaller of their units. -/
theorem Finite.scaled_add (x y : Finite) :
    ((x.scaled (min x.exp y.exp) + y.scaled (min x.exp y.exp) : Int) : ℚ) * (2 : ℚ) ^ (min x.exp y.exp) = x.value + y.value := by
  rw [Int.cast_add, add_mul, Finite.scaled_value (min_le_left ..), Finite.scaled_value (min_le_right ..)]

theorem signOf_mul_natAbs (t : Int) (neg : Bool) :
    signOf (if t = 0 then neg else decide (t < 0)) * (t.natAbs : ℚ) = t := by
  by_cases h0 : t = 0
  · simp [h0]
  · rw [if_neg h0, Nat.cast_natAbs, Int.cast_abs]
    by_cases h : t < 0
    · rw [decide_eq_true h, abs_of_neg (by exact_mod_cast h)]
      simp [signOf]
    · rw [decide_eq_false h, abs_of_nonneg (by exact_mod_cast not_lt.1 h)]
      simp [signOf]

theorem Finite.add_value (x y : Finite) (neg : Bool) : (x.add y neg).value = x.value + y.value := by
  rw [← Finite.scaled_add, Finite.value_eq, ← mul_assoc]
  exact congrArg (· * _) (signOf_mul_natAbs _ neg)

/-- The sign of a sum is that of its value, or the one given for a zero. -/
theorem Finite.add_neg (x y : Finite) (neg : Bool) :
    (x.add y neg).neg = if x.value + y.value = 0 then neg else decide (x.value + y.value < 0) := by
  have zero (t : Int) (u : Int) : (t : ℚ) * (2 : ℚ) ^ u = 0 ↔ t = 0 := by
    rw [mul_eq_zero, or_iff_left (two_zpow_pos u).ne', Int.cast_eq_zero]
  have less (t : Int) (u : Int) : (t : ℚ) * (2 : ℚ) ^ u < 0 ↔ t < 0 := by
    rw [← not_le, ← not_le, mul_nonneg_iff_of_pos_right (two_zpow_pos u), Int.cast_nonneg_iff]
  rw [← Finite.scaled_add, if_congr (zero _ _) rfl (decide_eq_decide.2 (less _ _))]
  rfl

/-! ### The square root -/

theorem isqrt_spec (k n r : Nat) (lo : r * r ≤ n) (hi : n < (r + 2 ^ k) * (r + 2 ^ k)) :
    isqrt k n r * isqrt k n r ≤ n ∧ n < (isqrt k n r + 1) * (isqrt k n r + 1) := by
  induction k generalizing r with
  | zero => exact ⟨lo, hi⟩
  | succ k ih =>
    rw [isqrt]
    split
    next h =>
      refine ih _ h ?_
      rwa [add_assoc, ← two_mul, ← Nat.pow_succ']
    next h => exact ih _ lo (not_le.1 h)

theorem isqrt_zero_spec {n : Nat} (hn : n < 2 ^ 220) :
    isqrt 110 n 0 * isqrt 110 n 0 ≤ n ∧ n < (isqrt 110 n 0 + 1) * (isqrt 110 n 0 + 1) :=
  isqrt_spec 110 n 0 (Nat.zero_le _) (hn.trans_eq (by norm_num))

section
variable {x y : Finite}

/-- A magnitude between `2 * q` and `2 * q + 2` of its last place, given with a last bit that tells whether it is exact. -/
theorem Finite.div_bounds (hx : 0 < x.sig) (hy : 0 < y.sig) (hy' : y.sig < 2 ^ 64) :
    2 ^ 66 ≤ (x.div y).sig ∧
    ((x.div y).sig % 2 = 0 → (x.div y).value = x.value / y.value) ∧
    ((x.div y).sig % 2 = 1 →
      (((x.div y).sig : ℚ) - 1) * (2 : ℚ) ^ (x.div y).exp < |x.value / y.value| ∧
      |x.value / y.value| < (((x.div y).sig : ℚ) + 1) * (2 : ℚ) ^ (x.div y).exp) := by
  have hyq : (0 : ℚ) < y.sig := by exact_mod_cast hy
  have pow : (2 : ℚ) ^ (x.exp - y.exp - 131) = (2 : ℚ) ^ x.exp / (2 : ℚ) ^ y.exp / 2 ^ 131 := by
    rw [zpow_sub₀ two_ne_zero, zpow_sub₀ two_ne_zero]
    norm_num
  have division := Nat.div_add_mod (x.sig * 2 ^ 130) y.sig
  have modLt := Nat.mod_lt (x.sig * 2 ^ 130) hy
  have high : 2 ^ 66 ≤ x.sig * 2 ^ 130 / y.sig := by
    rw [Nat.le_div_iff_mul_le hy]
    calc 2 ^ 66 * y.sig ≤ 2 ^ 66 * 2 ^ 64 := Nat.mul_le_mul_left _ hy'.le
      _ = 1 * 2 ^ 130 := by norm_num
      _ ≤ x.sig * 2 ^ 130 := Nat.mul_le_mul_right _ hx
  have sig : (x.div y).sig = x.sig * 2 ^ 130 / y.sig * 2 + (if x.sig * 2 ^ 130 % y.sig = 0 then 0 else 1) := rfl
  have exp : (x.div y).exp = x.exp - y.exp - 131 := rfl
  have neg : (x.div y).neg = (x.neg ^^ y.neg) := rfl
  generalize x.sig * 2 ^ 130 / y.sig = q at *
  generalize hr : x.sig * 2 ^ 130 % y.sig = r at *
  have divisionQ : (y.sig : ℚ) * q + r = x.sig * 2 ^ 130 := by exact_mod_cast division
  have hxq : (x.sig : ℚ) = (y.sig * q + r) / 2 ^ 130 := by
    rw [divisionQ]
    field_simp
  have quotient : |x.value / y.value| = (2 * (q + r / y.sig)) * (2 : ℚ) ^ (x.div y).exp := by
    rw [abs_div, x.abs_value, y.abs_value, exp, pow, hxq]
    have := (two_zpow_pos y.exp).ne'
    field_simp
  refine ⟨by rw [sig]; omega, fun even => ?_, fun odd => ?_⟩
  · have r0 : r = 0 := by
      by_contra h
      rw [if_neg h] at sig
      omega
    have signs : x.value / y.value = signOf (x.neg ^^ y.neg) * |x.value / y.value| := by
      rw [abs_div, x.abs_value, y.abs_value, x.value_eq, y.value_eq, signOf_xor, mul_div_mul_comm]
      congr 1
      rw [div_eq_iff (signOf_ne_zero _), mul_assoc, signOf_mul_self, mul_one]
    rw [signs, quotient, Finite.value_eq, neg, sig, r0, if_pos rfl]
    push_cast
    ring
  · have r0 : r ≠ 0 := by
      intro h
      rw [if_pos h] at sig
      omega
    have rpos : (0 : ℚ) < r := by exact_mod_cast Nat.pos_of_ne_zero r0
    have rlt : (r : ℚ) / y.sig < 1 := (div_lt_one hyq).2 (by exact_mod_cast modLt)
    have rdiv : (0 : ℚ) < r / y.sig := div_pos rpos hyq
    have sigQ : ((x.div y).sig : ℚ) = 2 * q + 1 := by
      rw [sig, if_neg r0]
      push_cast
      ring
    rw [quotient, sigQ]
    exact ⟨mul_lt_mul_of_pos_right (by linarith) (two_zpow_pos _), mul_lt_mul_of_pos_right (by linarith) (two_zpow_pos _)⟩

theorem Finite.sqrt_bounds (hx : 0 < x.sig) (hx' : x.sig < 2 ^ 64) :
    2 ^ 66 ≤ x.sqrt.sig ∧ (x.sqrt.sig % 2 = 0 → x.sqrt.value ^ 2 = |x.value|) ∧
    (x.sqrt.sig % 2 = 1 → (((x.sqrt.sig : ℚ) - 1) * (2 : ℚ) ^ x.sqrt.exp) ^ 2 < |x.value| ∧
      |x.value| < (((x.sqrt.sig : ℚ) + 1) * (2 : ℚ) ^ x.sqrt.exp) ^ 2) := by
  have size : x.sig * 2 ^ (140 + (x.exp % 2).toNat) < 2 ^ 220 := by
    calc x.sig * 2 ^ (140 + (x.exp % 2).toNat) < 2 ^ 64 * 2 ^ (140 + (x.exp % 2).toNat) :=
          Nat.mul_lt_mul_of_pos_right hx' (Nat.two_pow_pos _)
      _ = 2 ^ (64 + (140 + (x.exp % 2).toNat)) := (Nat.pow_add ..).symm
      _ ≤ 2 ^ 220 := Nat.pow_le_pow_right two_pos (by omega)
  have big : 2 ^ 140 ≤ x.sig * 2 ^ (140 + (x.exp % 2).toNat) :=
    (Nat.pow_le_pow_right two_pos (by omega)).trans (Nat.le_mul_of_pos_left _ hx)
  have magnitude : |x.value| = (x.sig * 2 ^ (140 + (x.exp % 2).toNat) : Nat) * ((2 : ℚ) ^ (x.sqrt.exp + 1)) ^ 2 := by
    rw [x.abs_value, ← zpow_natCast, ← zpow_mul, Nat.cast_mul, Nat.cast_pow, Nat.cast_two]
    refine (mul_pow_mul_zpow _ ?_).symm
    simp only [Finite.sqrt]
    omega
  obtain ⟨lo, hi⟩ := isqrt_zero_spec size
  have sig : x.sqrt.sig = isqrt 110 (x.sig * 2 ^ (140 + (x.exp % 2).toNat)) 0 * 2 +
      (if isqrt 110 (x.sig * 2 ^ (140 + (x.exp % 2).toNat)) 0 * isqrt 110 (x.sig * 2 ^ (140 + (x.exp % 2).toNat)) 0 =
        x.sig * 2 ^ (140 + (x.exp % 2).toNat) then 0 else 1) := rfl
  have step : (2 : ℚ) ^ (x.sqrt.exp + 1) = 2 * (2 : ℚ) ^ x.sqrt.exp := by
    rw [zpow_add_one₀ two_ne_zero, mul_comm]
  have pos := two_zpow_pos x.sqrt.exp
  rw [magnitude, step]
  generalize isqrt 110 (x.sig * 2 ^ (140 + (x.exp % 2).toNat)) 0 = r at *
  generalize x.sig * 2 ^ (140 + (x.exp % 2).toNat) = n at *
  have rbig : 2 ^ 66 ≤ r := by
    by_contra h
    have : (r + 1) * (r + 1) ≤ 2 ^ 66 * 2 ^ 66 := Nat.mul_le_mul (by omega) (by omega)
    have : (2 : Nat) ^ 66 * 2 ^ 66 < 2 ^ 140 := by norm_num
    omega
  refine ⟨by rw [sig]; omega, fun even => ?_, fun odd => ?_⟩
  · have square : r * r = n := by
      by_contra h
      rw [if_neg h] at sig
      omega
    have sigQ : (x.sqrt.sig : ℚ) = 2 * r := by
      rw [sig, if_pos square]
      push_cast
      ring
    have squareQ : (n : ℚ) = r * r := by exact_mod_cast square.symm
    rw [Finite.value_eq, mul_pow, sq (signOf _), signOf_mul_self, one_mul, sigQ, squareQ]
    ring
  · have square : r * r ≠ n := by
      intro h
      rw [if_pos h] at sig
      omega
    have sigQ : (x.sqrt.sig : ℚ) = 2 * r + 1 := by
      rw [sig, if_neg square]
      push_cast
      ring
    have loQ : (r : ℚ) * r < n := by exact_mod_cast lt_of_le_of_ne lo square
    have hiQ : (n : ℚ) < (r + 1) * (r + 1) := by exact_mod_cast hi
    have psq : 0 < (2 * (2 : ℚ) ^ x.sqrt.exp) ^ 2 := by positivity
    rw [sigQ]
    constructor
    · calc _ = (r * r : ℚ) * (2 * (2 : ℚ) ^ x.sqrt.exp) ^ 2 := by ring
        _ < _ := mul_lt_mul_of_pos_right loQ psq
    · calc _ < ((r + 1) * (r + 1) : ℚ) * (2 * (2 : ℚ) ^ x.sqrt.exp) ^ 2 := mul_lt_mul_of_pos_right hiQ psq
        _ = _ := by ring

end

/-! ### What the operations round -/

section
variable {f : Fpu} {p : Nat} {a b : Ext}

theorem mulCompute_finite (ha : finiteExt a = true) (hb : finiteExt b = true) :
    mulCompute f p a b = roundReg f p ⟨extNeg a ^^ extNeg b, (extFinite a).sig * (extFinite b).sig,
      (extFinite a).exp + (extFinite b).exp⟩ := by
  simp only [mulCompute, isInf_of_finite ha, isInf_of_finite hb, Bool.or_self, Bool.false_eq_true, if_false]

theorem mul_value (a b : Ext) : Finite.value ⟨extNeg a ^^ extNeg b, (extFinite a).sig * (extFinite b).sig,
    (extFinite a).exp + (extFinite b).exp⟩ = extValue a * extValue b := by
  rw [extValue, extValue, Finite.value_eq, Finite.value_eq, Finite.value_eq, signOf_xor, zpow_add₀ two_ne_zero]
  simp only [extFinite]
  push_cast
  ring

theorem addCompute_finite (sub : Bool) (ha : finiteExt a = true) (hb : finiteExt b = true) :
    addCompute f p sub a b = roundReg f p ((extFinite a).add { extFinite b with neg := extNeg b ^^ sub }
      (if (extFinite a).sig = 0 && (extFinite b).sig = 0 && extNeg a == (extNeg b ^^ sub) then extNeg a else zeroSumNeg f)) := by
  simp only [addCompute, isInf_of_finite ha, isInf_of_finite hb, Bool.false_eq_true, if_false]
  rfl

theorem negated_value (b : Ext) (sub : Bool) :
    Finite.value { extFinite b with neg := extNeg b ^^ sub } = (if sub then -1 else 1) * extValue b := by
  rw [extValue, Finite.value_eq, Finite.value_eq, signOf_xor]
  rw [show (if sub then -1 else 1 : ℚ) = signOf sub from rfl]
  simp only [extFinite]
  ring

end

/-- Settles O47. -/
theorem fpuExactOperations : Obligations.FpuExactOperations := by
  intro x y neg
  refine ⟨x.add_value y neg, ⟨?_, ?_, ?_⟩, ?_, ?_, ?_, ?_, ?_, ?_⟩
  · rw [Finite.add_neg]
    by_cases h : x.value + y.value = 0
    · exact .inr (if_pos h)
    · exact .inl h
  · rw [Finite.add_neg]
    split
    next h => exact fun _ => h.le
    next h => exact fun h => (of_decide_eq_true h).le
  · rw [Finite.add_neg]
    split
    next h => exact fun _ => h.ge
    next h => exact fun h => not_lt.1 (of_decide_eq_false h)
  · exact fun f p a b ha hb => ⟨_, mul_value a b, rfl, mulCompute_finite ha hb⟩
  · intro f p sub a b ha hb
    refine ⟨_, ?_, fun hz => ?_, addCompute_finite sub ha hb⟩
    · rw [Finite.add_value, negated_value]
      rfl
    · rw [Finite.add_value] at hz
      rw [Finite.add_neg, if_pos hz]
      refine if_congr ?_ rfl rfl
      rw [extValue_eq_zero, extValue_eq_zero]
      simp [extFinite, and_assoc]
  · intro f p a b ha hb hne
    have nz := isZero_of_value_ne hne
    unfold divCompute
    simp only [isInf_of_finite ha, isInf_of_finite hb, nz, Bool.or_self, Bool.false_or, Bool.false_eq_true, if_false,
      isZero_iff_value ha]
  · intro f p a ha _
    unfold sqrtCompute
    simp only [isInf_of_finite ha, Bool.or_false, isZero_iff_value ha]
  · intro hx _ hy hy' z
    exact ⟨rfl, Finite.div_bounds hx hy hy'⟩
  · intro hx hx' z
    exact ⟨rfl, Finite.sqrt_bounds hx hx'⟩

end Sys2Proof.Machine
end

section
/-! ## Memory formats: conversions to extended, integers and packed decimals -/
set_option Elab.async false

namespace Sys2Proof.Machine

/-! ### Integers -/

theorem signOf_decide_neg (i : Int) : signOf (decide (i < 0)) * (i.natAbs : ℚ) = i := by
  by_cases h : i = 0
  · simp [h]
  · rw [← signOf_mul_natAbs i false, if_neg h]

/-- An integer of at most 64 bits is its own number of units. -/
theorem extEncode_unit (neg : Bool) {q : Nat} (h : q < 2 ^ 64) :
    finiteExt (extEncode neg q 0) = true ∧ extNeg (extEncode neg q 0) = neg ∧ extValue (extEncode neg q 0) = signOf neg * q := by
  have len := bitLen_le.2 h
  have spec := extEncode_spec neg (q := q) (unit := 0) h.le (fun _ => by unfold leading; omega) (fun _ => by decide)
  rwa [zpow_zero, mul_one] at spec

theorem ofInt_value {i : Int} (h : i.natAbs < 2 ^ 64) : finiteExt (ofInt i) = true ∧ extValue (ofInt i) = i := by
  obtain ⟨fin, -, val⟩ := extEncode_unit (decide (i < 0)) h
  exact ⟨fin, val.trans (signOf_decide_neg i)⟩

theorem toSigned_ofSigned {n : Nat} (hn : 0 < n) {i : Int} (lo : -(2 ^ (n - 1)) ≤ i) (hi : i < 2 ^ (n - 1)) :
    toSigned n (ofSigned n i) = i := by
  obtain ⟨k, rfl⟩ := Nat.exists_eq_succ_of_ne_zero hn.ne'
  have cast : ((2 ^ (k + 1) : Nat) : Int) = 2 * 2 ^ k := by push_cast; ring
  have castK : ((2 ^ k : Nat) : Int) = 2 ^ k := by push_cast; rfl
  simp only [Nat.succ_eq_add_one, Nat.add_sub_cancel] at lo hi
  have hmod : i % (2 ^ (k + 1) : Nat) = if 0 ≤ i then i else i + 2 * 2 ^ k := by
    rw [cast]
    split
    next h => exact Int.emod_eq_of_lt h (by omega)
    next h =>
      rw [← Int.add_mul_emod_self_left i (2 * 2 ^ k) 1, mul_one]
      exact Int.emod_eq_of_lt (by omega) (by omega)
  unfold toSigned ofSigned
  rw [hmod, cast]
  simp only [Nat.succ_eq_add_one, Nat.add_sub_cancel]
  zify
  rw [Int.toNat_of_nonneg (by split <;> omega)]
  split_ifs <;> omega

/-! ### Packed decimals -/

theorem bcdValue_spec (n : Nat) : ∀ v k : Nat, bcdValue n v = some k → k < 10 ^ n ∧ bcdDigits n k = v % 16 ^ n := by
  induction n with
  | zero =>
    intro v k h
    cases h
    exact ⟨by decide, (Nat.mod_one v).symm⟩
  | succ n ih =>
    intro v k h
    rw [bcdValue] at h
    split at h
    · cases h
    next hd =>
      obtain ⟨r, hr, rfl⟩ := Option.map_eq_some_iff.1 h
      obtain ⟨lt, digits⟩ := ih _ _ hr
      have low : (v % 16 + 10 * r) % 10 = v % 16 := by omega
      have high : (v % 16 + 10 * r) / 10 = r := by omega
      refine ⟨by rw [Nat.pow_succ]; omega, ?_⟩
      rw [bcdDigits, low, high, digits, Nat.pow_succ', Nat.mod_mul]

theorem bcdDigits_lt (n : Nat) : ∀ q : Nat, bcdDigits n q < 16 ^ n := by
  induction n with
  | zero => exact fun _ => Nat.zero_lt_one
  | succ n ih =>
    intro q
    have := ih (q / 10)
    rw [bcdDigits, Nat.pow_succ]
    omega

/-- The digits of a number read back, whatever stands above them. -/
theorem bcdValue_bcdDigits (n : Nat) : ∀ q j : Nat, q < 10 ^ n → bcdValue n (bcdDigits n q + 16 ^ n * j) = some q := by
  induction n with
  | zero =>
    intro q j h
    rw [Nat.lt_one_iff.1 h]
    rfl
  | succ n ih =>
    intro q j h
    have rest := ih (q / 10) j (by rw [Nat.pow_succ] at h; omega)
    have split : bcdDigits (n + 1) q + 16 ^ (n + 1) * j = q % 10 + 16 * (bcdDigits n (q / 10) + 16 ^ n * j) := by
      rw [bcdDigits, Nat.pow_succ]
      ring
    have low : (q % 10 + 16 * (bcdDigits n (q / 10) + 16 ^ n * j)) % 16 = q % 10 := by omega
    have high : (q % 10 + 16 * (bcdDigits n (q / 10) + 16 ^ n * j)) / 16 = bcdDigits n (q / 10) + 16 ^ n * j := by omega
    rw [bcdValue, split, low, high, rest, if_neg (by omega)]
    simp only [Option.map_some, Option.some.injEq]
    omega

/-! ### Reals of memory -/

/-- The two formats of memory. -/
structure RealFormat.Fits (k : RealFormat) : Prop where
  frac_pos : 0 < k.fracBits
  frac_lt : k.fracBits < 63
  exp_pos : 1 < k.expBits
  exp_lt : k.expBits < 15

theorem RealFormat.fits {k : RealFormat} (h : k = single ∨ k = double) : k.Fits := by
  rcases h with rfl | rfl <;> constructor <;> decide

/-- A real of memory from its sign and fields. -/
def RealFormat.pack (k : RealFormat) (neg : Bool) (e frac : Nat) : Nat := k.sign neg + e * 2 ^ k.fracBits + frac

section
variable {k : RealFormat} {neg : Bool} {e frac : Nat}

theorem RealFormat.bias_bounds (h : k.Fits) : 0 < k.bias ∧ k.bias < 2 ^ 13 ∧ 2 ^ k.expBits = 2 * k.bias + 2 := by
  obtain ⟨-, -, pos, lt⟩ := h
  obtain ⟨j, hj⟩ : ∃ j, k.expBits = j + 1 := ⟨k.expBits - 1, by omega⟩
  have low : 2 ^ 1 ≤ 2 ^ j := Nat.pow_le_pow_right two_pos (by omega)
  have high : 2 ^ j ≤ 2 ^ 13 := Nat.pow_le_pow_right two_pos (by omega)
  rw [RealFormat.bias, hj, Nat.add_sub_cancel, Nat.pow_succ]
  omega

theorem RealFormat.sign_eq (k : RealFormat) (neg : Bool) : k.sign neg = neg.toNat * 2 ^ (k.expBits + k.fracBits) := by
  cases neg <;> simp [RealFormat.sign]

theorem RealFormat.pack_eq (k : RealFormat) (neg : Bool) (e frac : Nat) :
    k.pack neg e frac = (neg.toNat * 2 ^ k.expBits + e) * 2 ^ k.fracBits + frac := by
  rw [RealFormat.pack, RealFormat.sign_eq, Nat.pow_add]
  ring

theorem RealFormat.pack_frac (hf : frac < 2 ^ k.fracBits) : k.pack neg e frac % 2 ^ k.fracBits = frac := by
  rw [RealFormat.pack_eq, Nat.mul_comm, Nat.mul_add_mod, Nat.mod_eq_of_lt hf]

theorem RealFormat.pack_exp (he : e < 2 ^ k.expBits) (hf : frac < 2 ^ k.fracBits) :
    k.pack neg e frac / 2 ^ k.fracBits % 2 ^ k.expBits = e := by
  rw [RealFormat.pack_eq, Nat.mul_comm, Nat.mul_add_div (Nat.two_pow_pos _), Nat.div_eq_of_lt hf, Nat.add_zero, Nat.mul_comm,
    Nat.mul_add_mod, Nat.mod_eq_of_lt he]

theorem RealFormat.pack_neg (he : e < 2 ^ k.expBits) (hf : frac < 2 ^ k.fracBits) :
    (k.pack neg e frac).testBit (k.expBits + k.fracBits) = neg := by
  rw [RealFormat.pack_eq, Nat.testBit_eq_decide_div_mod_eq, Nat.add_comm k.expBits, Nat.pow_add, ← Nat.div_div_eq_div_mul,
    Nat.mul_comm _ (2 ^ k.fracBits), Nat.mul_add_div (Nat.two_pow_pos _), Nat.div_eq_of_lt hf, Nat.add_zero, Nat.mul_comm,
    Nat.mul_add_div (Nat.two_pow_pos _), Nat.div_eq_of_lt he]
  cases neg <;> rfl

theorem RealFormat.pack_lt (he : e < 2 ^ k.expBits) (hf : frac < 2 ^ k.fracBits) :
    k.pack neg e frac < 2 ^ (k.expBits + k.fracBits + 1) := by
  have upper : neg.toNat * 2 ^ k.expBits + e + 1 ≤ 2 ^ (k.expBits + 1) := by
    rw [Nat.pow_succ]
    have := Nat.mul_le_mul_right (2 ^ k.expBits) neg.toNat_le
    omega
  calc k.pack neg e frac < (neg.toNat * 2 ^ k.expBits + e + 1) * 2 ^ k.fracBits := by
        rw [RealFormat.pack_eq, Nat.succ_mul]
        exact Nat.add_lt_add_left hf _
    _ ≤ 2 ^ (k.expBits + 1) * 2 ^ k.fracBits := Nat.mul_le_mul_right _ upper
    _ = 2 ^ (k.expBits + k.fracBits + 1) := by rw [← Nat.pow_add]; congr 1; omega

/-- The operand that the fields of a real of memory stand for. -/
def RealFormat.ofFields (k : RealFormat) (neg : Bool) (e frac : Nat) : Operand :=
  if e = 0 then
    if frac = 0 then { val := extZero neg, den := false }
    else { val := extEncode neg frac (1 - (k.bias : Int) - k.fracBits), den := true }
  else if e = 2 ^ k.expBits - 1 then { val := extPack neg 0x7FFF (2 ^ 63 + frac * 2 ^ (63 - k.fracBits)), den := false }
  else { val := extPack neg (e + 16383 - k.bias) ((2 ^ k.fracBits + frac) * 2 ^ (63 - k.fracBits)), den := false }

theorem ofReal_eq_ofFields (k : RealFormat) (v : Nat) :
    ofReal k v = k.ofFields (v.testBit (k.expBits + k.fracBits)) (v / 2 ^ k.fracBits % 2 ^ k.expBits) (v % 2 ^ k.fracBits) := rfl

theorem ofReal_pack (he : e < 2 ^ k.expBits) (hf : frac < 2 ^ k.fracBits) :
    ofReal k (k.pack neg e frac) = k.ofFields neg e frac := by
  rw [ofReal_eq_ofFields, RealFormat.pack_neg he hf, RealFormat.pack_exp he hf, RealFormat.pack_frac hf]

theorem RealFormat.significand_bounds (h : k.Fits) (hf : frac < 2 ^ k.fracBits) :
    2 ^ 63 ≤ (2 ^ k.fracBits + frac) * 2 ^ (63 - k.fracBits) ∧ (2 ^ k.fracBits + frac) * 2 ^ (63 - k.fracBits) < 2 ^ 64 := by
  have lt := h.frac_lt
  have low : (2 : Nat) ^ 63 = 2 ^ k.fracBits * 2 ^ (63 - k.fracBits) := by rw [← Nat.pow_add]; congr 1; omega
  have high : (2 : Nat) ^ 64 = (2 ^ k.fracBits + 2 ^ k.fracBits) * 2 ^ (63 - k.fracBits) := by rw [Nat.add_mul, ← low]; norm_num
  rw [low, high]
  exact ⟨Nat.mul_le_mul_right _ (Nat.le_add_right _ _),
    Nat.mul_lt_mul_of_pos_right (Nat.add_lt_add_left hf _) (Nat.two_pow_pos _)⟩

theorem RealFormat.ofFields_normal (h : k.Fits) (hf : frac < 2 ^ k.fracBits) (h0 : 0 < e) (he : e < 2 ^ k.expBits - 1) :
    finiteExt (k.ofFields neg e frac).val = true ∧ (k.ofFields neg e frac).den = false ∧
      extNeg (k.ofFields neg e frac).val = neg ∧ extClass (k.ofFields neg e frac).val = .normal ∧
      extValue (k.ofFields neg e frac).val =
        signOf neg * ((2 ^ k.fracBits + frac) * (2 : ℚ) ^ ((e : Int) - k.bias - k.fracBits)) := by
  obtain ⟨bias0, bias1, expo⟩ := RealFormat.bias_bounds h
  obtain ⟨lo, hi⟩ := RealFormat.significand_bounds h hf
  have fields : k.ofFields neg e frac =
      { val := extPack neg (e + 16383 - k.bias) ((2 ^ k.fracBits + frac) * 2 ^ (63 - k.fracBits)), den := false } := by
    rw [RealFormat.ofFields, if_neg (by omega), if_neg (by omega)]
  have exp : e + 16383 - k.bias < 2 ^ 15 := by omega
  rw [fields]
  refine ⟨?_, rfl, extNeg_pack neg exp hi, ?_, ?_⟩
  · rw [finiteExt_iff, extExp_pack neg exp hi, extSig_pack neg exp hi]
    exact .inr ⟨by omega, lo⟩
  · rw [extClass_pack neg exp hi]
    exact classOf_normal (by omega) (by omega) lo
  · rw [extValue_pack neg exp hi, Nat.cast_mul, Nat.cast_pow, Nat.cast_two, max_eq_left (by omega)]
    congr 1
    push_cast
    refine mul_pow_mul_zpow _ ?_
    have := h.frac_lt
    omega

theorem RealFormat.ofFields_subnormal (h : k.Fits) (hf : frac < 2 ^ k.fracBits) :
    finiteExt (k.ofFields neg 0 frac).val = true ∧ (k.ofFields neg 0 frac).den = decide (frac ≠ 0) ∧
      extNeg (k.ofFields neg 0 frac).val = neg ∧
      extValue (k.ofFields neg 0 frac).val = signOf neg * (frac * (2 : ℚ) ^ (1 - (k.bias : Int) - k.fracBits)) := by
  obtain ⟨bias0, bias1, -⟩ := RealFormat.bias_bounds h
  have lt := h.frac_lt
  have fits : frac ≤ 2 ^ 64 := hf.le.trans (Nat.pow_le_pow_right two_pos (by omega))
  have len := bitLen_le.2 hf
  have spec := extEncode_spec neg (q := frac) (unit := 1 - (k.bias : Int) - k.fracBits) fits
    (fun _ => by unfold leading; omega) (fun _ => by omega)
  by_cases h0 : frac = 0
  · have fields : k.ofFields neg 0 frac = { val := extZero neg, den := false } := by
      rw [RealFormat.ofFields, if_pos rfl, if_pos h0]
    rw [h0, extEncode_zero] at spec
    rw [fields, h0]
    obtain ⟨fin, sign, val⟩ := spec
    exact ⟨fin, rfl, sign, val⟩
  · have fields : k.ofFields neg 0 frac = { val := extEncode neg frac (1 - (k.bias : Int) - k.fracBits), den := true } := by
      rw [RealFormat.ofFields, if_pos rfl, if_neg h0]
    rw [fields]
    obtain ⟨fin, sign, val⟩ := spec
    exact ⟨fin, (decide_eq_true h0).symm, sign, val⟩

theorem RealFormat.ofFields_special (h : k.Fits) (hf : frac < 2 ^ k.fracBits) :
    k.ofFields neg (2 ^ k.expBits - 1) frac = ⟨extPack neg 0x7FFF (2 ^ 63 + frac * 2 ^ (63 - k.fracBits)), false⟩ ∧
      extNeg (k.ofFields neg (2 ^ k.expBits - 1) frac).val = neg ∧
      extClass (k.ofFields neg (2 ^ k.expBits - 1) frac).val =
        if frac = 0 then .infinity else if frac < 2 ^ (k.fracBits - 1) then .snan else .qnan := by
  obtain ⟨bias0, bias1, expo⟩ := RealFormat.bias_bounds h
  have lt := h.frac_lt
  have pos := h.frac_pos
  have fields : k.ofFields neg (2 ^ k.expBits - 1) frac =
      { val := extPack neg 0x7FFF (2 ^ 63 + frac * 2 ^ (63 - k.fracBits)), den := false } := by
    rw [RealFormat.ofFields, if_neg (by omega), if_pos rfl]
  have whole : (2 : Nat) ^ 63 = 2 ^ k.fracBits * 2 ^ (63 - k.fracBits) := by rw [← Nat.pow_add]; congr 1; omega
  have half : (2 : Nat) ^ 62 = 2 ^ (k.fracBits - 1) * 2 ^ (63 - k.fracBits) := by rw [← Nat.pow_add]; congr 1; omega
  have below : frac * 2 ^ (63 - k.fracBits) < 2 ^ 63 := by
    rw [whole]
    exact Nat.mul_lt_mul_of_pos_right hf (Nat.two_pow_pos _)
  have zero : frac * 2 ^ (63 - k.fracBits) = 0 ↔ frac = 0 := by simp
  have quietBit : 2 ^ 62 ≤ frac * 2 ^ (63 - k.fracBits) ↔ ¬ frac < 2 ^ (k.fracBits - 1) := by
    rw [half, Nat.mul_le_mul_right_iff (Nat.two_pow_pos _), not_lt]
  have sig : 2 ^ 63 + frac * 2 ^ (63 - k.fracBits) < 2 ^ 64 := by omega
  rw [fields]
  refine ⟨rfl, extNeg_pack neg (by decide) sig, ?_⟩
  rw [extClass_pack neg (by decide) sig, classOf, if_neg (by decide), if_pos rfl, if_pos (Nat.le_add_right _ _),
    if_congr (show 2 ^ 63 + frac * 2 ^ (63 - k.fracBits) = 2 ^ 63 ↔ frac = 0 by rw [← zero]; omega) rfl rfl]
  refine if_congr Iff.rfl rfl ?_
  rw [if_congr (show 2 ^ 63 + 2 ^ 62 ≤ 2 ^ 63 + frac * 2 ^ (63 - k.fracBits) ↔ ¬ frac < 2 ^ (k.fracBits - 1) by
    rw [← quietBit]; omega) rfl rfl, ite_not]

end

end Sys2Proof.Machine
end

section
/-! ## Memory formats: stores -/
set_option Elab.async false

namespace Sys2Proof.Machine

/-! ### Classes of operands stored -/

theorem finiteExt_eq_false_iff {x : Ext} :
    finiteExt x = false ↔ extClass x ∈ [FpClass.pseudo, .unnormal, .snan, .qnan, .infinity] := by
  unfold finiteExt
  cases extClass x <;> simp

theorem isDenormal_of_normal {x : Ext} (h : extClass x = .normal) : (extClass x).isDenormal = false := by
  rw [h]
  rfl

/-! ### NaNs -/

theorem extSig_quiet (x : Ext) : extSig (quiet x) = extSig x ||| 2 ^ 62 := by
  have low : (2 : Nat) ^ 62 % 2 ^ 80 = 2 ^ 62 := rfl
  rw [extSig_eq, extSig_eq, quiet, BitVec.toNat_or, BitVec.toNat_shiftLeft, Nat.or_mod_two_pow]
  rfl

/-- The fraction of a quiet NaN, cut to a format, has its highest bit set. -/
theorem quiet_fraction (x : Ext) {k : Nat} (h : 0 < k) (hk : k ≤ 62) :
    2 ^ (k - 1) ≤ extSig (quiet x) % 2 ^ 63 / 2 ^ (63 - k) ∧ extSig (quiet x) % 2 ^ 63 / 2 ^ (63 - k) < 2 ^ k := by
  have bit : (extSig (quiet x) % 2 ^ 63).testBit 62 = true := by
    rw [Nat.testBit_mod_two_pow, extSig_quiet, Nat.testBit_or, Nat.testBit_two_pow_self, Bool.or_true]
    rfl
  have high := Nat.ge_two_pow_of_testBit bit
  rw [Nat.le_div_iff_mul_le (Nat.two_pow_pos _), Nat.div_lt_iff_lt_mul (Nat.two_pow_pos _), ← Nat.pow_add, ← Nat.pow_add,
    show k - 1 + (63 - k) = 62 by omega, show k + (63 - k) = 63 by omega]
  exact ⟨high, Nat.mod_lt _ (by decide)⟩

/-! ### Rounding to a format -/

theorem overflowToInf_iff (rc : BitVec 2) (neg : Bool) :
    overflowToInf rc neg = true ↔ rc = 0 ∨ (rc = 1 ∧ neg = true) ∨ (rc = 2 ∧ neg = false) := by
  revert rc neg
  decide

section
variable {k : RealFormat} {f : Fpu} {x : Finite}

/-- The number of a store, rounded to the bits of the format. -/
def RealFormat.rounded (k : RealFormat) (f : Fpu) (x : Finite) : Rounded := roundAt f.rc x (unitFor (k.fracBits + 1) x)

/-- The exponent of its leading bit. -/
def RealFormat.roundedExp (k : RealFormat) (f : Fpu) (x : Finite) : Int :=
  leading (k.rounded f x).q (unitFor (k.fracBits + 1) x)

/-- The number of a store rounded at the denormal unit of the format. -/
def RealFormat.denormal (k : RealFormat) (f : Fpu) (x : Finite) : Rounded :=
  roundAt f.rc x (1 - (k.bias : Int) - k.fracBits)

/-- In range the number is packed with the exponent of its leading bit. -/
theorem RealFormat.round_range (h : k.Fits) (hx : x.sig ≠ 0) (hi : k.roundedExp f x ≤ k.bias)
    (lo : 1 - (k.bias : Int) ≤ k.roundedExp f x) :
    ∃ e frac : Nat, 0 < e ∧ e < 2 ^ k.expBits - 1 ∧ frac < 2 ^ k.fracBits ∧
      k.round f x = ⟨k.pack x.neg e frac, excIf (k.rounded f x).inexact excP, (k.rounded f x).up⟩ ∧
      (2 ^ k.fracBits + frac : ℚ) * (2 : ℚ) ^ ((e : Int) - k.bias - k.fracBits) =
        (k.rounded f x).q * (2 : ℚ) ^ unitFor (k.fracBits + 1) x := by
  obtain ⟨bias0, bias1, expo⟩ := RealFormat.bias_bounds h
  have eq : k.round f x = ⟨k.sign x.neg + (k.roundedExp f x + k.bias - 1).toNat * 2 ^ k.fracBits +
      (if bitLen (k.rounded f x).q ≤ k.fracBits + 1 then (k.rounded f x).q * 2 ^ (k.fracBits + 1 - bitLen (k.rounded f x).q)
        else (k.rounded f x).q / 2), excIf (k.rounded f x).inexact excP, (k.rounded f x).up⟩ :=
    (if_neg (not_lt.2 hi)).trans (if_neg (not_lt.2 lo))
  have len := bitLen_roundAt f.rc hx (Nat.succ_pos k.fracBits)
  obtain ⟨low, -⟩ := roundAt_unitFor f.rc hx (Nat.succ_pos k.fracBits)
  change bitLen (k.rounded f x).q = k.fracBits + 1 ∨ (bitLen (k.rounded f x).q = k.fracBits + 1 + 1 ∧
    (k.rounded f x).q = 2 ^ (k.fracBits + 1)) at len
  change 2 ^ k.fracBits ≤ (k.rounded f x).q at low
  have lead : k.roundedExp f x = unitFor (k.fracBits + 1) x + bitLen (k.rounded f x).q - 1 := rfl
  have packs {sig : Nat} (l : 2 ^ k.fracBits ≤ sig) :
      k.sign x.neg + (k.roundedExp f x + k.bias - 1).toNat * 2 ^ k.fracBits + sig =
        k.pack x.neg (k.roundedExp f x + k.bias).toNat (sig - 2 ^ k.fracBits) := by
    have step : (k.roundedExp f x + k.bias).toNat = (k.roundedExp f x + k.bias - 1).toNat + 1 := by omega
    rw [RealFormat.pack, step, Nat.succ_mul]
    omega
  rcases len with len | ⟨len, all⟩
  · have high := bitLen_le.1 len.le
    rw [Nat.pow_succ] at high
    rw [len, if_pos (le_refl _), Nat.sub_self, Nat.pow_zero, Nat.mul_one, packs low] at eq
    refine ⟨_, _, by omega, by omega, by omega, eq, ?_⟩
    rw [Nat.cast_sub low, Nat.cast_pow, Nat.cast_two, add_sub_cancel, Int.toNat_of_nonneg (by omega), lead, len]
    congr 2
    push_cast
    ring
  · rw [len, if_neg (by omega), all, Nat.pow_succ, Nat.mul_div_cancel _ two_pos, packs (le_refl _)] at eq
    refine ⟨_, _, by omega, by omega, by rw [Nat.sub_self]; exact Nat.two_pow_pos _, eq, ?_⟩
    rw [Nat.sub_self, Int.toNat_of_nonneg (by omega), lead, len, all]
    push_cast
    rw [add_zero, pow_succ, mul_assoc, ← zpow_one_add₀ two_ne_zero]
    congr 2
    ring

theorem RealFormat.round_over_masked (h : k.Fits) (hi : (k.bias : Int) < k.roundedExp f x) (hm : f.masks.getLsbD 3 = true) :
    k.round f x = ⟨k.pack x.neg (if overflowToInf f.rc x.neg then 2 ^ k.expBits - 1 else 2 ^ k.expBits - 2)
      (if overflowToInf f.rc x.neg then 0 else 2 ^ k.fracBits - 1), excO ||| excP, overflowToInf f.rc x.neg⟩ := by
  have eq : k.round f x = ⟨k.sign x.neg + (if overflowToInf f.rc x.neg then k.special else k.special - 1), excO ||| excP,
      overflowToInf f.rc x.neg⟩ := (if_pos hi).trans (if_pos (by rw [and_excO_bne_zero]; exact hm))
  rw [eq]
  cases overflowToInf f.rc x.neg with
  | true => rfl
  | false =>
    obtain ⟨-, -, expo⟩ := RealFormat.bias_bounds h
    have pos := Nat.two_pow_pos k.fracBits
    have special : k.special = (2 ^ k.expBits - 2) * 2 ^ k.fracBits + 2 ^ k.fracBits := by
      rw [RealFormat.special, ← Nat.succ_mul]
      congr 1
      omega
    simp only [Bool.false_eq_true, if_false, RealFormat.pack, special]
    congr 1
    omega

theorem RealFormat.round_over_unmasked (hi : (k.bias : Int) < k.roundedExp f x) (hm : f.masks.getLsbD 3 = false) :
    k.round f x = ⟨0, excO ||| excIf (k.rounded f x).inexact excP, (k.rounded f x).up⟩ :=
  (if_pos hi).trans (if_neg (by rw [and_excO_bne_zero, hm]; exact Bool.noConfusion))

theorem RealFormat.round_tiny_unmasked (lo : k.roundedExp f x < 1 - (k.bias : Int)) (hm : f.masks.getLsbD 4 = false) :
    k.round f x = ⟨0, excU ||| excIf (k.rounded f x).inexact excP, (k.rounded f x).up⟩ := by
  have hi : ¬ k.roundedExp f x > k.bias := by omega
  exact (if_neg hi).trans ((if_pos lo).trans (if_neg (by rw [and_excU_bne_zero, hm]; exact Bool.noConfusion)))

/-- A tiny number is packed as a denormal, or as the least normal number where it rounds up to that. -/
theorem RealFormat.round_tiny_masked (hx : x.sig ≠ 0) (lo : k.roundedExp f x < 1 - (k.bias : Int))
    (hm : f.masks.getLsbD 4 = true) :
    ∃ e frac : Nat, k.round f x = ⟨k.pack x.neg e frac, excIf (k.denormal f x).inexact (excU ||| excP), (k.denormal f x).up⟩ ∧
      frac < 2 ^ k.fracBits ∧
      ((e = 0 ∧ (k.denormal f x).q = frac) ∨ (e = 1 ∧ frac = 0 ∧ (k.denormal f x).q = 2 ^ k.fracBits)) := by
  have hi : ¬ k.roundedExp f x > k.bias := by omega
  have eq : k.round f x = ⟨k.sign x.neg + (k.denormal f x).q, excIf (k.denormal f x).inexact (excU ||| excP),
      (k.denormal f x).up⟩ :=
    (if_neg hi).trans ((if_pos lo).trans (if_pos (by rw [and_excU_bne_zero]; exact hm)))
  have small : (k.denormal f x).q ≤ 2 ^ k.fracBits := by
    refine roundAt_least_le hx (Nat.succ_pos k.fracBits) (lo.trans_eq ?_)
    push_cast
    ring
  rcases small.lt_or_eq with lt | all
  · refine ⟨0, (k.denormal f x).q, ?_, lt, .inl ⟨rfl, rfl⟩⟩
    rw [eq, RealFormat.pack, Nat.zero_mul, Nat.add_zero]
  · refine ⟨1, 0, ?_, Nat.two_pow_pos _, .inr ⟨rfl, rfl, all⟩⟩
    rw [eq, RealFormat.pack, Nat.one_mul, Nat.add_zero, all]

/-- Whatever is stored has the size of the format. -/
theorem RealFormat.round_lt (h : k.Fits) (hx : x.sig ≠ 0) : (k.round f x).bits < 2 ^ (k.expBits + k.fracBits + 1) := by
  obtain ⟨bias0, bias1, expo⟩ := RealFormat.bias_bounds h
  have pos := Nat.two_pow_pos k.fracBits
  by_cases hi : (k.bias : Int) < k.roundedExp f x
  · cases hm : f.masks.getLsbD 3 with
    | true =>
      rw [RealFormat.round_over_masked h hi hm]
      exact RealFormat.pack_lt (by split <;> omega) (by split <;> omega)
    | false =>
      rw [RealFormat.round_over_unmasked hi hm]
      exact Nat.two_pow_pos _
  · by_cases lo : k.roundedExp f x < 1 - (k.bias : Int)
    · cases hm : f.masks.getLsbD 4 with
      | true =>
        obtain ⟨e, frac, eq, hf, hq⟩ := RealFormat.round_tiny_masked hx lo hm
        rw [eq]
        exact RealFormat.pack_lt (by omega) hf
      | false =>
        rw [RealFormat.round_tiny_unmasked lo hm]
        exact Nat.two_pow_pos _
    · obtain ⟨e, frac, -, he, hf, eq, -⟩ := RealFormat.round_range h hx (not_lt.1 hi) (not_lt.1 lo)
      rw [eq]
      exact RealFormat.pack_lt (by omega) hf

end

/-! ### What is stored -/

section
variable {k : RealFormat} {f : Fpu} {x : Ext}

/-- D, when a denormal is stored. -/
def denormalMet (x : Ext) : Exns := if (extClass x).isDenormal then excD else 0

theorem toReal_finite (hx : finiteExt x = true) (hv : extValue x ≠ 0) :
    toReal k f x = { k.round f (extFinite x) with exc := (k.round f (extFinite x)).exc ||| denormalMet x } := by
  have nz : extClass x ≠ .zero := by
    rw [ne_eq, ← isZero_iff, isZero_iff_value hx]
    exact hv
  unfold finiteExt at hx
  unfold toReal denormalMet
  cases hc : extClass x <;> rw [hc] at hx nz
  case zero => exact absurd rfl nz
  case normal => simp [FpClass.isDenormal]
  case denormal | pseudoDenormal => rfl
  case unnormal | infinity | qnan | snan | pseudo => cases hx

theorem toReal_zero (h : extClass x = .zero) : toReal k f x = ⟨k.pack (extNeg x) 0 0, 0, false⟩ := by
  unfold toReal
  rw [h]
  simp [RealFormat.pack]

theorem toReal_infinity (h : extClass x = .infinity) :
    toReal k f x = ⟨k.pack (extNeg x) (2 ^ k.expBits - 1) 0, 0, false⟩ := by
  unfold toReal
  rw [h]
  rfl

theorem toReal_nan (h : (extClass x).isNan = true) :
    toReal k f x = ⟨k.pack (extNeg x) (2 ^ k.expBits - 1) (extSig (quiet x) % 2 ^ 63 / 2 ^ (63 - k.fracBits)),
      if extClass x = .snan then excI else 0, false⟩ := by
  unfold toReal
  cases hc : extClass x <;> rw [hc] at h
  case qnan | snan => rfl
  all_goals cases h

theorem toReal_unsupported (h : (extClass x).unsupported = true) :
    toReal k f x = ⟨k.pack true (2 ^ k.expBits - 1) (2 ^ (k.fracBits - 1)), excI, false⟩ := by
  unfold toReal
  cases hc : extClass x <;> rw [hc] at h
  case unnormal | pseudo => rfl
  all_goals cases h

theorem toReal_lt (h : k.Fits) : (toReal k f x).bits < 2 ^ (k.expBits + k.fracBits + 1) := by
  obtain ⟨bias0, bias1, expo⟩ := RealFormat.bias_bounds h
  have pos := h.frac_pos
  have lt := h.frac_lt
  by_cases fin : finiteExt x = true
  · by_cases hv : extValue x = 0
    · rw [toReal_zero (isZero_iff.1 ((isZero_iff_value fin).2 hv))]
      exact RealFormat.pack_lt (by omega) (Nat.two_pow_pos _)
    · rw [toReal_finite fin hv]
      exact RealFormat.round_lt h fun hs => hv (extValue_eq_zero.2 hs)
  · have cases := finiteExt_eq_false_iff.1 (Bool.eq_false_iff.2 fin)
    by_cases inf : extClass x = .infinity
    · rw [toReal_infinity inf]
      exact RealFormat.pack_lt (by omega) (Nat.two_pow_pos _)
    · by_cases nan : (extClass x).isNan = true
      · rw [toReal_nan nan]
        exact RealFormat.pack_lt (by omega) (quiet_fraction x pos (by omega)).2
      · have bad : (extClass x).unsupported = true := by
          cases hc : extClass x <;> rw [hc] at cases nan inf
          case pseudo | unnormal => rfl
          case snan | qnan => exact absurd rfl nan
          case infinity => exact absurd rfl inf
          all_goals simp at cases
        rw [toReal_unsupported bad]
        exact RealFormat.pack_lt (by omega) (Nat.pow_lt_pow_right (by decide) (by omega))

theorem toInteger_finite {n : Nat} (hx : finiteExt x = true) :
    toInteger n f x = if (roundAt f.rc (extFinite x) 0).q > 2 ^ (n - 1) - (if extNeg x then 0 else 1) then
        ⟨2 ^ (n - 1), excI, false⟩
      else ⟨ofSigned n (signedOf (extNeg x) (roundAt f.rc (extFinite x) 0).q),
        excIf (roundAt f.rc (extFinite x) 0).inexact excP ||| denormalMet x, (roundAt f.rc (extFinite x) 0).up⟩ := by
  unfold finiteExt at hx
  unfold toInteger denormalMet
  cases hc : extClass x <;> rw [hc] at hx
  case zero | normal | denormal | pseudoDenormal => rfl
  all_goals cases hx

theorem toInteger_other {n : Nat} (hx : finiteExt x = false) : toInteger n f x = ⟨2 ^ (n - 1), excI, false⟩ := by
  unfold finiteExt at hx
  unfold toInteger
  cases hc : extClass x <;> rw [hc] at hx
  all_goals cases hx

theorem toPacked_finite (hx : finiteExt x = true) :
    toPacked f x = if (roundAt f.rc (extFinite x) 0).q ≥ 10 ^ 18 then ⟨packedIndefinite, excI, false⟩
      else ⟨(if extNeg x then 2 ^ 79 else 0) + bcdDigits 18 (roundAt f.rc (extFinite x) 0).q,
        excIf (roundAt f.rc (extFinite x) 0).inexact excP ||| denormalMet x, (roundAt f.rc (extFinite x) 0).up⟩ := by
  unfold finiteExt at hx
  unfold toPacked denormalMet
  cases hc : extClass x <;> rw [hc] at hx
  case zero | normal | denormal | pseudoDenormal => rfl
  all_goals cases hx

theorem toPacked_other (hx : finiteExt x = false) : toPacked f x = ⟨packedIndefinite, excI, false⟩ := by
  unfold finiteExt at hx
  unfold toPacked
  cases hc : extClass x <;> rw [hc] at hx
  all_goals cases hx

end

/-! ### What is read back -/

section
variable {k : RealFormat} {neg : Bool}

theorem ofReal_pack_infinity (h : k.Fits) : (ofReal k (k.pack neg (2 ^ k.expBits - 1) 0)).val = extInf neg := by
  obtain ⟨-, -, expo⟩ := RealFormat.bias_bounds h
  obtain ⟨fields, -, -⟩ := RealFormat.ofFields_special (neg := neg) h (frac := 0) (Nat.two_pow_pos _)
  rw [ofReal_pack (by omega) (Nat.two_pow_pos _), fields, Nat.zero_mul]
  rfl

theorem ofReal_pack_zero (k : RealFormat) (neg : Bool) : ofReal k (k.pack neg 0 0) = ⟨extZero neg, false⟩ := by
  rw [ofReal_pack (Nat.two_pow_pos _) (Nat.two_pow_pos _), RealFormat.ofFields, if_pos rfl, if_pos rfl]

/-- The largest number of a format. -/
theorem ofReal_pack_largest (h : k.Fits) :
    finiteExt (ofReal k (k.pack neg (2 ^ k.expBits - 2) (2 ^ k.fracBits - 1))).val = true ∧
      extValue (ofReal k (k.pack neg (2 ^ k.expBits - 2) (2 ^ k.fracBits - 1))).val =
        signOf neg * ((2 ^ (k.fracBits + 1) - 1) * (2 : ℚ) ^ ((k.bias : Int) - k.fracBits)) := by
  obtain ⟨bias0, bias1, expo⟩ := RealFormat.bias_bounds h
  have pos := Nat.one_le_two_pow (n := k.fracBits)
  have hf : 2 ^ k.fracBits - 1 < 2 ^ k.fracBits := by omega
  obtain ⟨fin, -, -, -, val⟩ := RealFormat.ofFields_normal (neg := neg) h hf (e := 2 ^ k.expBits - 2) (by omega) (by omega)
  rw [ofReal_pack (by omega) hf]
  refine ⟨fin, val.trans ?_⟩
  rw [Nat.cast_sub pos, show ((2 ^ k.expBits - 2 : Nat) : Int) = 2 * k.bias by omega]
  push_cast
  congr 2
  · ring
  · congr 1
    ring

end

/-- A rounded number fits `n` bits exactly when `toInteger` does not refuse it. -/
theorem signedOf_fits_iff (neg : Bool) (q n : Nat) :
    (-(2 ^ (n - 1) : Int) ≤ signedOf neg q ∧ signedOf neg q < 2 ^ (n - 1)) ↔ ¬ q > 2 ^ (n - 1) - (if neg then 0 else 1) := by
  have cast : ((2 ^ (n - 1) : Nat) : Int) = 2 ^ (n - 1) := by push_cast; rfl
  have pos := Nat.two_pow_pos (n - 1)
  rw [← cast]
  generalize 2 ^ (n - 1) = m at *
  cases neg <;> simp [signedOf] <;> omega

section
variable {k : RealFormat} {f : Fpu} {x : Ext}

theorem extFinite_sig_ne (hv : extValue x ≠ 0) : (extFinite x).sig ≠ 0 := fun h => hv (Finite.value_eq_zero.2 h)

/-- A number stored in range is read back as it was rounded. -/
theorem stored_in_range (h : k.Fits) (hx : finiteExt x = true) (hv : extValue x ≠ 0)
    (hi : k.roundedExp f (extFinite x) ≤ k.bias) (lo : 1 - (k.bias : Int) ≤ k.roundedExp f (extFinite x)) :
    finiteExt (ofReal k (toReal k f x).bits).val = true ∧ (ofReal k (toReal k f x).bits).den = false ∧
      extValue (ofReal k (toReal k f x).bits).val = signOf (extNeg x) *
        ((k.rounded f (extFinite x)).q * (2 : ℚ) ^ unitFor (k.fracBits + 1) (extFinite x)) ∧
      (toReal k f x).up = (k.rounded f (extFinite x)).up ∧
      (toReal k f x).exc = (excIf (k.rounded f (extFinite x)).inexact excP ||| denormalMet x) := by
  obtain ⟨e, frac, h0, he, hf, eq, value⟩ := RealFormat.round_range h (extFinite_sig_ne hv) hi lo
  obtain ⟨fin, den, -, -, val⟩ := RealFormat.ofFields_normal (neg := extNeg x) h hf h0 he
  rw [toReal_finite hx hv, eq]
  dsimp only
  rw [show (extFinite x).neg = extNeg x from rfl, ofReal_pack (by omega) hf]
  exact ⟨fin, den, val.trans (congrArg _ value), rfl, rfl⟩

/-- A tiny number is read back as it was rounded at the denormal unit. -/
theorem stored_tiny (h : k.Fits) (hx : finiteExt x = true) (hv : extValue x ≠ 0)
    (lo : k.roundedExp f (extFinite x) < 1 - (k.bias : Int)) (hm : f.masks.getLsbD 4 = true) :
    finiteExt (ofReal k (toReal k f x).bits).val = true ∧
      extValue (ofReal k (toReal k f x).bits).val = signOf (extNeg x) *
        ((k.denormal f (extFinite x)).q * (2 : ℚ) ^ (1 - (k.bias : Int) - k.fracBits)) ∧
      (toReal k f x).up = (k.denormal f (extFinite x)).up ∧
      (toReal k f x).exc = (excIf (k.denormal f (extFinite x)).inexact (excU ||| excP) ||| denormalMet x) := by
  obtain ⟨bias0, bias1, expo⟩ := RealFormat.bias_bounds h
  obtain ⟨e, frac, eq, hf, hq⟩ := RealFormat.round_tiny_masked (extFinite_sig_ne hv) lo hm
  rw [toReal_finite hx hv, eq]
  dsimp only
  rw [show (extFinite x).neg = extNeg x from rfl, ofReal_pack (by omega) hf]
  rcases hq with ⟨rfl, hq⟩ | ⟨rfl, rfl, hq⟩
  · obtain ⟨fin, -, -, val⟩ := RealFormat.ofFields_subnormal (neg := extNeg x) h hf
    rw [← hq] at fin val ⊢
    exact ⟨fin, val, rfl, rfl⟩
  · obtain ⟨fin, -, -, -, val⟩ := RealFormat.ofFields_normal (neg := extNeg x) h hf Nat.one_pos (by omega)
    refine ⟨fin, val.trans ?_, rfl, rfl⟩
    rw [hq]
    push_cast
    rw [add_zero]

end

/-- Settles O48. -/
theorem fpuMemoryFormats : Obligations.FpuMemoryFormats := by
  refine ⟨⟨fun i hi => ofInt_value hi, fun k v hv => ?_, fun k v hk => ?_, fun n f x hn hx => ?_⟩, fun f x => ?_⟩
  · obtain ⟨lt, digits⟩ := bcdValue_spec 18 v k hv
    obtain ⟨-, -, val⟩ := extEncode_unit (v.testBit 79) (lt.trans (by decide))
    exact ⟨lt, digits, val⟩
  · intro frac e sign x
    have h := RealFormat.fits hk
    have hf : frac < 2 ^ k.fracBits := Nat.mod_lt _ (Nat.two_pow_pos _)
    refine ⟨fun h0 he => ?_, fun h0 => ?_, fun he => ?_⟩
    · obtain ⟨fin, den, -, -, val⟩ := RealFormat.ofFields_normal (neg := v.testBit (k.expBits + k.fracBits)) h hf h0 he
      exact ⟨fin, den, val.trans (mul_assoc ..).symm⟩
    · obtain ⟨fin, den, -, val⟩ := RealFormat.ofFields_subnormal (neg := v.testBit (k.expBits + k.fracBits)) h hf
      have fields : ofReal k v = k.ofFields (v.testBit (k.expBits + k.fracBits)) 0 frac :=
        (ofReal_eq_ofFields k v).trans (congrArg (fun e => k.ofFields _ e frac) h0)
      rw [← fields] at fin den val
      exact ⟨fin, den, val.trans (mul_assoc ..).symm⟩
    · obtain ⟨-, -, cls⟩ := RealFormat.ofFields_special (neg := v.testBit (k.expBits + k.fracBits)) h hf
      have fields : ofReal k v = k.ofFields (v.testBit (k.expBits + k.fracBits)) (2 ^ k.expBits - 1) frac :=
        (ofReal_eq_ofFields k v).trans (congrArg (fun e => k.ofFields _ e frac) he)
      rw [← fields] at cls
      exact cls
  · intro r i out
    have pos : 0 < n := by omega
    have eq : out = _ := toInteger_finite hx
    refine ⟨fun hi => ?_, fun hi => ?_⟩
    · rw [if_neg ((signedOf_fits_iff ..).1 hi)] at eq
      rw [eq]
      exact ⟨toSigned_ofSigned pos hi.1 hi.2, rfl, rfl⟩
    · rw [if_pos (not_not.1 (mt (signedOf_fits_iff ..).2 hi))] at eq
      rw [eq]
      exact ⟨rfl, rfl⟩
  · intro neg sign y den
    refine ⟨fun k hk => ?_, fun hx => ?_, fun hx => ⟨?_, fun n _ => ?_⟩⟩
    · intro p out back unit r least d toInf beyond tiny
      have h := RealFormat.fits hk
      obtain ⟨bias0, bias1, expo⟩ := RealFormat.bias_bounds h
      refine ⟨toReal_lt h, fun hx hv => ⟨fun hi lo => ?_, fun hi hm => ?_, fun lo hm => ?_, fun hi hm => ?_, fun lo hm => ?_⟩,
        fun hz => ?_, fun hinf => ?_, fun hnan => ?_, fun hbad => ?_⟩
      · obtain ⟨fin, hden, val, up, exc⟩ := stored_in_range h hx hv (not_lt.1 hi) (not_lt.1 lo)
        exact ⟨fin, hden, val.trans (mul_assoc ..).symm, up, exc⟩
      · have eq : out = _ := toReal_finite hx hv
        rw [RealFormat.round_over_masked h hi hm] at eq
        have bits : back = ofReal k out.bits := rfl
        rw [bits, eq]
        refine ⟨rfl, fun inf => ?_, fun inf => ?_⟩
        · have inf' : overflowToInf f.rc (extFinite x).neg = true := (overflowToInf_iff ..).2 inf
          rw [inf']
          exact ofReal_pack_infinity h
        · have inf' : overflowToInf f.rc (extFinite x).neg = false := Bool.eq_false_iff.2 (mt (overflowToInf_iff ..).1 inf)
          rw [inf']
          exact (ofReal_pack_largest h).imp_right fun val => val.trans (mul_assoc ..).symm
      · obtain ⟨fin, val, up, exc⟩ := stored_tiny h hx hv lo hm
        exact ⟨fin, val.trans (mul_assoc ..).symm, up, exc⟩
      · have eq : out = _ := toReal_finite hx hv
        rw [RealFormat.round_over_unmasked hi hm] at eq
        rw [eq]
        rfl
      · have eq : out = _ := toReal_finite hx hv
        rw [RealFormat.round_tiny_unmasked lo hm] at eq
        rw [eq]
        rfl
      · have eq : out = _ := toReal_zero hz
        have bits : back = ofReal k out.bits := rfl
        rw [bits, eq]
        exact ⟨ofReal_pack_zero k neg, rfl⟩
      · have eq : out = _ := toReal_infinity hinf
        have bits : back = ofReal k out.bits := rfl
        rw [bits, eq]
        exact ⟨ofReal_pack_infinity h, rfl⟩
      · have eq : out = _ := toReal_nan hnan
        have bits : back = ofReal k out.bits := rfl
        have pos := h.frac_pos
        have lt := h.frac_lt
        obtain ⟨low, high⟩ := quiet_fraction x pos (by omega)
        obtain ⟨-, hneg, cls⟩ := RealFormat.ofFields_special (neg := neg) h high
        have half := Nat.two_pow_pos (k.fracBits - 1)
        rw [if_neg (by omega), if_neg (by omega)] at cls
        rw [bits, eq]
        dsimp only
        rw [ofReal_pack (by omega) high, RealFormat.pack_frac high]
        exact ⟨cls, hneg, rfl, rfl⟩
      · have eq : out = _ := toReal_unsupported hbad
        have bits : back = ofReal k out.bits := rfl
        rw [bits, eq]
        rcases hk with rfl | rfl <;> exact ⟨by decide, rfl⟩
    · intro r out
      have eq : out = _ := toPacked_finite hx
      refine ⟨fun hq => ?_, fun hq => ?_⟩
      · rw [if_neg (not_le.2 hq)] at eq
        have digits := bcdDigits_lt 18 r.q
        have bits : out.bits = bcdDigits 18 r.q + 16 ^ 18 * (if neg then 128 else 0) := by
          rw [eq]
          show (if neg = true then 2 ^ 79 else 0) + bcdDigits 18 r.q = _
          cases neg
          · simp
          · norm_num
            omega
        refine ⟨?_, ?_, ?_, ?_⟩
        · rw [bits]
          exact bcdValue_bcdDigits 18 r.q _ hq
        · rw [bits, show (2 : Nat) ^ 72 = 16 ^ 18 by norm_num, Nat.add_mul_div_left _ _ (by norm_num), Nat.div_eq_of_lt digits,
            Nat.zero_add]
        · rw [eq]
        · rw [eq]
          rfl
      · rw [if_pos hq] at eq
        rw [eq]
        exact ⟨rfl, rfl⟩
    · rw [toPacked_other hx]
      exact ⟨rfl, rfl⟩
    · rw [toInteger_other hx]
      exact ⟨rfl, rfl⟩

end Sys2Proof.Machine
end

section
/-! ## Floating-point instructions: the envelope -/
set_option Elab.async false

namespace Sys2Proof.Machine

section
variable {i : Instr} {m : Mem} {n al v : Nat} {s s1 : State} {ps : List BytePlace} {f : Fpu}

theorem State.EscReady.ready (h : s.EscReady) : s.Ready true := ⟨h.1, by simp⟩

theorem escCheck_ok {b : Bool} (h : s.EscReady) (hn : b = true → s.NoFpuError) : escCheck b s = .ok () s := by
  obtain ⟨-, em, ts, lock⟩ := h
  cases b with
  | false => simp [escCheck, em, ts, lock]
  | true => simp [escCheck, em, ts, lock, pendingCheck_ok (hn rfl)]

theorem State.EscReady.begin (h : s.EscReady) : s.begin.EscReady := h

/-- The pointers that an instruction notes, from a state whose EIP is the next instruction's. -/
theorem notePointers_run (i : Instr) (m : Option Mem) (u : BitVec 128) {t : State} (heip : t.eip = s.begin.eip)
    (hdec : t.dec = s.dec) (hsegs : t.segs = s.segs) (hregs : t.regs = s.regs) :
    notePointers i m u t = .ok () (t.withFpu (noted i m u s t.fpu)) := by
  have back : t.eip - BitVec.ofNat 32 t.dec.len = s.eip := by
    rw [heip, hdec]
    exact BitVec.add_sub_cancel ..
  have off (m : Mem) : t.memOff m = s.memOff m := congrArg (effAddr · m) hregs
  have seg (m : Mem) : t.memSeg m = s.memSeg m := by
    unfold State.memSeg
    rw [hdec]
  unfold notePointers noted State.withFpu
  cases m with
  | none => rw [back, hsegs]
  | some m =>
    simp only [off, seg]
    rw [back, hsegs]

theorem completes_of_escRegister {g : BitVec 128 → Fpu → Fpu} (hi : exec i s = escRegister i g s) (he : s.EscReady)
    (hn : s.NoFpuError) (hf : g s.draw s.fpu = f) : Completes i s (numericDone i none s s.begin f) [] := by
  subst hf
  refine completes_of_ok hi he.ready (M.bind_of_ok (escCheck_ok he.begin fun _ => hn) (M.bind_of_ok (fresh_run _)
    (M.bind_of_ok (modFpu_run ..) (notePointers_run i none _ (s := s) ?_ ?_ ?_ ?_)))) rfl (keeps_of_mem rfl)
  all_goals rfl

theorem completes_of_escRegister2 {g : BitVec 128 → BitVec 128 → Fpu → Fpu} (hi : exec i s = escRegister2 i g s) (he : s.EscReady)
    (hn : s.NoFpuError) (hf : g s.draw s.begin.drawn.draw s.fpu = f) :
    Completes i s ((s.begin.drawn.drawn.withFpu (noted i none s.draw s f)).complete false) [] := by
  subst hf
  refine completes_of_ok hi he.ready (M.bind_of_ok (escCheck_ok he.begin fun _ => hn) (M.bind_of_ok (fresh_run _)
    (M.bind_of_ok (fresh_run _) (M.bind_of_ok (modFpu_run ..) (notePointers_run i none _ (s := s) ?_ ?_ ?_ ?_))))) rfl
    (keeps_of_mem rfl)
  all_goals rfl

theorem completes_of_escLoad {g : Nat → BitVec 128 → Fpu → Fpu} (hi : exec i s = escLoad i m n al g s) (he : s.EscReady)
    (hn : s.NoFpuError) (hx : loadMem m 0 n al s.begin = .ok v s1) (hf : g v s1.draw s.fpu = f) :
    Completes i s (numericDone i (some m) s s1 f) [] := by
  have reads := loadMem_reads hx
  have fpu : s1.fpu = s.fpu := reads.fpu
  subst hf
  rw [← fpu]
  refine completes_of_reads hi he.ready (M.bind_of_ok (escCheck_ok he.begin fun _ => hn) (M.bind_of_ok hx (M.bind_of_ok
    (fresh_run _) (M.bind_of_ok (modFpu_run ..) (notePointers_run i (some m) _ (s := s) ?_ ?_ ?_ ?_))))) reads rfl
  · exact reads.eip
  · exact reads.dec
  · exact reads.segs
  · exact reads.regs

end

/-! ### Results of registers -/

section
variable {g : Fpu} {n : Num} {w : Ext → Fpu → Fpu}

theorem Fpu.commit_eq (g : Fpu) (n : Num) (w : Ext → Fpu → Fpu) : g.commit n w = settled g n w := by
  unfold Fpu.commit settled Fpu.unmasked
  by_cases h : n.exc &&& 7 &&& ~~~g.masks = 0
  · rw [if_pos h, if_neg (by simpa using h)]
  · rw [if_neg h, if_pos (by simpa using h)]

theorem unmasked_excI (m : BitVec 6) : (excI &&& ~~~m != 0) = !m.getLsbD 0 := by
  revert m
  decide

theorem unmasked_excD (m : BitVec 6) : (excD &&& ~~~m != 0) = !m.getLsbD 1 := by
  revert m
  decide

theorem FpuStatus.raise_zero (t : FpuStatus) : t.raise 0 = t := by
  simp [FpuStatus.raise]

theorem Fpu.raise_zero (g : Fpu) : g.raise 0 = g := by
  rw [Fpu.raise, FpuStatus.raise_zero]

theorem Fpu.raise_excI_fault (g : Fpu) (o : Bool) :
    ({ ((g.raise excI).setC1 o) with st := { ((g.raise excI).setC1 o).st with sf := true } } : Fpu) = g.faulted o := by
  simp [Fpu.raise, Fpu.setC1, Fpu.faulted, FpuStatus.raise]

theorem Fpu.stackFault_eq (g : Fpu) (o : Bool) (r : Fpu → Fpu) : g.stackFault o r = g.stackFaulted o r := by
  unfold Fpu.stackFault Fpu.stackFaulted Fpu.unmasked
  simp only [Fpu.raise_excI_fault, unmasked_excI]
  cases g.masks.getLsbD 0 <;> rfl

theorem settled_exact (g : Fpu) (v : Ext) (w : Ext → Fpu → Fpu) : settled g (Num.exact v) w = w v (g.setC1 false) := by
  have none : (Num.exact v).exc &&& 7 &&& ~~~g.masks = 0 := by simp [Num.exact]
  rw [settled, if_pos none]
  show w v ((g.raise 0).setC1 false) = _
  rw [Fpu.raise_zero]

theorem Fpu.pushNum_empty (h : g.isEmpty 7 = true) (n : Num) : g.pushNum n = settled g n (fun v g => g.push v) := by
  rw [Fpu.pushNum, h, ← Fpu.commit_eq]
  rfl

theorem Fpu.pushNum_full (h : g.isEmpty 7 = false) (n : Num) :
    g.pushNum n = g.stackFaulted true (fun g => g.push indefinite) := by
  rw [Fpu.pushNum, h, ← Fpu.stackFault_eq]
  rfl

theorem Fpu.pushNum_exact (h : g.isEmpty 7 = true) (v : Ext) : g.pushNum (Num.exact v) = (g.setC1 false).push v := by
  rw [Fpu.pushNum_empty h, settled_exact]

end

/-! ### Operands -/

section
variable {a b : Ext} {special : Option Num}

theorem ordinary_iff : ordinary a b = true ↔
    ((extClass a).isNan = false ∧ (extClass b).isNan = false) ∧ (extClass a).unsupported = false ∧ (extClass b).unsupported = false := by
  simp [ordinary, and_assoc]

theorem FpClass.isNan_iff (c : FpClass) : c.isNan = true ↔ c = .qnan ∨ c = .snan := by simp [FpClass.isNan]

theorem FpClass.isNan_eq_false_iff (c : FpClass) : c.isNan = false ↔ c ≠ .qnan ∧ c ≠ .snan := by simp [FpClass.isNan]

/-- A NaN or an unsupported operand decides the result before anything else is looked at. -/
theorem beforeDenormal_other (h : ordinary a b = false) : beforeDenormal special a b = some (nanResult a b) := by
  unfold beforeDenormal nanResult
  by_cases hu : ((extClass a).unsupported || (extClass b).unsupported) = true
  · rw [if_pos hu, if_pos hu]
    rfl
  · rw [if_neg hu, if_neg hu]
    by_cases hs : (decide (extClass a = .snan) || decide (extClass b = .snan)) = true
    · rw [if_pos hs, hs]
      rfl
    · have hq : (decide (extClass a = .qnan) || decide (extClass b = .qnan)) = true := by
        by_contra hq
        refine Bool.eq_false_iff.1 h (ordinary_iff.2 ?_)
        simp only [FpClass.isNan_eq_false_iff]
        simpa [not_or, and_assoc, and_left_comm, and_comm] using And.intro hq (And.intro hs hu)
      rw [if_neg hs, if_pos hq, Bool.eq_false_iff.2 hs]
      rfl

theorem beforeDenormal_ordinary (h : ordinary a b = true) : beforeDenormal special a b = special := by
  obtain ⟨⟨na, nb⟩, ua, ub⟩ := ordinary_iff.1 h
  obtain ⟨qa, sa⟩ := (FpClass.isNan_eq_false_iff _).1 na
  obtain ⟨qb, sb⟩ := (FpClass.isNan_eq_false_iff _).1 nb
  simp [beforeDenormal, ua, ub, qa, sa, qb, sb]

variable {sp : Ext → Ext → Option Num} {cp : Ext → Ext → Num} {x y : Operand}

theorem numeric2_other (h : ordinary x.val y.val = false) : numeric2 sp cp x y = nanResult x.val y.val := by
  simp only [numeric2, beforeDenormal_other h]

theorem numeric2_special {n : Num} (h : ordinary x.val y.val = true) (hs : sp x.val y.val = some n) : numeric2 sp cp x y = n := by
  simp only [numeric2, beforeDenormal_ordinary h, hs]

theorem numeric2_compute (h : ordinary x.val y.val = true) (hs : sp x.val y.val = none) :
    numeric2 sp cp x y = (cp x.val y.val).withDenormal (x.den || y.den) := by
  simp only [numeric2, beforeDenormal_ordinary h, hs]

theorem numeric1_other {sp : Ext → Option Num} {cp : Ext → Num} (h : ordinary x.val x.val = false) :
    numeric1 sp cp x = nanResult x.val x.val := numeric2_other h

theorem numeric1_special {sp : Ext → Option Num} {cp : Ext → Num} {n : Num} (h : ordinary x.val x.val = true)
    (hs : sp x.val = some n) : numeric1 sp cp x = n := numeric2_special h hs

theorem numeric1_compute {sp : Ext → Option Num} {cp : Ext → Num} (h : ordinary x.val x.val = true) (hs : sp x.val = none) :
    numeric1 sp cp x = (cp x.val).withDenormal x.den := by
  rw [numeric1, numeric2_compute h hs, Bool.or_self]

end

end Sys2Proof.Machine
end

section
/-! ## Floating-point instructions: loads and the stack -/
set_option Elab.async false

namespace Sys2Proof.Machine

/-! ### Ordinary operands -/

section
variable {a b : Ext}

/-- Neither a NaN nor unsupported. -/
def Plain (a : Ext) : Prop := (extClass a).isNan = false ∧ (extClass a).unsupported = false

theorem ordinary_iff_plain : ordinary a b = true ↔ Plain a ∧ Plain b := by
  rw [ordinary_iff, Plain, Plain]
  exact and_and_and_comm

theorem plain_of_finite (h : finiteExt a = true) : Plain a := by
  unfold finiteExt at h
  cases hc : extClass a <;> rw [hc] at h
  case zero | denormal | pseudoDenormal | normal => exact ⟨by rw [hc]; rfl, by rw [hc]; rfl⟩
  case unnormal | infinity | qnan | snan | pseudo => cases h

theorem plain_of_infinity (h : extClass a = .infinity) : Plain a := ⟨by rw [h]; rfl, by rw [h]; rfl⟩

theorem plain_of_zero (h : extClass a = .zero) : Plain a := ⟨by rw [h]; rfl, by rw [h]; rfl⟩

/-- An ordinary operand is finite or an infinity. -/
theorem Plain.finite_or_infinity (h : Plain a) : finiteExt a = true ∨ extClass a = .infinity := by
  obtain ⟨nan, bad⟩ := h
  unfold finiteExt
  cases hc : extClass a <;> rw [hc] at nan bad
  case zero | denormal | pseudoDenormal | normal => exact .inl rfl
  case infinity => exact .inr rfl
  case qnan | snan => cases nan
  case unnormal | pseudo => cases bad

theorem ordinary_of_finite (ha : finiteExt a = true) (hb : finiteExt b = true) : ordinary a b = true :=
  ordinary_iff_plain.2 ⟨plain_of_finite ha, plain_of_finite hb⟩

theorem ordinary_self (h : Plain a) : ordinary a a = true := ordinary_iff_plain.2 ⟨h, h⟩

end

/-! ### Reals loaded -/

section
variable {x : Ext}

theorem chooseNan_self (h : (extClass x).isNan = true) : chooseNan x x = quiet x := by
  unfold chooseNan
  rcases (FpClass.isNan_iff _).1 h with h | h <;> simp [h, FpClass.isNan]

theorem quiet_of_qnan (h : extClass x = .qnan) : quiet x = x := by
  have bit : x.getLsbD 62 = true := by
    unfold extClass at h
    dsimp only at h
    split_ifs at h
    assumption
  refine BitVec.eq_of_getLsbD_eq fun i hi => ?_
  rw [quiet, BitVec.getLsbD_or, BitVec.getLsbD_shiftLeft, BitVec.getLsbD_one]
  by_cases h62 : i = 62
  · rw [h62, bit, Bool.true_or]
  · have : ¬ (¬ i < 62 ∧ i - 62 = 0) := by omega
    cases x.getLsbD i
    · simp
      omega
    · simp

/-- A real of memory is never unsupported, and a NaN is no denormal. -/
theorem ofReal_class {k : RealFormat} (h : k.Fits) (v : Nat) :
    (extClass (ofReal k v).val).unsupported = false ∧ ((extClass (ofReal k v).val).isNan = true → (ofReal k v).den = false) := by
  have hf : v % 2 ^ k.fracBits < 2 ^ k.fracBits := Nat.mod_lt _ (Nat.two_pow_pos _)
  have he : v / 2 ^ k.fracBits % 2 ^ k.expBits < 2 ^ k.expBits := Nat.mod_lt _ (Nat.two_pow_pos _)
  rw [ofReal_eq_ofFields]
  generalize v % 2 ^ k.fracBits = frac at hf
  generalize v / 2 ^ k.fracBits % 2 ^ k.expBits = e at he
  generalize v.testBit (k.expBits + k.fracBits) = neg
  have finite (fin : finiteExt (k.ofFields neg e frac).val = true) :
      (extClass (k.ofFields neg e frac).val).unsupported = false ∧
        ((extClass (k.ofFields neg e frac).val).isNan = true → (k.ofFields neg e frac).den = false) := by
    obtain ⟨nan, bad⟩ := plain_of_finite fin
    exact ⟨bad, fun h => Bool.noConfusion (nan.symm.trans h)⟩
  by_cases h0 : e = 0
  · subst h0
    exact finite (RealFormat.ofFields_subnormal h hf).1
  · by_cases hmax : e = 2 ^ k.expBits - 1
    · subst hmax
      obtain ⟨eq, -, cls⟩ := RealFormat.ofFields_special (neg := neg) h hf
      refine ⟨?_, fun _ => by rw [eq]⟩
      rw [cls]
      split_ifs <;> rfl
    · exact finite (RealFormat.ofFields_normal h hf (by omega) (by omega)).1

theorem settled_invalid (g : Fpu) (v : Ext) (w : Ext → Fpu → Fpu) :
    settled g (Num.invalid v) w = if g.masks.getLsbD 0 then w v ((g.raise excI).setC1 false) else (g.raise excI).setC1 false := by
  have stops : (Num.invalid v).exc &&& 7 &&& ~~~g.masks = 0 ↔ g.masks.getLsbD 0 = true := by
    show (excI : Exns) &&& 7 &&& ~~~g.masks = 0 ↔ _
    generalize g.masks = m
    revert m
    decide
  have low : (Num.invalid v).exc &&& 7 = excI := by
    show excI &&& 7 = excI
    decide
  rw [settled, if_congr stops rfl rfl, low]
  rfl

theorem settled_denormal (g : Fpu) (v : Ext) (den : Bool) (w : Ext → Fpu → Fpu) :
    settled g ((Num.exact v).withDenormal den) w =
      if den then (if g.masks.getLsbD 1 then w v ((g.raise excD).setC1 false) else (g.raise excD).setC1 false)
      else w v (g.setC1 false) := by
  cases den with
  | false =>
    have same : (Num.exact v).withDenormal false = Num.exact v := by simp [Num.withDenormal, Num.exact, excIf]
    rw [same, settled_exact]
    rfl
  | true =>
    have met : ((Num.exact v).withDenormal true).exc = excD := by simp [Num.withDenormal, Num.exact, excIf]
    have stops : excD &&& 7 &&& ~~~g.masks = 0 ↔ g.masks.getLsbD 1 = true := by
      generalize g.masks = m
      revert m
      decide
    rw [settled, met, if_congr stops rfl rfl]
    rfl

/-- A real of memory is pushed as the rule says. -/
theorem pushNum_real {k : RealFormat} (h : k.Fits) {v : Nat} {g : Fpu} (h7 : g.isEmpty 7 = true) :
    g.pushNum (numeric1 (fun _ => none) Num.exact (ofReal k v)) = loadedReal g (ofReal k v) := by
  obtain ⟨supported, nanDen⟩ := ofReal_class h v
  generalize ofReal k v = x at supported nanDen
  rw [Fpu.pushNum_empty h7, loadedReal]
  by_cases nan : (extClass x.val).isNan = true
  · have other : ordinary x.val x.val = false := by
      rw [Bool.eq_false_iff, ne_eq, ordinary_iff]
      exact fun h => Bool.noConfusion (h.1.1.symm.trans nan)
    rw [numeric1_other other]
    rcases (FpClass.isNan_iff _).1 nan with q | q
    · have result : nanResult x.val x.val = Num.exact x.val := by
        simp [nanResult, q, chooseNan_self nan, quiet_of_qnan q, excIf, Num.exact, FpClass.unsupported]
      rw [result, settled_exact, if_neg (by rw [q]; decide), nanDen nan]
      rfl
    · have result : nanResult x.val x.val = Num.invalid (quiet x.val) := by
        simp [nanResult, q, chooseNan_self nan, excIf, Num.invalid, FpClass.unsupported]
      rw [result, settled_invalid, if_pos q]
  · have nan' := Bool.eq_false_iff.2 nan
    obtain ⟨-, notS⟩ := (FpClass.isNan_eq_false_iff _).1 nan'
    rw [numeric1_compute (ordinary_self ⟨nan', supported⟩) rfl, settled_denormal, if_neg notS]

end

theorem ofPacked_some {v k : Nat} (h : bcdValue 18 v = some k) (u : Ext) : ofPacked v u = extEncode (v.testBit 79) k 0 := by
  unfold ofPacked
  rw [h]
  by_cases h0 : k = 0
  · simp [h0, extEncode_zero]
  · simp [h0]

theorem ofPacked_none {v : Nat} (h : bcdValue 18 v = none) (u : Ext) : ofPacked v u = u := by
  unfold ofPacked
  rw [h]

/-- Settles O36. -/
theorem fpuLoads : Obligations.FpuLoads := by
  refine ⟨?_, ?_, ?_⟩
  · intro m v s s1 he hn h7 g pushed gives
    have real {i : Instr} {n al : Nat} {k : RealFormat} (hk : k.Fits)
        (hi : exec i s = escLoad i m n al (fun v u g => loadReal k v (g.freeCodes u)) s)
        (hx : loadMem m 0 n al s.begin = .ok v s1) : gives i (loadedReal g (ofReal k v)) :=
      completes_of_escLoad hi he hn hx (pushNum_real hk h7)
    have exact {i : Instr} {n al : Nat} {w : Nat → BitVec 128 → Ext}
        (hi : exec i s = escLoad i m n al (fun v u g => (g.freeCodes u).pushNum (Num.exact (w v u))) s)
        (hx : loadMem m 0 n al s.begin = .ok v s1) : gives i (pushed (w v s1.draw)) :=
      completes_of_escLoad hi he hn hx (Fpu.pushNum_exact (g := g) h7 _)
    refine ⟨fun hx => ⟨loadMem_reads hx, ?_⟩, fun hx => ⟨loadMem_reads hx, ?_, ?_⟩, fun hx => ⟨loadMem_reads hx, ?_, ?_⟩,
      fun hx => ⟨loadMem_reads hx, ?_, fun k hk => ?_, fun hk => ?_⟩⟩
    · exact exact (w := fun v _ => ofInt (toSigned 16 v)) rfl hx
    · exact exact (w := fun v _ => ofInt (toSigned 32 v)) rfl hx
    · exact real (RealFormat.fits (.inl rfl)) rfl hx
    · exact exact (w := fun v _ => ofInt (toSigned 64 v)) rfl hx
    · exact real (RealFormat.fits (.inr rfl)) rfl hx
    · exact exact (w := fun v _ => BitVec.ofNat 80 v) rfl hx
    · have load := exact (i := .fbld m) (w := fun v u => ofPacked v (u.extractLsb' 24 80)) rfl hx
      rw [ofPacked_some hk] at load
      exact load
    · exact ⟨_, exact (i := .fbld m) (w := fun v u => ofPacked v (u.extractLsb' 24 80)) rfl hx⟩
  · intro m i n al v s s1 he hn h7 hi hx
    refine ⟨loadMem_reads hx, ?_⟩
    have full (w : Num) : (s.fpu.freeCodes s1.draw).pushNum w = _ :=
      Fpu.pushNum_full (g := s.fpu.freeCodes s1.draw) h7 w
    simp only [loadRows, List.mem_cons, List.not_mem_nil, or_false, Prod.mk.injEq] at hi
    rcases hi with ⟨rfl, rfl, rfl⟩ | ⟨rfl, rfl, rfl⟩ | ⟨rfl, rfl, rfl⟩ | ⟨rfl, rfl, rfl⟩ | ⟨rfl, rfl, rfl⟩ | ⟨rfl, rfl, rfl⟩ |
      ⟨rfl, rfl, rfl⟩ <;> exact completes_of_escLoad rfl he hn hx (full _)
  · intro s he hn g gives response
    constructor
    · intro i near down up hi
      have run (hi : exec i s = escRegister i (pushConstant near down up) s) :
          (s.fpu.isEmpty 7 = true →
            gives i ((g.setC1 false).push (match s.fpu.rc.toNat with | 0 => near | 2 => up | _ => down))) ∧
          (s.fpu.isEmpty 7 = false → gives i (response (g.faulted true))) :=
        ⟨fun h7 => completes_of_escRegister hi he hn (Fpu.pushNum_exact (g := g) h7 _),
          fun h7 => completes_of_escRegister hi he hn (Fpu.pushNum_full (g := g) h7 _)⟩
      simp only [constantLoads, List.mem_cons, List.not_mem_nil, or_false, Prod.mk.injEq] at hi
      rcases hi with ⟨rfl, rfl, rfl, rfl⟩ | ⟨rfl, rfl, rfl, rfl⟩ | ⟨rfl, rfl, rfl, rfl⟩ | ⟨rfl, rfl, rfl, rfl⟩ |
        ⟨rfl, rfl, rfl, rfl⟩ | ⟨rfl, rfl, rfl, rfl⟩ | ⟨rfl, rfl, rfl, rfl⟩ <;> exact run rfl
    · intro k
      refine ⟨fun hk h7 => ?_, fun hk h7 => ?_, fun hk => ?_⟩
      · refine completes_of_escRegister rfl he hn ?_
        exact (if_neg (Bool.eq_false_iff.1 hk)).trans (Fpu.pushNum_exact (g := g) h7 _)
      · refine completes_of_escRegister rfl he hn ?_
        exact (if_neg (Bool.eq_false_iff.1 hk)).trans (Fpu.pushNum_full (g := g) h7 _)
      · refine completes_of_escRegister rfl he hn ?_
        exact (if_pos hk).trans (Fpu.stackFault_eq ..)

end Sys2Proof.Machine
end

section
/-! ## Floating-point instructions: the stack and stores -/
set_option Elab.async false

namespace Sys2Proof.Machine

/-! ### Registers of the stack -/

section
variable {f : Fpu} {i j : RegNum} {a b : Ext} {m n : BitVec 3}

theorem FpuRegs.get_set (r : FpuRegs) (m n : BitVec 3) (v : Ext) : (r.set n v).get m = if m = n then v else r.get m := by
  rcases regNum_cases n with rfl | rfl | rfl | rfl | rfl | rfl | rfl | rfl <;>
    rcases regNum_cases m with rfl | rfl | rfl | rfl | rfl | rfl | rfl | rfl <;> rfl

theorem FpuRegs.set_set_same (r : FpuRegs) (n : BitVec 3) (v w : Ext) : (r.set n v).set n w = r.set n w := by
  rcases regNum_cases n with rfl | rfl | rfl | rfl | rfl | rfl | rfl | rfl <;> rfl

theorem FpuRegs.set_comm (r : FpuRegs) (h : m ≠ n) (v w : Ext) : (r.set m v).set n w = (r.set n w).set m v := by
  rcases regNum_cases n with rfl | rfl | rfl | rfl | rfl | rfl | rfl | rfl <;>
    rcases regNum_cases m with rfl | rfl | rfl | rfl | rfl | rfl | rfl | rfl <;> first | rfl | exact absurd rfl h

theorem setBit_false_same {k : Nat} (e : BitVec k) (i : Nat) : setBit (setBit e i false) i false = setBit e i false := by
  simp only [setBit, Bool.false_eq_true, if_false, BitVec.and_assoc, BitVec.and_self]

theorem setBit_false_comm {k : Nat} (e : BitVec k) (i j : Nat) :
    setBit (setBit e i false) j false = setBit (setBit e j false) i false := by
  simp only [setBit, Bool.false_eq_true, if_false, BitVec.and_assoc]
  rw [BitVec.and_comm (~~~_)]

theorem Fpu.phys_inj (f : Fpu) : f.phys i = f.phys j ↔ i = j := by
  unfold Fpu.phys
  exact BitVec.add_right_inj _

theorem Fpu.put_put_same (f : Fpu) (i : RegNum) (a b : Ext) : (f.put i a).put i b = f.put i b := by
  simp only [Fpu.put, Fpu.phys, FpuRegs.set_set_same, setBit_false_same]

theorem Fpu.put_comm (h : i ≠ j) (a b : Ext) : (f.put i a).put j b = (f.put j b).put i a := by
  have ne : f.phys i ≠ f.phys j := fun e => h (f.phys_inj.1 e)
  unfold Fpu.phys at ne
  simp only [Fpu.put, Fpu.phys, FpuRegs.set_comm _ ne, setBit_false_comm]

theorem Fpu.reg_put (f : Fpu) (i j : RegNum) (a : Ext) : (f.put i a).reg j = if j = i then a else f.reg j := by
  rw [Fpu.reg, Fpu.put]
  show (f.regs.set (f.phys i) a).get (f.phys j) = _
  rw [FpuRegs.get_set, if_congr f.phys_inj rfl rfl]
  rfl

theorem getLsbD_setBit_false {k : Nat} (e : BitVec k) (i j : Nat) :
    (setBit e i false).getLsbD j = (e.getLsbD j && !decide (i = j)) := by
  by_cases hj : j < k
  · by_cases h : i = j
    · subst h
      simp [setBit, hj]
    · have : ¬ (¬ j < i ∧ j - i = 0) := by omega
      simp only [setBit, Bool.false_eq_true, if_false, BitVec.getLsbD_and, BitVec.getLsbD_not, hj, BitVec.getLsbD_shiftLeft,
        BitVec.getLsbD_one, decide_true, Bool.true_and, h, decide_false, Bool.not_false, Bool.and_true]
      by_cases hlt : j < i
      · simp [hlt]
      · have : j - i ≠ 0 := by omega
        simp [this]
  · rw [BitVec.getLsbD_of_ge _ _ (not_lt.1 hj), BitVec.getLsbD_of_ge _ _ (not_lt.1 hj), Bool.false_and]

theorem Fpu.isEmpty_put (f : Fpu) (i j : RegNum) (a : Ext) : (f.put i a).isEmpty j = (f.isEmpty j && !decide (j = i)) := by
  show (setBit f.empty (f.phys i).toNat false).getLsbD (f.phys j).toNat = _
  rw [getLsbD_setBit_false]
  congr 2
  rw [decide_eq_decide, BitVec.toNat_inj, f.phys_inj]
  exact eq_comm

/-- What a register that may be empty counts as: the indefinite when it is (45_fpu_numerics R640). -/
def Fpu.filled (f : Fpu) (i : RegNum) : Ext := if f.isEmpty i then indefinite else f.reg i

theorem Fpu.fillEmpty_put (f : Fpu) (i : RegNum) (a : Ext) : (f.fillEmpty i).put i a = f.put i a := by
  unfold Fpu.fillEmpty
  split
  · exact f.put_put_same i _ a
  · rfl

theorem Fpu.fillEmpty_put_comm (h : i ≠ j) (a : Ext) : (f.fillEmpty i).put j a = (f.put j a).fillEmpty i := by
  have same : (f.put j a).isEmpty i = f.isEmpty i := by
    rw [Fpu.isEmpty_put, decide_eq_false h]
    exact Bool.and_true _
  unfold Fpu.fillEmpty
  rw [same]
  split
  · exact Fpu.put_comm h _ _
  · rfl

theorem Fpu.reg_fillEmpty (f : Fpu) (i j : RegNum) : (f.fillEmpty i).reg j = if j = i then f.filled j else f.reg j := by
  unfold Fpu.fillEmpty Fpu.filled
  by_cases h : j = i
  · subst h
    rw [if_pos rfl]
    split
    · rw [Fpu.reg_put, if_pos rfl]
    · rfl
  · rw [if_neg h]
    split
    · rw [Fpu.reg_put, if_neg h]
    · rfl

theorem Fpu.isEmpty_fillEmpty_of_ne (h : j ≠ i) : (f.fillEmpty i).isEmpty j = f.isEmpty j := by
  unfold Fpu.fillEmpty
  split
  · rw [Fpu.isEmpty_put, decide_eq_false h]
    exact Bool.and_true _
  · rfl

theorem Fpu.filled_fillEmpty (f : Fpu) (i j : RegNum) (h : j ≠ i) : (f.fillEmpty i).filled j = f.filled j := by
  rw [Fpu.filled, Fpu.isEmpty_fillEmpty_of_ne h, Fpu.reg_fillEmpty, if_neg h]
  rfl

/-- Exchanging after filling empty registers exchanges what they count as. -/
theorem Fpu.swap_filled (f : Fpu) (k : RegNum) :
    ((f.fillEmpty 0).fillEmpty k).swap k = (f.put 0 (f.filled k)).put k (f.filled 0) := by
  unfold Fpu.swap
  by_cases h : k = 0
  · subst h
    have full : (f.fillEmpty 0).isEmpty 0 = false := by
      unfold Fpu.fillEmpty
      split
      next => rw [Fpu.isEmpty_put]; simp
      next h => exact Bool.eq_false_iff.2 h
    have twice : (f.fillEmpty 0).fillEmpty 0 = f.fillEmpty 0 := by
      conv_lhs => rw [Fpu.fillEmpty, full]
      rfl
    rw [twice, Fpu.reg_fillEmpty, if_pos rfl, Fpu.fillEmpty_put]
  · have r0 : ((f.fillEmpty 0).fillEmpty k).reg 0 = f.filled 0 := by
      rw [Fpu.reg_fillEmpty, if_neg (Ne.symm h), Fpu.reg_fillEmpty, if_pos rfl]
    have rk : ((f.fillEmpty 0).fillEmpty k).reg k = f.filled k := by
      rw [Fpu.reg_fillEmpty, if_pos rfl, Fpu.filled_fillEmpty f 0 k h]
    rw [r0, rk, Fpu.fillEmpty_put_comm h, Fpu.fillEmpty_put, Fpu.fillEmpty_put]

end

/-! ### Instructions of the control group -/

section
variable {i : Instr} {b : Bool} {body : M Unit} {s s1 t : State}

theorem completes_of_escControl (hi : exec i s = escControl b body s) (he : s.EscReady) (hn : b = true → s.NoFpuError)
    (hb : body s.begin = .ok () t) (reads : s.begin.Reads s1) (hm : t.mem = s1.mem) : Completes i s (t.complete false) [] :=
  completes_of_reads hi he.ready (M.bind_of_ok (escCheck_ok he.begin hn) hb) reads hm

theorem completes_of_escControl_wrote {ps : List BytePlace} (hi : exec i s = escControl b body s) (he : s.EscReady)
    (hn : b = true → s.NoFpuError) (hb : body s.begin = .ok () t) (keeps : s.begin.KeepsBut t ps) :
    Completes i s (t.complete false) ps :=
  completes_of_ok hi he.ready (M.bind_of_ok (escCheck_ok he.begin hn) hb) rfl (keeps.keepsMemory rfl)

end

/-- FXAM's codes by the class. -/
theorem Fpu.examine_eq (f : Fpu) : f.examine = (f.setC1 ((f.reg 0).getLsbD 79)).setCodes
    (f.isEmpty 0 || decide (extClass (f.reg 0) = .zero) || (extClass (f.reg 0)).isDenormal)
    (!f.isEmpty 0 && (decide (extClass (f.reg 0) = .normal) || decide (extClass (f.reg 0) = .infinity) ||
      (extClass (f.reg 0)).isDenormal))
    (f.isEmpty 0 || (extClass (f.reg 0)).isNan || decide (extClass (f.reg 0) = .infinity)) := by
  have same : (f.setC1 (extNeg (f.reg 0))).isEmpty 0 = f.isEmpty 0 := rfl
  unfold Fpu.examine
  simp only [same]
  cases f.isEmpty 0 with
  | true => rfl
  | false => cases extClass (f.reg 0) <;> rfl

/-- Settles O38. -/
theorem fpuStackOperations : Obligations.FpuStackOperations := by
  intro k s he hn f x g gives alone
  refine ⟨fun h0 hk => ?_, fun h0 => ⟨?_, ?_⟩, ?_, fun h0 i hi => ?_, ?_, ?_, ?_, ?_, ?_⟩
  · exact completes_of_escRegister rfl he hn (if_neg (by rw [show (s.fpu.freeCodes s.draw).isEmpty 0 = false from h0,
      show (s.fpu.freeCodes s.draw).isEmpty k = false from hk]; exact Bool.noConfusion))
  · exact completes_of_escRegister rfl he hn (if_neg (Bool.eq_false_iff.1 h0))
  · exact completes_of_escRegister rfl he hn (if_neg (Bool.eq_false_iff.1 h0))
  · intro h v
    have empty : (f.isEmpty 0 || f.isEmpty k) = true := Bool.or_eq_true_iff.2 h
    refine completes_of_escRegister rfl he hn ((if_pos empty).trans ((Fpu.stackFault_eq g false _).trans ?_))
    rw [Fpu.stackFaulted, Fpu.stackFaulted, Fpu.swap_filled]
    rfl
  · simp only [List.mem_cons, List.not_mem_nil, or_false] at hi
    rcases hi with rfl | rfl <;> exact completes_of_escRegister rfl he hn ((if_pos h0).trans (Fpu.stackFault_eq ..))
  · exact completes_of_escRegister rfl he hn (Fpu.examine_eq s.fpu)
  · exact completes_of_escControl rfl he (fun _ => hn) (M.bind_of_ok (fresh_run _) rfl) (.refl _) rfl
  · exact completes_of_escControl rfl he (fun _ => hn) (M.bind_of_ok (fresh_run _) rfl) (.refl _) rfl
  · exact completes_of_escControl rfl he (fun _ => hn) (modFpu_run ..) (.refl _) rfl
  · exact completes_of_escControl rfl he (fun _ => hn) (M.bind_of_ok (M.get_run _)
      (M.bind_of_ok (notePointers_run .fnop none 0 (s := s) rfl rfl rfl rfl) (modFpu_run ..))) (.refl _) rfl

end Sys2Proof.Machine
end

section
/-! ## Floating-point instructions: stores -/
set_option Elab.async false

namespace Sys2Proof.Machine

section
variable {i : Instr} {m : Mem} {n al v : Nat} {s s1 : State} {ps : List BytePlace} {f : Fpu}
  {g : BitVec 128 → Fpu → Fpu × Option Nat}

/-- A store that stores. -/
theorem completes_of_escStore_some (hi : exec i s = escStore i m n al g s) (he : s.EscReady) (hn : s.NoFpuError)
    (hl : locateMem m n al true s.begin.drawn = .ok ps s1) (hg : g s.draw s.fpu = (f, some v)) :
    Completes i s (((s1.wrote ps v).withFpu (noted i (some m) s.draw s f)).complete false) ps := by
  have reads : s.begin.drawn.Reads s1 := locateMem_reads hl
  have touch : s1.Touches (s1.wrote ps v) := wrote_touches s1 ps v
  have note := notePointers_run i (some m) s.draw (s := s) (t := (s1.wrote ps v).withFpu f)
    (by rw [touch]; exact reads.eip) (by rw [touch]; exact reads.dec) (by rw [touch]; exact reads.segs)
    (by rw [touch]; exact reads.regs)
  have keeps : s.begin.KeepsBut (s1.wrote ps v) ps :=
    (State.KeepsBut.of_reads ((reads_freeCtr s.begin _).trans reads)).trans (.wrote s1 ps v)
  refine completes_of_ok hi he.ready (M.bind_of_ok (escCheck_ok he.begin fun _ => hn) (M.bind_of_ok (fresh_run _)
    (M.bind_of_ok (M.get_run _) ?_))) rfl (keeps.keepsMemory rfl)
  have hg' : g s.begin.draw s.begin.drawn.fpu = (f, some v) := hg
  rw [hg']
  exact M.bind_of_ok (storeMem_run hl) (M.bind_of_ok (modFpu_run ..) note)

/-- A store that an unmasked exception keeps from storing. -/
theorem completes_of_escStore_none (hi : exec i s = escStore i m n al g s) (he : s.EscReady) (hn : s.NoFpuError)
    (hl : locateMem m n al true s.begin.drawn = .ok ps s1) (hg : g s.draw s.fpu = (f, none)) :
    Completes i s ((s1.withFpu (noted i (some m) s.draw s f)).complete false) [] := by
  have reads : s.begin.drawn.Reads s1 := locateMem_reads hl
  have note := notePointers_run i (some m) s.draw (s := s) (t := s1.withFpu f) reads.eip reads.dec reads.segs reads.regs
  refine completes_of_reads hi he.ready (M.bind_of_ok (escCheck_ok he.begin fun _ => hn) (M.bind_of_ok (fresh_run _)
    (M.bind_of_ok (M.get_run _) ?_))) ((reads_freeCtr s.begin _).trans reads) rfl
  have hg' : g s.begin.draw s.begin.drawn.fpu = (f, none) := hg
  rw [hg']
  exact M.bind_of_ok hl (M.bind_of_ok (modFpu_run ..) note)

end

/-! ### What a store of ST(0) leaves -/

section
variable {g : Fpu} {n : Stored} {post : Fpu → Fpu} {indef : Nat} {conv : Fpu → Ext → Stored}

theorem exc_and_31 (e m : Exns) : e &&& 31 &&& ~~~m = 0 ↔ e &&& 7 &&& ~~~m = 0 ∧ e &&& 24 &&& ~~~m = 0 := by
  rw [show (31 : Exns) = 7 ||| 24 from rfl, BitVec.and_or_distrib_left, BitVec.and_or_distrib_right]
  exact BitVec.or_eq_zero_iff

theorem Fpu.commitStore_ok (h : n.exc &&& 31 &&& ~~~g.masks = 0) :
    g.commitStore n post = (post ((g.raise n.exc).setC1 n.up), some n.bits) := by
  obtain ⟨low, high⟩ := (exc_and_31 _ _).1 h
  unfold Fpu.commitStore Fpu.unmasked
  rw [if_neg (by rw [low]; decide), if_neg (by rw [high]; decide)]

theorem Fpu.commitStore_stops (h : n.exc &&& 31 &&& ~~~g.masks ≠ 0) :
    ∃ (e : Exns) (up : Bool), e &&& ~~~n.exc = 0 ∧ e &&& ~~~g.masks ≠ 0 ∧ g.commitStore n post = ((g.raise e).setC1 up, none) := by
  unfold Fpu.commitStore Fpu.unmasked
  by_cases low : n.exc &&& 7 &&& ~~~g.masks = 0
  · have high : n.exc &&& 24 &&& ~~~g.masks ≠ 0 := fun high => h ((exc_and_31 _ _).2 ⟨low, high⟩)
    refine ⟨n.exc, n.up, BitVec.and_not_self _, fun all => high ?_, ?_⟩
    · rw [BitVec.and_assoc, BitVec.and_comm 24, ← BitVec.and_assoc, all]
      exact BitVec.zero_and
    · rw [if_neg (by rw [low]; decide), if_pos (bne_iff_ne.2 high)]
  · refine ⟨n.exc &&& 7, false, ?_, low, if_pos (bne_iff_ne.2 low)⟩
    rw [BitVec.and_assoc, BitVec.and_comm 7, ← BitVec.and_assoc, BitVec.and_not_self]
    exact BitVec.zero_and

theorem Fpu.storeTop_full (h : g.isEmpty 0 = false) : g.storeTop indef conv post = g.commitStore (conv g (g.reg 0)) post :=
  if_neg (Bool.eq_false_iff.1 h)

theorem Fpu.storeTop_empty (h : g.isEmpty 0 = true) :
    g.storeTop indef conv post = (g.stackFaulted false post, if g.masks.getLsbD 0 then some indef else none) := by
  rw [Fpu.storeTop, if_pos h, Fpu.stackFault_eq, Fpu.unmasked]
  simp only [unmasked_excI]
  cases g.masks.getLsbD 0 <;> rfl

end

theorem exec_storeRow {m : Mem} {s : State} {x : Ext} {row : StoreRow} (h : row ∈ storeRows m s.fpu x) :
    ∃ conv : Fpu → Ext → Stored, exec row.instr s = escStore row.instr m row.bytes row.align
      (fun u g => (g.freeCodes u).storeTop row.indef conv (popIf row.pops)) s ∧
      ∀ u : BitVec 128, conv (s.fpu.freeCodes u) x = row.out := by
  simp only [storeRows, List.mem_cons, List.not_mem_nil, or_false] at h
  rcases h with rfl | rfl | rfl | rfl | rfl | rfl | rfl | rfl | rfl | rfl | rfl
  · exact ⟨toReal single, rfl, fun _ => rfl⟩
  · exact ⟨toReal double, rfl, fun _ => rfl⟩
  · exact ⟨toReal single, rfl, fun _ => rfl⟩
  · exact ⟨toReal double, rfl, fun _ => rfl⟩
  · exact ⟨fun _ x => ⟨x.toNat, 0, false⟩, rfl, fun _ => rfl⟩
  · exact ⟨toInteger 16, rfl, fun _ => rfl⟩
  · exact ⟨toInteger 32, rfl, fun _ => rfl⟩
  · exact ⟨toInteger 16, rfl, fun _ => rfl⟩
  · exact ⟨toInteger 32, rfl, fun _ => rfl⟩
  · exact ⟨toInteger 64, rfl, fun _ => rfl⟩
  · exact ⟨toPacked, rfl, fun _ => rfl⟩

/-- Settles O37, row by row of the stores, by whether ST(0) is empty and whether an exception is unmasked. -/
theorem fpuStores : Obligations.FpuStores := by
  constructor
  · intro s he hn h0 x g
    constructor
    · intro m row ps s1 hrow hl c done
      obtain ⟨conv, exec, out⟩ := exec_storeRow hrow
      have reads : s.begin.Reads s1 := (reads_freeCtr s.begin _).trans (locateMem_reads hl)
      have top : g.storeTop row.indef conv (popIf row.pops) = g.commitStore row.out (popIf row.pops) :=
        (Fpu.storeTop_full (g := g) h0).trans (congrArg (g.commitStore · _) (out s.draw))
      refine ⟨reads, fun h => ?_, fun h => ?_⟩
      · exact completes_of_escStore_some exec he hn hl (top.trans (Fpu.commitStore_ok (g := g) h))
      · obtain ⟨e, up, met, unmasked, eq⟩ := Fpu.commitStore_stops (g := g) (post := popIf row.pops) h
        exact ⟨e, up, met, unmasked, completes_of_escStore_none exec he hn hl (top.trans eq)⟩
    · intro k moved
      exact ⟨completes_of_escRegister rfl he hn (if_neg (Bool.eq_false_iff.1 h0)),
        completes_of_escRegister rfl he hn (if_neg (Bool.eq_false_iff.1 h0))⟩
  · intro s he hn h0 masked g
    constructor
    · intro m row ps s1 hrow hl done
      obtain ⟨conv, exec, -⟩ := exec_storeRow hrow
      have reads : s.begin.Reads s1 := (reads_freeCtr s.begin _).trans (locateMem_reads hl)
      have top := Fpu.storeTop_empty (g := s.fpu.freeCodes s.draw) (indef := row.indef) (conv := conv) (post := popIf row.pops) h0
      refine ⟨reads, fun h => ?_, fun h => ?_⟩
      · have masks : (s.fpu.freeCodes s.draw).masks.getLsbD 0 = true := h
        rw [Fpu.stackFaulted, if_pos masks, if_pos masks] at top
        exact completes_of_escStore_some exec he hn hl top
      · have masks : ¬ (s.fpu.freeCodes s.draw).masks.getLsbD 0 = true := Bool.eq_false_iff.1 h
        rw [Fpu.stackFaulted, if_neg masks, if_neg masks] at top
        exact completes_of_escStore_none exec he hn hl top
    · intro k pops i
      cases pops with
      | false => exact completes_of_escRegister rfl he hn ((if_pos h0).trans (Fpu.stackFault_eq ..))
      | true => exact completes_of_escRegister rfl he hn ((if_pos h0).trans (Fpu.stackFault_eq ..))

end Sys2Proof.Machine
end

section
/-! ## Floating-point instructions: the basic operations -/
set_option Elab.async false

namespace Sys2Proof.Machine

theorem Fpu.precision_rounds (f : Fpu) (u : Nat) : f.rounds (f.precision u) := by
  unfold Fpu.rounds Fpu.precision
  generalize f.pc = pc
  have cases : pc = 0 ∨ pc = 1 ∨ pc = 2 ∨ pc = 3 := by
    revert pc
    decide
  rcases cases with rfl | rfl | rfl | rfl
  case inr.inl =>
    refine ⟨fun h => absurd h (by decide), fun h => absurd h (by decide), fun h => absurd h (by decide), ?_⟩
    show (if u % 3 = 0 then 24 else if u % 3 = 1 then 53 else 64) = 24 ∨ _ = 53 ∨ _ = 64
    split_ifs <;> simp
  all_goals simp

/-! ### The forms -/

section
variable {g : Fpu} {op : Operand → Operand → Num} {b : Operand} {i j : RegNum} {pops : Bool}

theorem Fpu.withMemory_full (h : g.isEmpty 0 = false) :
    g.withMemory b op = settled g (op (regOperand (g.reg 0)) b) (fun v g => g.put 0 v) := by
  rw [Fpu.withMemory, if_neg (Bool.eq_false_iff.1 h), Fpu.commit_eq]

theorem Fpu.withMemory_empty (h : g.isEmpty 0 = true) :
    g.withMemory b op = g.stackFaulted false (fun g => g.put 0 indefinite) := by
  rw [Fpu.withMemory, if_pos h, Fpu.stackFault_eq]

theorem Fpu.binary_full {post : Fpu → Fpu} (hi : g.isEmpty i = false) (hj : g.isEmpty j = false) :
    g.binary i j post op = settled g (op (regOperand (g.reg i)) (regOperand (g.reg j))) (fun v g => post (g.put i v)) := by
  rw [Fpu.binary, hi, hj, Bool.or_self, if_neg Bool.false_ne_true, Fpu.commit_eq]

theorem Fpu.binary_empty {post : Fpu → Fpu} (h : g.isEmpty i = true ∨ g.isEmpty j = true) :
    g.binary i j post op = g.stackFaulted false (fun g => post (g.put i indefinite)) := by
  rw [Fpu.binary, if_pos (Bool.or_eq_true_iff.2 h), Fpu.stackFault_eq]

end

/-- What the model runs for the instructions of a basic operation. -/
def BasicRow.Runs (row : BasicRow) : Prop :=
  ∀ s : State, (∀ f, exec (row.real f) s = basicReal row.op (row.real f) f s) ∧
    (∀ f, exec (row.int f) s = basicInteger row.op (row.int f) f s) ∧ (∀ j, exec (row.pop j) s = basicPop row.op (row.pop j) j s)

theorem basicRows_runs {row : BasicRow} (h : row ∈ basicRows) : row.Runs := by
  simp only [basicRows, List.mem_cons, List.not_mem_nil, or_false] at h
  rcases h with rfl | rfl | rfl | rfl | rfl | rfl <;> exact fun s => ⟨fun _ => rfl, fun _ => rfl, fun _ => rfl⟩

section
variable {row : BasicRow} {s : State}

/-- A basic operation with memory. -/
theorem basic_memory (hrow : row ∈ basicRows) {i : Instr} {m : Mem} {n v : Nat} {b : Operand}
    (hi : (i, n, b) ∈ [(row.real (.m32 m), 4, ofReal single v), (row.real (.m64 m), 8, ofReal double v),
      (row.int (.m16 m), 2, ofInteger 16 v), (row.int (.m32 m), 4, ofInteger 32 v)]) :
    ∃ conv : Nat → Operand, conv v = b ∧ exec i s = escLoad i m n n
      (fun v u g => (g.freeCodes u).withMemory (conv v) (row.op g (g.precision (freeChoice u)))) s := by
  obtain ⟨real, int, -⟩ := basicRows_runs hrow s
  simp only [List.mem_cons, List.not_mem_nil, or_false, Prod.mk.injEq] at hi
  rcases hi with ⟨rfl, rfl, rfl⟩ | ⟨rfl, rfl, rfl⟩ | ⟨rfl, rfl, rfl⟩ | ⟨rfl, rfl, rfl⟩
  · exact ⟨_, rfl, real _⟩
  · exact ⟨_, rfl, real _⟩
  · exact ⟨_, rfl, int _⟩
  · exact ⟨_, rfl, int _⟩

/-- A basic operation of registers. -/
theorem basic_register (hrow : row ∈ basicRows) {i : Instr} {k a b : RegNum} {pops : Bool}
    (hi : (i, a, b, pops) ∈ [(row.real (.stSti k), 0, k, false), (row.real (.stiSt k), k, 0, false), (row.pop k, k, 0, true)]) :
    exec i s = escRegister i (fun u g => (g.freeCodes u).binary a b (popIf pops) (row.op g (g.precision (freeChoice u)))) s := by
  obtain ⟨real, -, pop⟩ := basicRows_runs hrow s
  simp only [List.mem_cons, List.not_mem_nil, or_false, Prod.mk.injEq] at hi
  rcases hi with ⟨rfl, rfl, rfl, rfl⟩ | ⟨rfl, rfl, rfl, rfl⟩ | ⟨rfl, rfl, rfl, rfl⟩
  · exact real _
  · exact real _
  · exact pop _

end

/-! ### What each operation gives -/

section
variable {f : Fpu} {p : Nat} {x y : Operand}

theorem basicOp_other (h : ordinary x.val y.val = false) :
    ∀ op ∈ [opAdd, opSub, opMul, opDiv], op f p x y = nanResult x.val y.val := by
  simp only [List.mem_cons, List.not_mem_nil, or_false]
  rintro op (rfl | rfl | rfl | rfl) <;> exact numeric2_other h

theorem basicOp_finite (hx : finiteExt x.val = true) (hy : finiteExt y.val = true) :
    opAdd f p x y = (addCompute f p false x.val y.val).withDenormal (x.den || y.den) ∧
    opSub f p x y = (addCompute f p true x.val y.val).withDenormal (x.den || y.den) ∧
    opMul f p x y = (mulCompute f p x.val y.val).withDenormal (x.den || y.den) := by
  have ord := ordinary_of_finite hx hy
  have add (sub : Bool) : addSpecial sub x.val y.val = none := by simp [addSpecial, isInf_of_finite hx]
  have mul : mulSpecial x.val y.val = none := by simp [mulSpecial, isInf_of_finite hx, isInf_of_finite hy]
  exact ⟨numeric2_compute ord (add false), numeric2_compute ord (add true), numeric2_compute ord mul⟩

theorem opDiv_finite (hx : finiteExt x.val = true) (hy : finiteExt y.val = true) (h : extClass y.val ≠ .zero) :
    opDiv f p x y = (divCompute f p x.val y.val).withDenormal (x.den || y.den) := by
  have zero : isZero y.val = false := decide_eq_false h
  exact numeric2_compute (ordinary_of_finite hx hy) (by simp [divSpecial, isInf_of_finite hx, zero])

theorem opDiv_by_zero (hx : finiteExt x.val = true) (hy : extClass y.val = .zero) :
    opDiv f p x y = if extClass x.val = .zero then ⟨indefinite, excI, false⟩ else ⟨extInf (extNeg x.val ^^ extNeg y.val), excZ, false⟩ := by
  have zero : isZero y.val = true := decide_eq_true hy
  have ord : ordinary x.val y.val = true := ordinary_iff_plain.2 ⟨plain_of_finite hx, plain_of_zero hy⟩
  refine numeric2_special ord ?_
  by_cases hz : extClass x.val = .zero
  · rw [if_pos hz, divSpecial, isZero_iff.2 hz, zero]
    simp [Num.invalid]
  · rw [if_neg hz, divSpecial, show isZero x.val = false from decide_eq_false hz, zero, isInf_of_finite hx]
    simp

theorem add_infinite (ord : ordinary x.val y.val = true) (inf : extClass x.val = .infinity ∨ extClass y.val = .infinity)
    (sub : Bool) : numeric2 (addSpecial sub) (addCompute f p sub) x y =
      if extClass x.val = .infinity ∧ extClass y.val = .infinity ∧ extNeg x.val ≠ (extNeg y.val ^^ sub) then ⟨indefinite, excI, false⟩
      else (⟨if extClass x.val = .infinity then x.val else extInf (extNeg y.val ^^ sub), 0, false⟩ : Num).withDenormal (x.den || y.den) := by
  by_cases h : extClass x.val = .infinity ∧ extClass y.val = .infinity ∧ extNeg x.val ≠ (extNeg y.val ^^ sub)
  · obtain ⟨hx, hy, hne⟩ := h
    rw [if_pos ⟨hx, hy, hne⟩]
    exact numeric2_special ord (by simp [addSpecial, isInf, hx, hy, hne, Num.invalid])
  · rw [if_neg h, numeric2_compute ord]
    · refine congrArg (Num.withDenormal · _) ?_
      by_cases hx : extClass x.val = .infinity
      · rw [if_pos hx, addCompute, if_pos (isInf_iff.2 hx)]
        rfl
      · rw [if_neg hx, addCompute, if_neg (fun h => hx (isInf_iff.1 h)), if_pos (isInf_iff.2 (inf.resolve_left hx))]
        rfl
    · refine if_neg fun hc => h ?_
      simpa [isInf, and_assoc] using hc

theorem mul_infinite (ord : ordinary x.val y.val = true) (inf : extClass x.val = .infinity ∨ extClass y.val = .infinity) :
    opMul f p x y = if extClass x.val = .zero ∨ extClass y.val = .zero then ⟨indefinite, excI, false⟩
      else (⟨extInf (extNeg x.val ^^ extNeg y.val), 0, false⟩ : Num).withDenormal (x.den || y.den) := by
  by_cases h : extClass x.val = .zero ∨ extClass y.val = .zero
  · rw [if_pos h]
    refine numeric2_special ord (if_pos ?_)
    rcases h with h | h <;> rcases inf with k | k <;> simp [isInf, isZero, h, k] <;> simp_all
  · obtain ⟨hx, hy⟩ := not_or.1 h
    have special : mulSpecial x.val y.val = none := by simp [mulSpecial, isZero, hx, hy]
    have infinite : (isInf x.val || isInf y.val) = true := by simpa [isInf] using inf
    rw [if_neg h, opMul, numeric2_compute ord special, mulCompute, if_pos infinite]
    rfl

theorem div_infinite (ord : ordinary x.val y.val = true) (inf : extClass x.val = .infinity ∨ extClass y.val = .infinity) :
    opDiv f p x y = if extClass x.val = .infinity ∧ extClass y.val = .infinity then ⟨indefinite, excI, false⟩
      else (⟨if extClass x.val = .infinity then extInf (extNeg x.val ^^ extNeg y.val) else extZero (extNeg x.val ^^ extNeg y.val),
        0, false⟩ : Num).withDenormal (x.den || y.den) := by
  by_cases hx : extClass x.val = .infinity <;> by_cases hy : extClass y.val = .infinity
  · rw [if_pos ⟨hx, hy⟩]
    exact numeric2_special ord (by simp [divSpecial, isInf, hx, hy, Num.invalid])
  · rw [if_neg fun h => hy h.2, if_pos hx, opDiv, numeric2_compute ord (by simp [divSpecial, isInf, isZero, hx, hy]), divCompute,
      if_pos (by simp [isInf, hx])]
    rfl
  · rw [if_neg fun h => hx h.1, if_neg hx, opDiv, numeric2_compute ord (by simp [divSpecial, isInf, isZero, hx, hy]), divCompute,
      if_neg (by simp [isInf, isZero, hx, hy]), if_pos (by simp [isInf, hy])]
    rfl
  · exact absurd inf (not_or.2 ⟨hx, hy⟩)

end

/-- Settles O39: every form runs `binary` or `withMemory` with its operation, and the operations by the classes of their operands. -/
theorem fpuBasicArithmetic : Obligations.FpuBasicArithmetic := by
  constructor
  · intro row s hrow he hn g top absent
    constructor
    · intro i m n v b s1 hi hx
      obtain ⟨conv, rfl, exec⟩ := basic_memory (s := s) hrow hi
      refine ⟨loadMem_reads hx, fun h0 => ⟨_, s.fpu.precision_rounds (freeChoice s1.draw), ?_⟩, fun h0 => ?_⟩
      · exact completes_of_escLoad exec he hn hx (Fpu.withMemory_full (g := g s1.draw) h0)
      · exact completes_of_escLoad exec he hn hx (Fpu.withMemory_empty (g := g s1.draw) h0)
    · intro k i a b pops hi
      have exec := basic_register (s := s) hrow hi
      refine ⟨fun ha hb => ⟨_, s.fpu.precision_rounds (freeChoice s.draw), ?_⟩, fun hab => ?_⟩
      · exact completes_of_escRegister exec he hn (Fpu.binary_full (g := g s.draw) ha hb)
      · refine completes_of_escRegister exec he hn ((Fpu.binary_empty (g := g s.draw) hab).trans ?_)
        by_cases hm : s.fpu.masks.getLsbD 0 = true
        · have masks : (g s.draw).masks.getLsbD 0 = true := hm
          simp only [Fpu.stackFaulted, absent, if_pos masks, if_pos hm]
        · have masks : ¬ (g s.draw).masks.getLsbD 0 = true := hm
          simp only [Fpu.stackFaulted, absent, if_neg masks, if_neg hm]
  · intro f p x y a b sign met invalid
    refine ⟨rfl, rfl, basicOp_other, fun ha hb => ?_, fun ord inf => ⟨fun sub => ?_, ?_, ?_⟩⟩
    · obtain ⟨add, sub, mul⟩ := basicOp_finite (f := f) (p := p) ha hb
      exact ⟨add, sub, mul, opDiv_finite ha hb, opDiv_by_zero ha⟩
    · refine Eq.trans ?_ (add_infinite (f := f) (p := p) ord inf sub)
      cases sub <;> rfl
    · exact mul_infinite ord inf
    · exact div_infinite ord inf

end Sys2Proof.Machine
end

section
/-! ## Floating-point instructions: comparisons -/
set_option Elab.async false

namespace Sys2Proof.Machine

/-! ### What a comparison leaves -/

section
variable {g : Fpu} {a b : Operand} {quietOk : Bool} {n : Nat} {u : BitVec 128} {j : RegNum}

theorem compareInvalid_iff (quietOk : Bool) (a b : Ext) : compareInvalid quietOk a b = true ↔ ∃ c ∈ [extClass a, extClass b],
    c.unsupported = true ∨ c = .snan ∨ (quietOk = false ∧ c = .qnan) := by
  simp only [compareInvalid, Bool.or_eq_true, Bool.and_eq_true, Bool.not_eq_true', decide_eq_true_eq, List.mem_cons,
    List.not_mem_nil, or_false, exists_eq_or_imp, exists_eq_left]
  tauto

/-- Of operands whose comparison is not invalid those that are not ordinary are NaNs. -/
theorem isNan_of_compareValid {a b : Ext} (h : compareInvalid quietOk a b = false) :
    ((extClass a).isNan || (extClass b).isNan) = !ordinary a b := by
  unfold compareInvalid at h
  simp only [Bool.or_eq_false_iff] at h
  obtain ⟨⟨⟨⟨ua, ub⟩, -⟩, -⟩, -⟩ := h
  rw [ordinary, ua, ub]
  simp [Bool.not_and]

theorem Fpu.denormalStops_iff (g : Fpu) (a b : Operand) :
    (g.unmasked (excIf (a.den || b.den) excD) != 0) = g.denormalStops a b := by
  unfold Fpu.denormalStops Fpu.unmasked
  cases a.den || b.den with
  | false => simp [excIf]
  | true => exact unmasked_excD _

theorem Fpu.compareWith_eq (g : Fpu) (quietOk : Bool) (b : Operand) (n : Nat) (u : BitVec 128) :
    g.compareWith quietOk b (·.pops n) u = compared g quietOk (regOperand (g.reg 0)) b n u := by
  unfold Fpu.compareWith compared
  dsimp only
  generalize regOperand (g.reg 0) = a
  cases hv : compareInvalid quietOk a.val b.val with
  | true =>
    simp only [if_true, Fpu.unmasked, unmasked_excI]
    show (if (!g.masks.getLsbD 0) = true then _ else _) = if g.masks.getLsbD 0 = true then _ else _
    cases g.masks.getLsbD 0 <;> rfl
  | false =>
    simp only [Bool.false_eq_true, if_false, isNan_of_compareValid hv, Fpu.denormalStops_iff]
    cases ho : ordinary a.val b.val with
    | false => rfl
    | true =>
      cases hd : (g.setC1 false).denormalStops a b with
      | false => rfl
      | true =>
        have den : (a.den || b.den) = true := ((Bool.and_eq_true _ _).mp hd).1
        simp only [den]
        rfl

theorem Fpu.compareEmpty_eq (g : Fpu) (n : Nat) : g.compareEmpty (·.pops n) =
    if g.masks.getLsbD 0 then ((g.setCodes true true true).faulted false).pops n else (g.setCodes true true true).faulted false :=
  Fpu.stackFault_eq ..

theorem Fpu.compareReg_full (h0 : g.isEmpty 0 = false) (hj : g.isEmpty j = false) : g.compareReg quietOk j (·.pops n) u =
    compared g quietOk (regOperand (g.reg 0)) (regOperand (g.reg j)) n u := by
  rw [Fpu.compareReg, h0, hj, Bool.or_self, if_neg Bool.false_ne_true, Fpu.compareWith_eq]

theorem Fpu.compareReg_empty (h : g.isEmpty 0 = true ∨ g.isEmpty j = true) : g.compareReg quietOk j (·.pops n) u =
    if g.masks.getLsbD 0 then ((g.setCodes true true true).faulted false).pops n else (g.setCodes true true true).faulted false := by
  rw [Fpu.compareReg, if_pos (Bool.or_eq_true_iff.2 h), Fpu.compareEmpty_eq]

theorem Fpu.compareMem_full (h0 : g.isEmpty 0 = false) : g.compareMem b (·.pops n) u =
    compared g false (regOperand (g.reg 0)) b n u := by
  rw [Fpu.compareMem, if_neg (Bool.eq_false_iff.1 h0), Fpu.compareWith_eq]

theorem Fpu.compareMem_empty (h : g.isEmpty 0 = true) : g.compareMem b (·.pops n) u =
    if g.masks.getLsbD 0 then ((g.setCodes true true true).faulted false).pops n else (g.setCodes true true true).faulted false := by
  rw [Fpu.compareMem, if_pos h, Fpu.compareEmpty_eq]

theorem exec_compareRow {k : RegNum} {i : Instr} (h : (i, j, quietOk, n) ∈ compareRows k) (s : State) :
    exec i s = escRegister i (fun u g => g.compareReg quietOk j (·.pops n) u) s := by
  simp only [compareRows, List.mem_cons, List.not_mem_nil, or_false, Prod.mk.injEq] at h
  rcases h with ⟨rfl, rfl, rfl, rfl⟩ | ⟨rfl, rfl, rfl, rfl⟩ | ⟨rfl, rfl, rfl, rfl⟩ | ⟨rfl, rfl, rfl, rfl⟩ | ⟨rfl, rfl, rfl, rfl⟩ |
    ⟨rfl, rfl, rfl, rfl⟩ <;> rfl

theorem exec_compareMemRow {m : Mem} {v w : Nat} {i : Instr} (h : (i, w, b, n) ∈ compareMemRows m v) (s : State) :
    ∃ conv : Nat → Operand, conv v = b ∧ exec i s = escLoad i m w w (fun v u g => g.compareMem (conv v) (·.pops n) u) s := by
  simp only [compareMemRows, List.mem_cons, List.not_mem_nil, or_false, Prod.mk.injEq] at h
  rcases h with ⟨rfl, rfl, rfl, rfl⟩ | ⟨rfl, rfl, rfl, rfl⟩ | ⟨rfl, rfl, rfl, rfl⟩ | ⟨rfl, rfl, rfl, rfl⟩ | ⟨rfl, rfl, rfl, rfl⟩ |
    ⟨rfl, rfl, rfl, rfl⟩ | ⟨rfl, rfl, rfl, rfl⟩ | ⟨rfl, rfl, rfl, rfl⟩ <;> exact ⟨_, rfl, rfl⟩

end

/-! ### The relation -/

section
variable {a b : Ext}

theorem extFinite_exp_ge (a : Ext) : -16445 ≤ (extFinite a).exp := by
  simp only [extFinite]
  omega

/-- The key of a finite number is its value in the smallest unit. -/
theorem orderKey_finite (h : finiteExt a = true) : (orderKey a : ℚ) * (2 : ℚ) ^ (-16445 : Int) = extValue a := by
  have scaled : orderKey a = (extFinite a).scaled (-16445) := by
    simp only [orderKey, isInf_of_finite h, Bool.false_eq_true, if_false, Finite.scaled, sub_neg_eq_add]
  rw [scaled, Finite.scaled_value (extFinite_exp_ge a), extValue]

/-- The key of an infinity, without its sign. -/
def infinityKey : Int := 2 ^ 33000

theorem infinityKey_pos : 0 < infinityKey := Int.pow_pos (by decide)

theorem orderKey_infinity (h : extClass a = .infinity) : orderKey a = if extNeg a then -infinityKey else infinityKey := by
  simp only [orderKey, isInf_iff.2 h, if_true, signedOf, infinityKey]
  norm_cast

theorem abs_orderKey_lt (h : finiteExt a = true) : |orderKey a| < infinityKey := by
  have e : (((extFinite a).exp + 16445).toNat : Int) ≤ 32767 := by
    have := extExp_lt a
    simp only [extFinite]
    omega
  have key : |orderKey a| = (extSig a : Int) * 2 ^ ((extFinite a).exp + 16445).toNat := by
    simp only [orderKey, isInf_of_finite h, Bool.false_eq_true, if_false, signedOf]
    split_ifs
    · rw [abs_neg]
      exact abs_of_nonneg (Int.natCast_nonneg _)
    · exact abs_of_nonneg (Int.natCast_nonneg _)
  rw [key]
  calc (extSig a : Int) * 2 ^ ((extFinite a).exp + 16445).toNat
      < 2 ^ 64 * 2 ^ ((extFinite a).exp + 16445).toNat :=
        mul_lt_mul_of_pos_right (by exact_mod_cast extSig_lt a) (Int.pow_pos (by decide))
    _ = 2 ^ (64 + ((extFinite a).exp + 16445).toNat) := (pow_add ..).symm
    _ ≤ infinityKey := pow_le_pow_right₀ (by decide) (by omega)

theorem relationOf_greater : relationOf a b = .greater ↔ orderKey b < orderKey a := by
  unfold relationOf
  split_ifs <;> simp <;> omega

theorem relationOf_less : relationOf a b = .less ↔ orderKey a < orderKey b := by
  unfold relationOf
  split_ifs <;> simp <;> omega

theorem relationOf_equal : relationOf a b = .equal ↔ orderKey a = orderKey b := by
  unfold relationOf
  split_ifs <;> simp <;> omega

/-- Finite numbers relate as their values do. -/
theorem relationOf_finite (ha : finiteExt a = true) (hb : finiteExt b = true) :
    (relationOf a b = .greater ↔ extValue b < extValue a) ∧ (relationOf a b = .less ↔ extValue a < extValue b) ∧
    (relationOf a b = .equal ↔ extValue a = extValue b) := by
  rw [relationOf_greater, relationOf_less, relationOf_equal, ← orderKey_finite ha, ← orderKey_finite hb,
    mul_lt_mul_iff_left₀ (two_zpow_pos _), mul_lt_mul_iff_left₀ (two_zpow_pos _), mul_left_inj' (two_zpow_pos _).ne',
    Int.cast_lt, Int.cast_lt, Int.cast_inj]
  exact ⟨Iff.rfl, Iff.rfl, Iff.rfl⟩

theorem extInf_of_infinity (h : extClass a = .infinity) : a = extInf (extNeg a) := by
  obtain ⟨he, hs⟩ := extClass_infinity_iff.1 h
  conv_lhs => rw [ext_eq_pack a, he, hs]
  rfl

theorem extNeg_inf (neg : Bool) : extNeg (extInf neg) = neg := extNeg_pack neg (by decide) (by decide)

theorem extClass_inf (neg : Bool) : extClass (extInf neg) = .infinity := by
  rw [extInf, extClass_infinity_iff, extExp_pack neg (by decide) (by decide), extSig_pack neg (by decide) (by decide)]
  exact ⟨rfl, rfl⟩

theorem eq_extInf_iff (neg : Bool) : a = extInf neg ↔ extClass a = .infinity ∧ extNeg a = neg :=
  ⟨fun h => h ▸ ⟨extClass_inf neg, extNeg_inf neg⟩, fun ⟨h, hn⟩ => hn ▸ extInf_of_infinity h⟩

theorem finite_ne_infinity (h : finiteExt a = true) : extClass a ≠ .infinity := fun hi =>
  Bool.noConfusion ((isInf_of_finite h).symm.trans (isInf_iff.2 hi))

/-- An infinity lies beyond every number of its sign. -/
theorem relationOf_infinite (ord : ordinary a b = true) (inf : extClass a = .infinity ∨ extClass b = .infinity) :
    relationOf a b = if a = b then .equal else if a = extInf false ∨ b = extInf true then .greater else .less := by
  obtain ⟨pa, pb⟩ := ordinary_iff_plain.1 ord
  have pos := infinityKey_pos
  rcases pa.finite_or_infinity with ha | ha
  · have hb := inf.resolve_left (finite_ne_infinity ha)
    have lt := abs_lt.1 (abs_orderKey_lt ha)
    have key := orderKey_infinity hb
    rw [if_neg (by rintro rfl; exact finite_ne_infinity ha hb)]
    simp only [eq_extInf_iff, finite_ne_infinity ha, hb, false_and, true_and, false_or]
    split_ifs with hn
    · rw [if_pos hn] at key
      exact relationOf_greater.2 (by omega)
    · rw [if_neg hn] at key
      exact relationOf_less.2 (by omega)
  · have keyA := orderKey_infinity ha
    rcases pb.finite_or_infinity with hb | hb
    · have lt := abs_lt.1 (abs_orderKey_lt hb)
      rw [if_neg (by rintro rfl; exact finite_ne_infinity hb ha)]
      simp only [eq_extInf_iff, finite_ne_infinity hb, ha, false_and, true_and, or_false]
      cases hn : extNeg a with
      | false =>
        rw [hn] at keyA
        exact relationOf_greater.2 (by simp at keyA; omega)
      | true =>
        rw [hn] at keyA
        exact relationOf_less.2 (by simp at keyA; omega)
    · have keyB := orderKey_infinity hb
      have same : a = b ↔ extNeg a = extNeg b := by
        rw [extInf_of_infinity hb, eq_extInf_iff, extNeg_inf]
        exact and_iff_right ha
      simp only [same, eq_extInf_iff, ha, hb, true_and]
      cases hna : extNeg a <;> cases hnb : extNeg b <;> rw [hna] at keyA <;> rw [hnb] at keyB <;> simp at keyA keyB ⊢
      · exact relationOf_equal.2 (by omega)
      · exact relationOf_greater.2 (by omega)
      · exact relationOf_less.2 (by omega)
      · exact relationOf_equal.2 (by omega)

end

/-- Settles O41: every form runs `compareWith`, whose relation is the order of the keys. -/
theorem fpuComparisons : Obligations.FpuComparisons := by
  intro s he hn x absent
  refine ⟨?_, ?_, fun h0 => ?_, fun h0 => ?_, fun a b ha hb => relationOf_finite ha hb, fun a b ord inf => relationOf_infinite ord inf,
    compareInvalid_iff, fun f => ⟨rfl, rfl, rfl, rfl⟩⟩
  · intro k i j quietOk n hi
    exact ⟨fun h0 hj => completes_of_escRegister (exec_compareRow hi s) he hn (Fpu.compareReg_full h0 hj),
      fun h => completes_of_escRegister (exec_compareRow hi s) he hn (Fpu.compareReg_empty h)⟩
  · intro m v i w b n s1 hi hx
    obtain ⟨conv, rfl, exec⟩ := exec_compareMemRow hi s
    exact ⟨loadMem_reads hx, fun h0 => completes_of_escLoad exec he hn hx (Fpu.compareMem_full h0),
      fun h0 => completes_of_escLoad exec he hn hx (Fpu.compareMem_empty h0)⟩
  · exact completes_of_escRegister rfl he hn (Fpu.compareMem_full (n := 0) h0)
  · refine completes_of_escRegister rfl he hn ((Fpu.compareMem_empty (n := 0) h0).trans ?_)
    exact ite_self _

end Sys2Proof.Machine
end

section
/-! ## Floating-point instructions: control -/
set_option Elab.async false

namespace Sys2Proof.Machine

theorem Fpu.sw_getLsbD (f : Fpu) (i : Nat) : f.sw.getLsbD i = BitVec.getLsbD (BitVec.ofBool f.es ++ BitVec.ofBool f.st.c3 ++
    f.st.top ++ BitVec.ofBool f.st.c2 ++ BitVec.ofBool f.st.c1 ++ BitVec.ofBool f.st.c0 ++ BitVec.ofBool f.es ++
    BitVec.ofBool f.st.sf ++ f.st.flags) i := rfl

/-- FNCLEX keeps the condition codes and TOP of the status word. -/
theorem FpuStatus.cleared_eq (f : Fpu) : f.st.cleared = FpuStatus.ofWord (f.sw &&& 0x7F00) := by
  have top : (f.sw &&& 0x7F00).extractLsb' 11 3 = f.st.top := by
    refine BitVec.eq_of_getLsbD_eq fun i hi => ?_
    have : i = 0 ∨ i = 1 ∨ i = 2 := by omega
    rcases this with rfl | rfl | rfl <;> simp only [BitVec.getLsbD_extractLsb', BitVec.getLsbD_and, Fpu.sw_getLsbD, BitVec.getLsbD_append] <;> simp
  unfold FpuStatus.ofWord
  rw [top]
  simp only [FpuStatus.cleared, BitVec.getLsbD_and, Fpu.sw_getLsbD, BitVec.getLsbD_append]
  simp

section
variable {s : State}

theorem State.withFpu_of_eq {f : Fpu} (h : s.fpu = f) : s.withFpu f = s := by
  subst h
  rfl

/-- What WAIT runs. -/
def waitBody : M Unit := get >>= fun t => if t.mp && t.ts then raiseNM >>= fun _ : Unit => pendingCheck else pendingCheck

theorem execWait_eq (s : State) : execWait s = runInstr false false waitBody s := rfl

theorem waitBody_pending (h : s.mp = false ∨ s.ts = false) : waitBody s = pendingCheck s := by
  have off : ¬ (s.mp && s.ts) = true := by
    rcases h with h | h <;> simp [h]
  exact M.bind_of_ok (M.get_run _) (by rw [if_neg off])

theorem execWait_run (h : s.mp = false ∨ s.ts = false) (hr : s.Ready false) (hn : s.NoFpuError) :
    Completes .wait s (s.begin.complete false) [] :=
  completes_of_ok (execWait_eq s) hr ((waitBody_pending (s := s.begin) h).trans (pendingCheck_ok (s := s.begin) hn)) rfl
    (keeps_of_mem rfl)

end

/-- Settles O43, instruction by instruction. -/
theorem fpuControl : Obligations.FpuControl := by
  refine ⟨?_, fun s hr h hn => execWait_run h hr hn⟩
  intro m ps v s s1 he f gives
  obtain ⟨vm, -, ts, lock⟩ := id he
  have ready : s.Ready false := ⟨vm, by rw [lock]; rfl⟩
  refine ⟨?_, ?_, ?_, ?_, ?_, ?_, fun hl => ?_, fun hn => ⟨execWait_run (.inr ts) ready hn, fun hx => ?_⟩⟩
  · exact completes_of_escControl (b := false) rfl he Bool.noConfusion (modFpu_run ..) (.refl _) rfl
  · rw [← FpuStatus.cleared_eq]
    exact completes_of_escControl (b := false) rfl he Bool.noConfusion (modFpu_run ..) (.refl _) rfl
  · exact completes_of_escControl (b := false) rfl he Bool.noConfusion (M.pure_run ..) (.refl _) rfl
  · exact completes_of_escControl (b := false) rfl he Bool.noConfusion (M.pure_run ..) (.refl _) rfl
  · exact completes_of_escControl (b := false) rfl he Bool.noConfusion (M.pure_run ..) (.refl _) rfl
  · exact completes_of_escControl (b := false) rfl he Bool.noConfusion (M.bind_of_ok (M.get_run _) (M.bind_of_ok rfl
      (M.bind_of_ok (fresh_run _) (modFpu_run ..)))) (.refl _) rfl
  · have reads := locateMem_reads hl
    have keeps (v : Nat) : s.begin.KeepsBut (s1.wrote ps v) ps := (State.KeepsBut.of_reads reads).trans (.wrote s1 ps v)
    have fpu (v : Nat) : (s1.wrote ps v).fpu = f := by
      rw [wrote_touches s1 ps v]
      exact reads.fpu
    refine ⟨reads, ?_, ?_⟩
    · show Completes _ s (((s1.wrote ps _).withFpu f).complete false) ps
      rw [State.withFpu_of_eq (fpu _)]
      exact completes_of_escControl_wrote (b := false) rfl he Bool.noConfusion
        (M.bind_of_ok (M.get_run _) (storeMem_run hl)) (keeps _)
    · have done := completes_of_escControl_wrote (i := .fnstsw (.mem m)) (b := false) rfl he Bool.noConfusion
        (M.bind_of_ok (M.get_run _) (M.bind_of_ok (storeMem_run hl) (M.bind_of_ok (fresh_run _) (modFpu_run ..)))) (keeps _)
      have same : (s1.wrote ps s.begin.fpu.sw.toNat).drawn.fpu = f := fpu _
      rw [same] at done
      exact done
  · have reads := loadMem_reads hx
    have done := completes_of_escControl (i := .fldcw m) (b := true) rfl he (fun _ => hn)
      (M.bind_of_ok hx (M.bind_of_ok (fresh_run _) (modFpu_run ..))) reads rfl
    have same : s1.drawn.fpu = f := reads.fpu
    rw [same] at done
    exact ⟨reads, done⟩

end Sys2Proof.Machine
end

section
/-! ## Floating-point instructions: what turns them away -/
set_option Elab.async false

namespace Sys2Proof.Machine

section
variable {s : State} {b : Bool} {i : Instr}

/-! ### The checks of an ESC instruction -/

theorem rollback_begin (s : State) : rollback s s.begin = s := rfl

theorem escCheck_unavailable (h : s.em = true ∨ s.ts = true) :
    escCheck b s = .error (.exn { vector := 7, code := none, cls := .fault }) s := by
  have off : (s.em || s.ts) = true := Bool.or_eq_true_iff.2 h
  refine M.bind_of_ok (M.get_run _) ?_
  rw [if_pos off]
  exact M.bind_error (raiseNM_run _)

theorem escCheck_locked (hem : s.em = false) (hts : s.ts = false) (h : s.dec.lock = true) :
    escCheck b s = .error (.exn { vector := 6, code := none, cls := .fault }) s := by
  simp [escCheck, hem, hts, h]

theorem escCheck_pending (he : s.EscReady) : escCheck true s = pendingCheck s := by
  obtain ⟨-, em, ts, lock⟩ := he
  simp [escCheck, em, ts, lock]

theorem pendingCheck_raises (h : s.fpu.es = true) (hne : s.ne = true) :
    pendingCheck s = .error (.exn { vector := 16, code := none, cls := .fault }) s := by
  rw [pendingCheck, if_neg (by rw [h]; exact Bool.noConfusion), if_pos hne]
  rfl

theorem pendingCheck_freezes (h : s.fpu.es = true) (hne : s.ne = false) (hig : s.pins.ignne = false) :
    pendingCheck s = .error .freeze s := by
  rw [pendingCheck, if_neg (by rw [h]; exact Bool.noConfusion), if_neg (Bool.eq_false_iff.1 hne),
    if_neg (Bool.eq_false_iff.1 hig)]

/-- An undefined encoding checks as the other ESC instructions do, and then raises #UD. -/
theorem exec_undefinedEsc (f : EscForm) (s : State) :
    exec (.undefinedEsc f) s = runInstr true false (escCheck false >>= fun _ => raiseUD) s := by
  refine congrArg (runInstr true false · s) (funext fun t => ?_)
  cases hem : t.em <;> cases hts : t.ts <;> cases hl : t.dec.lock <;> simp [escCheck, hem, hts, hl]

/-- Every ESC instruction checks first. -/
theorem exec_esc (s : State) (he : isEsc i = true) :
    ∃ rest : M Unit, exec i s = runInstr true false (escCheck (!noWait i) >>= fun _ => rest) s := by
  cases i
  case undefinedEsc f => exact ⟨_, exec_undefinedEsc f s⟩
  case fld f | fild f | fst f | fist f | fstp f | fistp f | fadd f | fiadd f | fmul f | fimul f | fsub f | fisub f | fsubr f |
      fisubr f | fdiv f | fidiv f | fdivr f | fidivr f | fcom f | fcomp f | ficom f | ficomp f =>
    cases f <;> exact ⟨_, rfl⟩
  case fnstsw | fbld | fbstp | fxch | fld1 | fldl2t | fldl2e | fldpi | fldlg2 | fldln2 | fldz | faddp | fmulp | fsubp | fsubrp |
      fdivp | fdivrp | fsqrt | fscale | fprem | fprem1 | frndint | fxtract | fabs | fchs | fcompp | fucom | fucomp | fucompp |
      ftst | fxam | fptan | fpatan | fsin | fcos | fsincos | f2xm1 | fyl2x | fyl2xp1 | fninit | fldcw | fnstcw | fnclex |
      fincstp | fdecstp | ffree | fnop | feni | fdisi | fsetpm | fnstenv | fldenv | fnsave | frstor =>
    exact ⟨_, rfl⟩
  case add f | or f | adc f | sbb f | and f | sub f | xor f | cmp f | push f | pop f | inc f | dec f | imul f | jO f | jNo f |
      jB f | jAe f | jE f | jNe f | jBe f | jA f | jS f | jNs f | jP f | jNp f | jL f | jGe f | jLe f | jG f | test f |
      xchg f | mov f | call f | rol f | ror f | rcl f | rcr f | shl f | shr f | sar f | ret f | retf f | undefined f | in_ f |
      out f | jmp f | not f | neg f | mul f | div f | idiv f | bt f | shld f | bts f | shrd f | cmpxchg f | btr f | movzx f |
      btc f | movsx f | xadd f =>
    cases f <;> cases he
  all_goals cases he

end

/-- Settles O45: every ESC instruction begins with `escCheck`, WAIT with its own checks. -/
theorem fpuFaults : Obligations.FpuFaults := by
  intro i s vm
  refine ⟨fun he => ?_, fun f he => ?_, fun lock => ⟨fun mp ts => ?_, fun h es => ?_⟩⟩
  · obtain ⟨rest, exec⟩ := exec_esc s he
    have ready : s.Ready true := ⟨vm, by rw [Bool.not_true, Bool.and_false]⟩
    refine ⟨fun h => ?_, fun hem hts hl => ?_, fun hr wait es => ⟨fun ne => ?_, fun ne ig => ?_⟩⟩
    · exact raises_of_error exec ready (M.bind_error (escCheck_unavailable (s := s.begin) h))
    · exact raises_of_error exec ready (M.bind_error (escCheck_locked (s := s.begin) hem hts hl))
    · rw [wait] at exec
      exact raises_of_error exec ready (M.bind_error ((escCheck_pending (s := s.begin) hr).trans (pendingCheck_raises (s := s.begin) es ne)))
    · rw [wait] at exec
      exact exec.trans (runInstr_freeze (t := s.begin) ready (M.bind_error ((escCheck_pending (s := s.begin) hr).trans
        (pendingCheck_freezes (s := s.begin) es ne ig))))
  · exact raises_of_error (exec_undefinedEsc f s) he.ready
      (M.bind_of_ok (escCheck_ok he.begin Bool.noConfusion) (raiseUD_run _))
  · have ready : s.Ready false := ⟨vm, by rw [lock]; rfl⟩
    have on : (s.begin.mp && s.begin.ts) = true := Bool.and_eq_true_iff.2 ⟨mp, ts⟩
    refine raises_of_error (execWait_eq s) ready (M.bind_of_ok (M.get_run _) ?_)
    rw [if_pos on]
    exact M.bind_error (raiseNM_run _)
  · have ready : s.Ready false := ⟨vm, by rw [lock]; rfl⟩
    have pending : waitBody s.begin = pendingCheck s.begin := waitBody_pending (s := s.begin) h
    exact ⟨fun ne => raises_of_error (execWait_eq s) ready (pending.trans (pendingCheck_raises (s := s.begin) es ne)),
      fun ne ig => (execWait_eq s).trans (runInstr_freeze (t := s.begin) ready (pending.trans (pendingCheck_freezes (s := s.begin) es ne ig)))⟩

end Sys2Proof.Machine
end

section
/-! ## Floating-point instructions: the environment -/
set_option Elab.async false

namespace Sys2Proof.Machine

/-! ### Images -/

theorem append_toNat {m n : Nat} (x : BitVec m) (y : BitVec n) : (x ++ y).toNat = x.toNat * 2 ^ n + y.toNat := by
  rw [BitVec.toNat_append, Nat.shiftLeft_eq, mul_comm]
  exact (Nat.two_pow_add_eq_or_of_lt y.isLt _).symm

theorem Fpu.linIp_toNat (f : Fpu) : f.linIp.toNat = (f.cs.toNat * 16 + f.ip.toNat) % 2 ^ 32 := by
  have := f.cs.isLt
  rw [Fpu.linIp, BitVec.toNat_add, BitVec.toNat_shiftLeft, BitVec.toNat_setWidth, Nat.shiftLeft_eq]
  omega

theorem Fpu.linDp_toNat (f : Fpu) : f.linDp.toNat = (f.ds.toNat * 16 + f.dp.toNat) % 2 ^ 32 := by
  have := f.ds.isLt
  rw [Fpu.linDp, BitVec.toNat_add, BitVec.toNat_shiftLeft, BitVec.toNat_setWidth, Nat.shiftLeft_eq]
  omega

section
variable (f : Fpu) (u : BitVec 128)

theorem Fpu.image32p_toNat : (f.image32p u).toNat = f.cw.toNat + 2 ^ 16 * (reservedField u 0).toNat + 2 ^ 32 * f.sw.toNat +
    2 ^ 48 * (reservedField u 1).toNat + 2 ^ 64 * f.tw.toNat + 2 ^ 80 * (reservedField u 2).toNat + 2 ^ 96 * f.ip.toNat +
    2 ^ 128 * f.cs.toNat + 2 ^ 144 * (reservedField u 3).toNat + 2 ^ 160 * f.dp.toNat + 2 ^ 192 * f.ds.toNat +
    2 ^ 208 * (reservedField u 4).toNat := by
  unfold Fpu.image32p
  simp only [append_toNat]
  ring

theorem Fpu.image32r_toNat : (f.image32r u).toNat = f.cw.toNat + 2 ^ 16 * (reservedField u 0).toNat + 2 ^ 32 * f.sw.toNat +
    2 ^ 48 * (reservedField u 1).toNat + 2 ^ 64 * f.tw.toNat + 2 ^ 80 * (reservedField u 2).toNat +
    2 ^ 96 * (f.linIp.toNat % 2 ^ 16) + 2 ^ 112 * (reservedField u 3).toNat + 2 ^ 128 * f.op.toNat +
    2 ^ 140 * (f.linIp.toNat / 2 ^ 16) + 2 ^ 160 * (f.linDp.toNat % 2 ^ 16) + 2 ^ 176 * (reservedField u 4).toNat +
    2 ^ 204 * (f.linDp.toNat / 2 ^ 16) := by
  have hi := f.linIp.isLt
  have hd := f.linDp.isLt
  unfold Fpu.image32r
  simp only [append_toNat, BitVec.extractLsb'_toNat, Nat.shiftRight_eq_div_pow, BitVec.toNat_ofNat]
  rw [Nat.mod_eq_of_lt (show f.linIp.toNat / 2 ^ 16 < 2 ^ 16 by omega),
    Nat.mod_eq_of_lt (show f.linDp.toNat / 2 ^ 16 < 2 ^ 16 by omega)]
  simp only [pow_zero, Nat.div_one, Nat.zero_mod]
  ring

theorem Fpu.image16p_toNat : f.image16p.toNat = f.cw.toNat + 2 ^ 16 * f.sw.toNat + 2 ^ 32 * f.tw.toNat +
    2 ^ 48 * (f.ip.toNat % 2 ^ 16) + 2 ^ 64 * f.cs.toNat + 2 ^ 80 * (f.dp.toNat % 2 ^ 16) + 2 ^ 96 * f.ds.toNat := by
  unfold Fpu.image16p
  simp only [append_toNat, BitVec.extractLsb'_toNat, Nat.shiftRight_eq_div_pow]
  simp only [pow_zero, Nat.div_one]
  ring

theorem Fpu.image16r_toNat : f.image16r.toNat = f.cw.toNat + 2 ^ 16 * f.sw.toNat + 2 ^ 32 * f.tw.toNat +
    2 ^ 48 * (f.linIp.toNat % 2 ^ 16) + 2 ^ 64 * f.op.toNat + 2 ^ 76 * (f.linIp.toNat / 2 ^ 16 % 2 ^ 4) +
    2 ^ 80 * (f.linDp.toNat % 2 ^ 16) + 2 ^ 108 * (f.linDp.toNat / 2 ^ 16 % 2 ^ 4) := by
  unfold Fpu.image16r
  simp only [append_toNat, BitVec.extractLsb'_toNat, Nat.shiftRight_eq_div_pow, BitVec.toNat_ofNat]
  simp only [pow_zero, Nat.div_one, Nat.zero_mod]
  ring

/-- The control, status and tag word lie in the first three items of every image. -/
theorem Fpu.image_words (pe : Bool) (z : Size) :
    f.image pe z u % 2 ^ 16 = f.cw.toNat ∧ f.image pe z u / 2 ^ (8 * z.bytes) % 2 ^ 16 = f.sw.toNat ∧
      f.image pe z u / 2 ^ (8 * (2 * z.bytes)) % 2 ^ 16 = f.tw.toNat := by
  have hc := f.cw.isLt
  have hs := f.sw.isLt
  have ht := f.tw.isLt
  have h0 := (reservedField u 0).isLt
  have h1 := (reservedField u 1).isLt
  have h2 := (reservedField u 2).isLt
  have hi := f.ip.isLt
  cases pe <;> cases z <;> simp only [Fpu.image, Size.bytes]
  · rw [Fpu.image16r_toNat]
    omega
  · rw [Fpu.image32r_toNat]
    omega
  · rw [Fpu.image16p_toNat]
    omega
  · rw [Fpu.image32p_toNat]
    omega

theorem Fpu.image_pointers (pe : Bool) (z : Size) : PointersStored pe z f (f.image pe z u) := by
  have hc := f.cw.isLt
  have hs := f.sw.isLt
  have ht := f.tw.isLt
  have hi := f.ip.isLt
  have hd := f.dp.isLt
  have hcs := f.cs.isLt
  have hds := f.ds.isLt
  have ho := f.op.isLt
  have h0 := (reservedField u 0).isLt
  have h1 := (reservedField u 1).isLt
  have h2 := (reservedField u 2).isLt
  have h3 := (reservedField u 3).isLt
  have h4 := (reservedField u 4).isLt
  cases pe <;> cases z <;> simp only [Fpu.image, PointersStored]
  · rw [Fpu.image16r_toNat, ← Fpu.linIp_toNat, ← Fpu.linDp_toNat]
    have hi0 := Nat.mod_lt f.linIp.toNat (Nat.two_pow_pos 16)
    have hi1 := Nat.mod_lt (f.linIp.toNat / 2 ^ 16) (Nat.two_pow_pos 4)
    have hd0 := Nat.mod_lt f.linDp.toNat (Nat.two_pow_pos 16)
    have hd1 := Nat.mod_lt (f.linDp.toNat / 2 ^ 16) (Nat.two_pow_pos 4)
    rw [show f.linIp.toNat / 2 ^ 16 % 16 = f.linIp.toNat / 2 ^ 16 % 2 ^ 4 from rfl,
      show f.linDp.toNat / 2 ^ 16 % 16 = f.linDp.toNat / 2 ^ 16 % 2 ^ 4 from rfl]
    generalize f.linIp.toNat / 2 ^ 16 % 2 ^ 4 = i1 at *
    generalize f.linDp.toNat / 2 ^ 16 % 2 ^ 4 = d1 at *
    generalize f.linIp.toNat % 2 ^ 16 = i0 at *
    generalize f.linDp.toNat % 2 ^ 16 = d0 at *
    omega
  · rw [Fpu.image32r_toNat, ← Fpu.linIp_toNat, ← Fpu.linDp_toNat]
    have hi0 := Nat.mod_lt f.linIp.toNat (Nat.two_pow_pos 16)
    have hi1 : f.linIp.toNat / 2 ^ 16 < 2 ^ 16 := Nat.div_lt_of_lt_mul f.linIp.isLt
    have hd0 := Nat.mod_lt f.linDp.toNat (Nat.two_pow_pos 16)
    have hd1 : f.linDp.toNat / 2 ^ 16 < 2 ^ 16 := Nat.div_lt_of_lt_mul f.linDp.isLt
    generalize f.linIp.toNat / 2 ^ 16 = i1 at *
    generalize f.linDp.toNat / 2 ^ 16 = d1 at *
    generalize f.linIp.toNat % 2 ^ 16 = i0 at *
    generalize f.linDp.toNat % 2 ^ 16 = d0 at *
    omega
  · rw [Fpu.image16p_toNat]
    omega
  · rw [Fpu.image32p_toNat]
    omega

/-- An item above the lowest one. -/
theorem item_succ {a b : Nat} (hb : b < 2 ^ 80) (k : Nat) : (a * 2 ^ 80 + b) / 2 ^ (80 * (k + 1)) = a / 2 ^ (80 * k) := by
  rw [show 80 * (k + 1) = 80 + 80 * k by ring, pow_add, ← Nat.div_div_eq_div_mul, Nat.mul_comm a, Nat.mul_add_div (by decide),
    Nat.div_eq_of_lt hb, Nat.add_zero]

/-- The lowest item. -/
theorem item_zero {a b : Nat} (hb : b < 2 ^ 80) : (a * 2 ^ 80 + b) / 2 ^ (80 * 0) % 2 ^ 80 = b := by
  rw [Nat.mul_zero, Nat.pow_zero, Nat.div_one, Nat.mul_add_mod_self_right, Nat.mod_eq_of_lt hb]

/-- ST(k) lies in item k of the image of the stack. -/
theorem Fpu.stackImage_item (k : RegNum) : f.stackImage.toNat / 2 ^ (80 * k.toNat) % 2 ^ 80 = (f.reg k).toNat := by
  have lt (i : RegNum) := (f.reg i).isLt
  have sum : f.stackImage.toNat = (((((((f.reg 7).toNat * 2 ^ 80 + (f.reg 6).toNat) * 2 ^ 80 + (f.reg 5).toNat) * 2 ^ 80 +
      (f.reg 4).toNat) * 2 ^ 80 + (f.reg 3).toNat) * 2 ^ 80 + (f.reg 2).toNat) * 2 ^ 80 + (f.reg 1).toNat) * 2 ^ 80 +
      (f.reg 0).toNat := by
    unfold Fpu.stackImage
    simp only [append_toNat]
  rw [sum]
  rcases regNum_cases k with rfl | rfl | rfl | rfl | rfl | rfl | rfl | rfl
  · exact item_zero (lt 0)
  · exact (congrArg (· % 2 ^ 80) (item_succ (lt 0) 0)).trans (item_zero (lt 1))
  · show _ / 2 ^ (80 * 2) % 2 ^ 80 = _
    rw [item_succ (lt 0), item_succ (lt 1), item_zero (lt 2)]
  · show _ / 2 ^ (80 * 3) % 2 ^ 80 = _
    rw [item_succ (lt 0), item_succ (lt 1), item_succ (lt 2), item_zero (lt 3)]
  · show _ / 2 ^ (80 * 4) % 2 ^ 80 = _
    rw [item_succ (lt 0), item_succ (lt 1), item_succ (lt 2), item_succ (lt 3), item_zero (lt 4)]
  · show _ / 2 ^ (80 * 5) % 2 ^ 80 = _
    rw [item_succ (lt 0), item_succ (lt 1), item_succ (lt 2), item_succ (lt 3), item_succ (lt 4), item_zero (lt 5)]
  · show _ / 2 ^ (80 * 6) % 2 ^ 80 = _
    rw [item_succ (lt 0), item_succ (lt 1), item_succ (lt 2), item_succ (lt 3), item_succ (lt 4), item_succ (lt 5), item_zero (lt 6)]
  · show _ / 2 ^ (80 * 7) % 2 ^ 80 = _
    rw [item_succ (lt 0), item_succ (lt 1), item_succ (lt 2), item_succ (lt 3), item_succ (lt 4), item_succ (lt 5),
      item_succ (lt 6), Nat.mul_zero, Nat.pow_zero, Nat.div_one, Nat.mod_eq_of_lt (lt 7)]

end

/-! ### Loads -/

section
variable (f : Fpu) (v : Nat)

theorem tagEmpty_eq (w : Word) {k : Nat} : tagEmpty w k = decide (w.toNat / 4 ^ k % 4 = 3) := by
  rw [tagEmpty, beq_eq_decide, decide_eq_decide, ← BitVec.toNat_inj, BitVec.extractLsb'_toNat, Nat.shiftRight_eq_div_pow, pow_mul]
  rfl

theorem emptyOf_eq (w : Word) (k : Nat) : (emptyOf w).getLsbD k = BitVec.getLsbD (BitVec.ofBool (tagEmpty w 7) ++
    BitVec.ofBool (tagEmpty w 6) ++ BitVec.ofBool (tagEmpty w 5) ++ BitVec.ofBool (tagEmpty w 4) ++ BitVec.ofBool (tagEmpty w 3) ++
    BitVec.ofBool (tagEmpty w 2) ++ BitVec.ofBool (tagEmpty w 1) ++ BitVec.ofBool (tagEmpty w 0)) k := rfl

theorem emptyOf_getLsbD (w : Word) {k : Nat} (hk : k < 8) : (emptyOf w).getLsbD k = decide (w.toNat / 4 ^ k % 4 = 3) := by
  rw [← tagEmpty_eq, emptyOf_eq]
  have : k = 0 ∨ k = 1 ∨ k = 2 ∨ k = 3 ∨ k = 4 ∨ k = 5 ∨ k = 6 ∨ k = 7 := by omega
  rcases this with rfl | rfl | rfl | rfl | rfl | rfl | rfl | rfl <;>
    simp only [BitVec.getLsbD_append] <;> simp

theorem Fpu.loadImage_pointers (pe : Bool) (z : Size) : PointersLoaded pe z v f (f.loadImage pe z v) := by
  cases pe <;> cases z <;> simp only [PointersLoaded, Fpu.loadImage, imageWord, imageDword, append_toNat, BitVec.toNat_ofNat,
    BitVec.extractLsb'_toNat, BitVec.toNat_setWidth, Nat.shiftRight_eq_div_pow, and_true, true_and]
  case false.s16 =>
    generalize v / 2 ^ (8 * 6) = a
    generalize v / 2 ^ (8 * 8) = b
    generalize v / 2 ^ (8 * 10) = c
    generalize v / 2 ^ (8 * 12) = d
    omega
  case false.s32 =>
    generalize v / 2 ^ (8 * 12) = a
    generalize v / 2 ^ (8 * 16) = b
    generalize v / 2 ^ (8 * 20) = c
    generalize v / 2 ^ (8 * 24) = d
    omega
  case true.s16 =>
    omega

theorem Fpu.loadImage_words (pe : Bool) (z : Size) : (f.loadImage pe z v).cw = imageWord v 0 ∧
    (f.loadImage pe z v).st = FpuStatus.ofWord (imageWord v z.bytes) ∧
    (f.loadImage pe z v).empty = emptyOf (imageWord v (2 * z.bytes)) ∧ (f.loadImage pe z v).regs = f.regs := by
  cases pe <;> cases z <;> exact ⟨rfl, rfl, rfl, rfl⟩

theorem Fpu.loadItem_reg (i : Nat) (k : RegNum) :
    (f.loadItem v i).reg k = if k = BitVec.ofNat 3 i then BitVec.ofNat 80 (v / 2 ^ (80 * i)) else f.reg k := by
  show (f.regs.set (f.phys (BitVec.ofNat 3 i)) _).get (f.phys k) = _
  rw [FpuRegs.get_set, if_congr f.phys_inj rfl rfl]
  rfl

theorem Fpu.loadStack_reg (k : RegNum) : (f.loadStack v).reg k = BitVec.ofNat 80 (v / 2 ^ (80 * k.toNat)) := by
  unfold Fpu.loadStack
  simp only [Fpu.loadItem_reg]
  rcases regNum_cases k with rfl | rfl | rfl | rfl | rfl | rfl | rfl | rfl <;> rfl

end

/-! ### The instructions -/

theorem loadEnvironment_ok {m : Mem} {n v : Nat} {s t : State} (h : loadMem m 0 n s.osz.bytes s = .ok v t) :
    loadEnvironment m n s = .ok v t := by
  rw [loadEnvironment, h]

/-- Settles O44: the images field by field, and the four instructions. -/
theorem fpuEnvironment : Obligations.FpuEnvironment := by
  intro m v s s1 he f n al w image
  obtain ⟨cw, sw, tw⟩ := f.image_words s.draw s.pe s.osz
  have w0 : imageWord v 0 = w 0 := by
    show BitVec.ofNat 16 (v / 2 ^ (8 * 0)) = BitVec.ofNat 16 (v / 2 ^ (8 * (0 * _)))
    rw [Nat.zero_mul]
  have w1 : imageWord v s.osz.bytes = w 1 := by
    show BitVec.ofNat 16 (v / 2 ^ (8 * s.osz.bytes)) = BitVec.ofNat 16 (v / 2 ^ (8 * (1 * s.osz.bytes)))
    rw [Nat.one_mul]
  refine ⟨?_, f.image_pointers s.draw s.pe s.osz, f.stackImage_item, ?_, fun ps hl => ?_,
    fun hn => ⟨fun hx => ?_, fun hx => ?_⟩⟩
  · intro k hk
    have : k = 0 ∨ k = 1 ∨ k = 2 := by omega
    rcases this with rfl | rfl | rfl
    · show _ / 2 ^ (8 * (0 * _)) % _ = _
      rw [Nat.zero_mul, Nat.mul_zero, Nat.pow_zero, Nat.div_one]
      exact cw
    · rw [Nat.one_mul]
      exact sw
    · exact tw
  · intro ps hl t
    have reads : s.begin.Reads s1 := (reads_freeCtr s.begin _).trans (locateMem_reads hl)
    have done := completes_of_escControl_wrote (i := .fnstenv m) (b := false) rfl he Bool.noConfusion
      (M.bind_of_ok (M.get_run _) (M.bind_of_ok (fresh_run _) (M.bind_of_ok (storeMem_run hl)
        (M.bind_of_ok (fresh_run _) (modFpu_run ..))))) ((State.KeepsBut.of_reads reads).trans (.wrote s1 ps _))
    have same : t.drawn.fpu = f := by
      show (s1.wrote ps _).fpu = f
      rw [wrote_touches s1 ps _]
      exact reads.fpu
    exact ⟨reads, by rw [← same]; exact done⟩
  · have reads : s.begin.Reads s1 := (reads_freeCtr s.begin _).trans (locateMem_reads hl)
    have done := completes_of_escControl_wrote (i := .fnsave m) (b := false) rfl he Bool.noConfusion
      (M.bind_of_ok (M.get_run _) (M.bind_of_ok (fresh_run _) (M.bind_of_ok (storeMem_run hl) (modFpu_run ..))))
      ((State.KeepsBut.of_reads reads).trans (.wrote s1 ps _))
    have same (v : Nat) : (s1.wrote ps v).fpu = f := by
      rw [wrote_touches s1 ps v]
      exact reads.fpu
    rw [same] at done
    exact ⟨reads, done⟩
  · have reads := loadMem_reads hx
    have fpu : s1.fpu = f := reads.fpu
    obtain ⟨hcw, hst, hempty, hregs⟩ := f.loadImage_words v s.pe s.osz
    rw [w0] at hcw
    rw [w1] at hst
    have done := completes_of_escControl (i := .fldenv m) (b := true) rfl he (fun _ => hn)
      (M.bind_of_ok (M.get_run _) (M.bind_of_ok (loadEnvironment_ok (s := s.begin) hx) (modFpu_run ..))) reads rfl
    rw [fpu] at done
    exact ⟨_, hregs, f.loadImage_pointers v s.pe s.osz, hcw, hst, fun k hk => by rw [hempty]; exact emptyOf_getLsbD _ hk, reads, done⟩
  · have reads := loadMem_reads hx
    have fpu : s1.fpu = f := reads.fpu
    obtain ⟨hcw, hst, hempty, -⟩ := f.loadImage_words v s.pe s.osz
    rw [w0] at hcw
    rw [w1] at hst
    have done := completes_of_escControl (i := .frstor m) (b := true) rfl he (fun _ => hn)
      (M.bind_of_ok (M.get_run _) (M.bind_of_ok hx (modFpu_run ..))) reads rfl
    rw [fpu] at done
    refine ⟨(f.loadImage s.pe s.osz v).loadStack (v / 2 ^ (8 * envBytes s.osz)), f.loadImage_pointers v s.pe s.osz, hcw, hst,
      fun k hk => ?_, fun k => ?_, reads, done⟩
    · exact (congrArg (BitVec.getLsbD · k) hempty).trans (emptyOf_getLsbD _ hk)
    · rw [Fpu.loadStack_reg, Nat.div_div_eq_div_mul, ← pow_add]

end Sys2Proof.Machine
end

section
/-! ## Extended reals: exact rounding, remainders, scaling -/
set_option Elab.async false

namespace Sys2Proof.Machine

/-! ### Numbers that rounding keeps -/

section
variable {rc : BitVec 2} {x : Finite} {unit : Int} {z : Nat} {f : Fpu}

theorem Rounded.ext {r r' : Rounded} (hq : r.q = r'.q) (hi : r.inexact = r'.inexact) (hu : r.up = r'.up) : r = r' := by
  cases r
  cases r'
  simp_all

/-- A multiple of the unit is kept. -/
theorem roundAt_exact (h : (x.sig : ℚ) * (2 : ℚ) ^ x.exp = z * (2 : ℚ) ^ unit) : roundAt rc x unit = ⟨z, false, false⟩ := by
  have means := roundAt_means rc x unit
  rw [h] at means
  obtain ⟨lo, hi⟩ := abs_lt.1 means.close
  have pos := two_zpow_pos unit
  have qz : (roundAt rc x unit).q = z := by
    have up : ((roundAt rc x unit).q : ℚ) < z + 1 := lt_of_mul_lt_mul_right (by linarith) pos.le
    have down : (z : ℚ) < (roundAt rc x unit).q + 1 := lt_of_mul_lt_mul_right (by linarith) pos.le
    have up' : (roundAt rc x unit).q < z + 1 := by exact_mod_cast up
    have down' : z < (roundAt rc x unit).q + 1 := by exact_mod_cast down
    omega
  refine Rounded.ext qz ?_ ?_
  · rw [Bool.eq_false_iff, ne_eq, means.inexact_iff, qz]
    exact fun h => h rfl
  · rw [Bool.eq_false_iff, ne_eq, means.up_iff, qz]
    exact lt_irrefl _

theorem bitLen_mono {m n : Nat} (h : m ≤ n) : bitLen m ≤ bitLen n := bitLen_le.2 (h.trans_lt (lt_two_pow_bitLen n))

theorem leading_mono {m n : Nat} (h : m ≤ n) (unit : Int) : leading m unit ≤ leading n unit := by
  have := bitLen_mono h
  unfold leading
  omega

theorem extZero_spec (neg : Bool) : finiteExt (extZero neg) = true ∧ extNeg (extZero neg) = neg ∧ extValue (extZero neg) = 0 := by
  refine ⟨?_, extNeg_pack neg (by decide) (by decide), ?_⟩
  · rw [extZero, finiteExt_iff, extExp_pack neg (by decide) (by decide)]
    exact .inl rfl
  · rw [extZero, extValue_pack neg (by decide) (by decide)]
    simp

/-- A number of at most 64 significant bits within the range of exponents is kept by rounding to a register. -/
theorem roundReg_exact {r j : Nat} (hr : r < 2 ^ 64) (hx : x.sig = r * 2 ^ j) (lo : -16445 ≤ x.exp)
    (hi : leading x.sig x.exp ≤ 16383) (hm : f.masks.getLsbD 4 = true) :
    ∃ v : Ext, roundReg f 64 x = Num.exact v ∧ finiteExt v = true ∧ extNeg v = x.neg ∧ extValue v = x.value := by
  by_cases h0 : x.sig = 0
  · obtain ⟨fin, neg, val⟩ := extZero_spec x.neg
    exact ⟨_, roundReg_zero h0, fin, neg, val.trans (Finite.value_eq_zero.2 h0).symm⟩
  · have hr0 : r ≠ 0 := by
      rintro rfl
      exact h0 (by rw [hx, Nat.zero_mul])
    have len : bitLen x.sig = bitLen r + j := by rw [hx, bitLen_mul_two_pow hr0]
    have len64 : bitLen r ≤ 64 := bitLen_le.2 hr
    have unit : unitFor 64 x = x.exp + bitLen x.sig - 64 := rfl
    have exact : roundAt f.rc x (unitFor 64 x) = ⟨r * 2 ^ (64 - bitLen r), false, false⟩ := by
      refine roundAt_exact ?_
      rw [hx, Nat.cast_mul, Nat.cast_mul, Nat.cast_pow, Nat.cast_pow, Nat.cast_two, mul_pow_mul_zpow (r : ℚ) rfl,
        mul_pow_mul_zpow (r : ℚ) rfl]
      congr 2
      omega
    have lead : leading (roundAt f.rc x (unitFor 64 x)).q (unitFor 64 x) = leading x.sig x.exp := by
      rw [exact]
      unfold leading
      rw [bitLen_mul_two_pow hr0]
      omega
    have value : ((r * 2 ^ (64 - bitLen r) : Nat) : ℚ) * (2 : ℚ) ^ unitFor 64 x = x.sig * (2 : ℚ) ^ x.exp := by
      have means := roundAt_means f.rc x (unitFor 64 x)
      rw [exact] at means
      by_contra ne
      exact Bool.noConfusion (means.inexact_iff.2 ne)
    by_cases tiny : leading x.sig x.exp < -16382
    · have tiny' : leading (roundAt f.rc x (unitFor 64 x)).q (unitFor 64 x) < -16382 := lead.trans_lt tiny
      have least : roundAt f.rc x (-16381 - (64 : Nat)) = ⟨x.sig * 2 ^ (x.exp - (-16381 - (64 : Nat))).toNat, false, false⟩ :=
        if_pos (by omega)
      obtain ⟨fin, neg, val⟩ := extEncode_tiny f.rc h0 (by decide) (le_refl 64) tiny'
      refine ⟨_, ?_, fin, neg, ?_⟩
      · rw [roundReg_tiny h0 tiny', tinyReg_masked hm, least]
        rfl
      · rw [val, least, x.value_eq, Nat.cast_mul, Nat.cast_pow, Nat.cast_two, mul_pow_mul_zpow (x.sig : ℚ)
          (show ((x.exp - (-16381 - (64 : Nat))).toNat : Int) + (-16381 - (64 : Nat)) = x.exp by omega)]
    · have lo' : -16382 ≤ leading (roundAt f.rc x (unitFor 64 x)).q (unitFor 64 x) := by omega
      have hi' : leading (roundAt f.rc x (unitFor 64 x)).q (unitFor 64 x) ≤ 16383 := by omega
      obtain ⟨fin, neg, val⟩ := extEncode_rounded f.rc h0 (by decide) (le_refl 64) lo' hi'
      refine ⟨_, ?_, fin, neg, ?_⟩
      · rw [roundReg_range h0 lo' hi', exact]
        rfl
      · rw [val, exact, x.value_eq, value]

end

theorem leading_extFinite_le {a : Ext} (h : finiteExt a = true) : leading (extFinite a).sig (extFinite a).exp ≤ 16383 := by
  have len : bitLen (extSig a) ≤ 64 := bitLen_le.2 (extSig_lt a)
  have exp : extExp a < 0x7FFF := by
    rcases finiteExt_iff.1 h with h | ⟨h, -⟩ <;> omega
  simp only [leading, extFinite]
  omega

/-! ### Quotients and remainders -/

section
variable {nearest : Bool} {a b : Nat}

/-- The quotient cut or rounded to nearest even, and its remainder. -/
theorem quotientOf_spec (hb : 0 < b) (nearest : Bool) (a : Nat) :
    (if nearest then 2 * ((a : Int) - b * quotientOf nearest a b).natAbs ≤ b ∧
        (2 * ((a : Int) - b * quotientOf nearest a b).natAbs = b → quotientOf nearest a b % 2 = 0)
      else 0 ≤ (a : Int) - b * quotientOf nearest a b ∧ ((a : Int) - b * quotientOf nearest a b).natAbs < b) ∧
    ((a : Int) - b * quotientOf nearest a b).natAbs ≤ a ∧ ((a : Int) - b * quotientOf nearest a b).natAbs ≤ b := by
  have parts : (a : Int) = b * (a / b : Nat) + (a % b : Nat) := by exact_mod_cast (Nat.div_add_mod a b).symm
  have lt := Nat.mod_lt a hb
  have le := Nat.mod_le a b
  cases nearest with
  | false =>
    rw [if_neg Bool.false_ne_true, show quotientOf false a b = a / b from rfl]
    generalize (b : Int) * ((a / b : Nat) : Int) = bq at parts
    omega
  | true =>
    have quotient : quotientOf true a b = if decide (2 * (a % b) > b) || (decide (2 * (a % b) = b) && a / b % 2 == 1)
      then a / b + 1 else a / b := rfl
    have next : (b : Int) * ((a / b + 1 : Nat) : Int) = b * (a / b : Nat) + b := by push_cast; ring
    rw [if_pos rfl, quotient]
    split
    next up =>
      simp only [Bool.or_eq_true, Bool.and_eq_true, decide_eq_true_eq, beq_iff_eq] at up
      rw [next]
      generalize (b : Int) * ((a / b : Nat) : Int) = bq at parts
      omega
    next stay =>
      simp only [Bool.or_eq_true, Bool.and_eq_true, decide_eq_true_eq, beq_iff_eq, not_or, not_and] at stay
      generalize (b : Int) * ((a / b : Nat) : Int) = bq at parts
      omega

/-- A remainder by a shifted modulus has the significant bits of one of the two. -/
theorem mod_shifted {n : Nat} (ha : a < 2 ^ 64) (hn : 0 < n) (hn' : n < 2 ^ 64) (e k : Nat) :
    ∃ r j : Nat, r < 2 ^ 64 ∧ a * 2 ^ e % (n * 2 ^ k) = r * 2 ^ j := by
  rcases le_total k e with h | h
  · refine ⟨a * 2 ^ (e - k) % n, k, (Nat.mod_lt _ hn).trans hn', ?_⟩
    rw [← Nat.mul_mod_mul_right, mul_assoc, ← pow_add, Nat.sub_add_cancel h]
  · refine ⟨a % (n * 2 ^ (k - e)), e, (Nat.mod_le _ _).trans_lt ha, ?_⟩
    rw [← Nat.mul_mod_mul_right, mul_assoc n, ← pow_add, Nat.sub_add_cancel h]

end

/-- The sign and magnitude of a remainder stand for the remainder with the dividend's sign. -/
theorem signOf_remainder (neg : Bool) (rest : Int) :
    signOf (if rest = 0 then neg else neg ^^ decide (rest < 0)) * (rest.natAbs : ℚ) = signOf neg * rest := by
  have := signOf_mul_natAbs rest false
  by_cases h : rest = 0
  · simp [h]
  · rw [if_neg h] at this ⊢
    rw [signOf_xor, mul_assoc, this]

section
variable {f : Fpu} {nearest : Bool} {a b : Ext}

/-- A remainder of at most 64 significant bits is kept by rounding. -/
theorem roundReg_remainder {neg : Bool} {rest unit : Int} {r j : Nat} (hr : r < 2 ^ 64) (hx : rest.natAbs = r * 2 ^ j)
    (lo : -16445 ≤ unit) (hi : leading rest.natAbs unit ≤ 16383) (hm : f.masks.getLsbD 4 = true) :
    ∃ v : Ext, roundReg f 64 { neg := if rest = 0 then neg else neg ^^ decide (rest < 0), sig := rest.natAbs, exp := unit } =
      Num.exact v ∧ extValue v = signOf neg * (rest * (2 : ℚ) ^ unit) := by
  obtain ⟨v, exact, -, -, value⟩ := roundReg_exact
    (x := { neg := if rest = 0 then neg else neg ^^ decide (rest < 0), sig := rest.natAbs, exp := unit }) hr hx lo hi hm
  refine ⟨v, exact, ?_⟩
  rw [value, Finite.value_eq, ← mul_assoc, signOf_remainder, mul_assoc]

/-- A magnitude in a unit not above its own. -/
theorem magnitude_in (x : Finite) {unit : Int} (h : unit ≤ x.exp) :
    (x.sig : ℚ) * (2 : ℚ) ^ x.exp = (x.sig * 2 ^ (x.exp - unit).toNat : Nat) * (2 : ℚ) ^ unit := by
  rw [Nat.cast_mul, Nat.cast_pow, Nat.cast_two,
    mul_pow_mul_zpow _ (show ((x.exp - unit).toNat : Int) + unit = x.exp by omega)]

theorem leading_in (x : Finite) (hx : x.sig ≠ 0) {unit : Int} (h : unit ≤ x.exp) :
    leading (x.sig * 2 ^ (x.exp - unit).toNat) unit = leading x.sig x.exp := by
  unfold leading
  rw [bitLen_mul_two_pow hx]
  omega

/-- What operands of a remainder are: finite, not zero. -/
structure RemOperands (x y : Finite) : Prop where
  sig_pos : 0 < x.sig
  sig_lt : x.sig < 2 ^ 64
  exp_ge : -16445 ≤ x.exp
  leading_le : leading x.sig x.exp ≤ 16383
  mod_pos : 0 < y.sig
  mod_lt : y.sig < 2 ^ 64
  mod_exp_ge : -16445 ≤ y.exp

theorem remOperands (ha : finiteExt a = true) (ha0 : extValue a ≠ 0) (hb0 : extValue b ≠ 0) :
    RemOperands (extFinite a) (extFinite b) where
  sig_pos := Nat.pos_of_ne_zero fun h => ha0 (Finite.value_eq_zero.2 h)
  sig_lt := extSig_lt a
  exp_ge := extFinite_exp_ge a
  leading_le := leading_extFinite_le ha
  mod_pos := Nat.pos_of_ne_zero fun h => hb0 (Finite.value_eq_zero.2 h)
  mod_lt := extSig_lt b
  mod_exp_ge := extFinite_exp_ge b

/-- A complete remainder: congruent to the dividend, smaller than the modulus. -/
theorem remainder_complete (ha : finiteExt a = true) (ha0 : extValue a ≠ 0) (hb0 : extValue b ≠ 0) (hm : f.masks.getLsbD 4 = true)
    (hd : leading (extFinite a).sig (extFinite a).exp - leading (extFinite b).sig (extFinite b).exp < 64) :
    ∃ (q : Nat) (r : Ext), remainder f nearest a b = ⟨Num.exact r, true, q⟩ ∧
      extValue r = signOf (extNeg a) * (|extValue a| - q * |extValue b|) ∧
      (if nearest then 2 * |extValue r| ≤ |extValue b| ∧ (2 * |extValue r| = |extValue b| → q % 2 = 0)
        else |extValue r| < |extValue b| ∧ (q : ℚ) * |extValue b| ≤ |extValue a|) := by
  obtain ⟨sa, ltA, loA, hiA, sb, ltB, loB⟩ := remOperands ha ha0 hb0
  have neg : extNeg a = (extFinite a).neg := rfl
  have run : remainder f nearest a b = ⟨_, true, _⟩ := if_pos hd
  rw [run, extValue, extValue, Finite.abs_value, Finite.abs_value, neg]
  generalize extFinite a = x at *
  generalize extFinite b = y at *
  have hx := min_le_left x.exp y.exp
  have hy := min_le_right x.exp y.exp
  rw [magnitude_in x hx, magnitude_in y hy]
  have lead := leading_in x sa.ne' hx
  have small : x.sig * 2 ^ (x.exp - min x.exp y.exp).toNat < 2 ^ 64 ∨ y.sig * 2 ^ (y.exp - min x.exp y.exp).toNat < 2 ^ 64 := by
    rcases min_choice x.exp y.exp with h | h
    · exact .inl (by rw [h, sub_self]; simpa using ltA)
    · exact .inr (by rw [h, sub_self]; simpa using ltB)
  have pos : 0 < y.sig * 2 ^ (y.exp - min x.exp y.exp).toNat := Nat.mul_pos sb (Nat.two_pow_pos _)
  generalize x.sig * 2 ^ (x.exp - min x.exp y.exp).toNat = m at *
  generalize y.sig * 2 ^ (y.exp - min x.exp y.exp).toNat = n at *
  obtain ⟨spec, leM, leN⟩ := quotientOf_spec pos nearest m
  generalize hq : quotientOf nearest m n = q at *
  have rest : (((m : Int) - n * q : Int) : ℚ) = m - q * n := by push_cast; ring
  obtain ⟨v, exact, value⟩ := roundReg_remainder (f := f) (neg := x.neg) (unit := min x.exp y.exp) (j := 0)
    (rest := (m : Int) - n * q) (by omega) (mul_one _).symm (by omega) ((leading_mono leM _).trans (lead.trans_le hiA)) hm
  have magnitude : |extValue v| = ((m : Int) - n * q).natAbs * (2 : ℚ) ^ (min x.exp y.exp) := by
    rw [value, abs_mul, abs_signOf, one_mul, abs_mul, abs_of_pos (two_zpow_pos _), Nat.cast_natAbs, Int.cast_abs]
  have unit := two_zpow_pos (min x.exp y.exp)
  refine ⟨q, v, ?_, ?_, ?_⟩
  · rw [← exact]
  · rw [value, rest]
    ring
  · rw [magnitude]
    cases nearest with
    | true =>
      rw [if_pos rfl] at spec ⊢
      obtain ⟨half, tie⟩ := spec
      rw [← mul_assoc, mul_le_mul_iff_left₀ unit, mul_left_inj' unit.ne']
      exact ⟨by exact_mod_cast half, fun h => tie (by exact_mod_cast h)⟩
    | false =>
      rw [if_neg Bool.false_ne_true] at spec ⊢
      obtain ⟨below, lt⟩ := spec
      rw [← mul_assoc, mul_le_mul_iff_left₀ unit, mul_lt_mul_iff_left₀ unit]
      refine ⟨by exact_mod_cast lt, ?_⟩
      have : (q : Int) * n ≤ m := by linarith
      exact_mod_cast this

/-- An incomplete remainder: congruent to the dividend and smaller. -/
theorem remainder_incomplete (ha : finiteExt a = true) (ha0 : extValue a ≠ 0) (hb0 : extValue b ≠ 0)
    (hm : f.masks.getLsbD 4 = true)
    (hd : 64 ≤ leading (extFinite a).sig (extFinite a).exp - leading (extFinite b).sig (extFinite b).exp) :
    ∃ (q : Nat) (r : Ext), remainder f nearest a b = ⟨Num.exact r, false, 0⟩ ∧
      extValue r = signOf (extNeg a) * (|extValue a| - q * |extValue b|) ∧ |extValue r| < |extValue a| := by
  obtain ⟨sa, ltA, loA, hiA, sb, ltB, loB⟩ := remOperands ha ha0 hb0
  have neg : extNeg a = (extFinite a).neg := rfl
  have run : remainder f nearest a b = ⟨_, false, 0⟩ := if_neg (not_lt.2 hd)
  rw [run, extValue, extValue, Finite.abs_value, Finite.abs_value, neg]
  generalize extFinite a = x at *
  generalize extFinite b = y at *
  have lenA := bitLen_le.2 ltA
  have lenB := bitLen_pos sb.ne'
  have le : y.exp ≤ x.exp := by
    unfold leading at hd
    omega
  have unit : min x.exp y.exp = y.exp := min_eq_right le
  have shift : (y.exp - y.exp).toNat = 0 := by omega
  rw [magnitude_in x le]
  have lead := leading_in x sa.ne' le
  have far : bitLen y.sig + ((leading x.sig x.exp - leading y.sig y.exp).toNat -
      (32 + Config.premN (leading x.sig x.exp - leading y.sig y.exp).toNat % 32)) <
      bitLen (x.sig * 2 ^ (x.exp - y.exp).toNat) := by
    rw [bitLen_mul_two_pow sa.ne']
    unfold leading at hd ⊢
    omega
  simp only [unit, shift, pow_zero, mul_one]
  generalize (leading x.sig x.exp - leading y.sig y.exp).toNat -
    (32 + Config.premN (leading x.sig x.exp - leading y.sig y.exp).toNat % 32) = k at far ⊢
  obtain ⟨r, j, hr, digits⟩ := mod_shifted ltA sb ltB (x.exp - y.exp).toNat k
  have pos : 0 < y.sig * 2 ^ k := Nat.mul_pos sb (Nat.two_pow_pos _)
  generalize hM : x.sig * 2 ^ (x.exp - y.exp).toNat = M at *
  have modulus : y.sig * 2 ^ k ≤ M := by
    have low : y.sig * 2 ^ k < 2 ^ (bitLen y.sig + k) := by
      rw [pow_add]
      exact Nat.mul_lt_mul_of_pos_right (lt_two_pow_bitLen _) (Nat.two_pow_pos _)
    exact (low.trans_le (lt_bitLen.1 far)).le
  have rest : (M : Int) - y.sig * (M / (y.sig * 2 ^ k) : Nat) * 2 ^ k = (M % (y.sig * 2 ^ k) : Nat) := by
    have : (M : Int) = y.sig * 2 ^ k * (M / (y.sig * 2 ^ k) : Nat) + (M % (y.sig * 2 ^ k) : Nat) := by
      exact_mod_cast (Nat.div_add_mod M (y.sig * 2 ^ k)).symm
    linarith
  rw [rest]
  obtain ⟨v, exact, value⟩ := roundReg_remainder (f := f) (neg := x.neg) (unit := y.exp) (rest := (M % (y.sig * 2 ^ k) : Nat)) hr
    digits loB ((leading_mono (Nat.mod_le _ _) _).trans (lead.trans_le hiA)) hm
  refine ⟨M / (y.sig * 2 ^ k) * 2 ^ k, v, ?_, ?_, ?_⟩
  · rw [← exact]
  · rw [value, ← rest]
    generalize M / (y.sig * 2 ^ k) = q
    push_cast
    ring
  · rw [value, abs_mul, abs_signOf, one_mul, abs_mul, abs_of_pos (two_zpow_pos _), mul_lt_mul_iff_left₀ (two_zpow_pos _)]
    have : M % (y.sig * 2 ^ k) < M := (Nat.mod_lt _ pos).trans_le modulus
    rw [Int.cast_natCast, Nat.abs_cast]
    exact_mod_cast this

end

/-! ### Rounding to an integer -/

section
variable {f : Fpu} {a b : Ext}

theorem rndintCompute_spec (h : finiteExt a = true) :
    finiteExt (rndintCompute f a).val = true ∧
      extValue (rndintCompute f a).val = signOf (extNeg a) * (roundAt f.rc (extFinite a) 0).q ∧
      extNeg (rndintCompute f a).val = extNeg a ∧ (rndintCompute f a).up = (roundAt f.rc (extFinite a) 0).up ∧
      (rndintCompute f a).exc = if (roundAt f.rc (extFinite a) 0).inexact then excP else 0 := by
  have value : extValue a = signOf (extNeg a) * ((extFinite a).sig * (2 : ℚ) ^ (extFinite a).exp) := Finite.value_eq _
  have keeps {z : Nat} (hz : ((extFinite a).sig : ℚ) * (2 : ℚ) ^ (extFinite a).exp = z) : finiteExt a = true ∧
      extValue a = signOf (extNeg a) * (roundAt f.rc (extFinite a) 0).q ∧ extNeg a = extNeg a ∧
      false = (roundAt f.rc (extFinite a) 0).up ∧ (0 : Exns) = if (roundAt f.rc (extFinite a) 0).inexact then excP else 0 := by
    rw [roundAt_exact (z := z) (by rw [hz, zpow_zero, mul_one]), value, hz]
    exact ⟨h, rfl, rfl, rfl, rfl⟩
  unfold rndintCompute
  dsimp only
  split
  next cases =>
    simp only [isInf_of_finite h, Bool.false_or, Bool.or_eq_true, decide_eq_true_eq] at cases
    rcases cases with zero | whole
    · refine keeps (z := 0) ?_
      have := (isZero_iff_value h).1 zero
      rw [show (extFinite a).sig = 0 from extValue_eq_zero.1 this]
      simp
    · refine keeps (z := (extFinite a).sig * 2 ^ (extFinite a).exp.toNat) ?_
      obtain ⟨n, hn⟩ := Int.eq_ofNat_of_zero_le whole
      rw [hn]
      simp
  next part =>
    simp only [isInf_of_finite h, Bool.false_or, Bool.or_eq_true, decide_eq_true_eq, not_or, not_le] at part
    have small : (roundAt f.rc (extFinite a) 0).q ≤ 2 ^ 63 := by
      refine roundAt_le ?_
      have lt : (extFinite a).sig < 2 ^ 64 := extSig_lt a
      have neg := part.2
      calc ((extFinite a).sig : ℚ) * (2 : ℚ) ^ (extFinite a).exp
          ≤ 2 ^ 64 * (2 : ℚ) ^ (-1 : Int) := by
            refine mul_le_mul (by exact_mod_cast lt.le) (zpow_le_zpow_right₀ one_le_two (by omega)) (two_zpow_pos _).le (by positivity)
        _ = (2 ^ 63 : Nat) * (2 : ℚ) ^ (0 : Int) := by norm_num
    have len : bitLen (roundAt f.rc (extFinite a) 0).q ≤ 64 := bitLen_le.2 (small.trans_lt (by decide))
    obtain ⟨fin, neg, val⟩ := extEncode_spec (extFinite a).neg (q := (roundAt f.rc (extFinite a) 0).q) (unit := 0)
      (small.trans (by decide)) (fun _ => by unfold leading; omega) (fun _ => by decide)
    refine ⟨fin, ?_, neg, rfl, rfl⟩
    rw [val, zpow_zero, mul_one]
    rfl

/-! ### Scaling -/

/-- A number with its exponent raised. -/
def Finite.raised (x : Finite) (k : Int) : Finite := { x with exp := x.exp + k }

theorem Finite.raised_value (x : Finite) (k : Int) : (x.raised k).value = x.value * (2 : ℚ) ^ k := by
  rw [Finite.value_eq, Finite.value_eq, Finite.raised]
  dsimp only
  rw [zpow_add₀ two_ne_zero]
  ring

theorem roundAt_raised (rc : BitVec 2) (x : Finite) (unit k : Int) : roundAt rc (x.raised k) (unit + k) = roundAt rc x unit := by
  unfold roundAt Finite.raised
  dsimp only
  rw [show x.exp + k - (unit + k) = x.exp - unit by omega, show unit + k - (x.exp + k) = unit - x.exp by omega]
  simp only [add_le_add_iff_right]

theorem unitFor_raised (p : Nat) (x : Finite) (k : Int) : unitFor p (x.raised k) = unitFor p x + k := by
  unfold unitFor Finite.raised
  dsimp only
  omega

/-- How a number far below the unit rounds. -/
def dustUp (rc : BitVec 2) (neg : Bool) : Bool := (decide (rc = 1) && neg) || (decide (rc = 2) && !neg)

theorem roundAt_dust {rc : BitVec 2} {x : Finite} {unit : Int} (hx : x.sig ≠ 0) (h : x.exp + bitLen x.sig < unit) :
    roundAt rc x unit = ⟨(dustUp rc x.neg).toNat, true, dustUp rc x.neg⟩ := by
  have deep : x.sig * 2 < 2 ^ (unit - x.exp).toNat := by
    have : bitLen (x.sig * 2 ^ 1) ≤ (unit - x.exp).toNat := by
      rw [bitLen_mul_two_pow hx]
      omega
    exact bitLen_le.1 this
  have pos := bitLen_pos hx
  have q : x.sig / 2 ^ (unit - x.exp).toNat = 0 := Nat.div_eq_of_lt (by omega)
  have r : x.sig % 2 ^ (unit - x.exp).toNat = x.sig := Nat.mod_eq_of_lt (by omega)
  have up : roundsUp rc x.neg 0 x.sig (unit - x.exp).toNat = dustUp rc x.neg := by
    unfold roundsUp dustUp
    have nonzero : (x.sig != 0) = true := bne_iff_ne.2 hx
    have cases : rc = 0 ∨ rc = 1 ∨ rc = 2 ∨ rc = 3 := by
      revert rc
      decide
    rcases cases with rfl | rfl | rfl | rfl
    · have below : ¬ 2 * x.sig > 2 ^ (unit - x.exp).toNat := by omega
      have ne : 2 * x.sig ≠ 2 ^ (unit - x.exp).toNat := by omega
      simp [below, ne]
    · simp [nonzero]
    · simp [nonzero]
    · simp
  rw [roundAt, if_neg (by omega)]
  dsimp only
  rw [q, r, up]
  cases dustUp rc x.neg <;> simp [hx]

/-- Beyond the exponents that any response can hold all numbers of a sign round alike. -/
theorem roundReg_far {x : Finite} (hx : x.sig ≠ 0) (hl : x.sig < 2 ^ 64) (lo : -16445 ≤ x.exp) (hi : x.exp ≤ 16320) {k l : Int}
    (h : (2 ^ 17 ≤ k ∧ 2 ^ 17 ≤ l) ∨ (k ≤ -2 ^ 17 ∧ l ≤ -2 ^ 17)) : roundReg f 64 (x.raised k) = roundReg f 64 (x.raised l) := by
  have len := bitLen_le.2 hl
  have pos := bitLen_pos hx
  have lead (k : Int) : leading (roundAt f.rc (x.raised k) (unitFor 64 (x.raised k))).q (unitFor 64 (x.raised k)) =
      leading (roundAt f.rc x (unitFor 64 x)).q (unitFor 64 x) + k := by
    rw [unitFor_raised, roundAt_raised, leading_add]
  have bounds : -16445 ≤ leading (roundAt f.rc x (unitFor 64 x)).q (unitFor 64 x) ∧
      leading (roundAt f.rc x (unitFor 64 x)).q (unitFor 64 x) ≤ 16384 := by
    have := bitLen_roundAt f.rc hx (p := 64) (by decide)
    unfold leading unitFor at *
    omega
  have hk := lead k
  have hl := lead l
  have sig (k : Int) : (x.raised k).sig ≠ 0 := hx
  rcases h with ⟨k17, l17⟩ | ⟨k17, l17⟩
  · rw [roundReg_over (sig k) (by omega), roundReg_over (sig l) (by omega)]
    cases hm : f.masks.getLsbD 3 with
    | true => rw [overflowReg_masked hm, overflowReg_masked hm]; rfl
    | false => rw [overflowReg_inf hm (by omega), overflowReg_inf hm (by omega)]; rfl
  · rw [roundReg_tiny (sig k) (by omega), roundReg_tiny (sig l) (by omega)]
    cases hm : f.masks.getLsbD 4 with
    | true =>
      have dust {k : Int} (h : k ≤ -2 ^ 17) : roundAt f.rc (x.raised k) (-16381 - (64 : Nat)) =
          ⟨(dustUp f.rc x.neg).toNat, true, dustUp f.rc x.neg⟩ := by
        refine roundAt_dust hx ?_
        show x.exp + k + bitLen x.sig < _
        omega
      rw [tinyReg_masked hm, tinyReg_masked hm, dust k17, dust l17]
      rfl
    | false => rw [tinyReg_zero hm (by omega), tinyReg_zero hm (by omega)]; rfl

theorem extFinite_exp_le (h : finiteExt a = true) : (extFinite a).exp ≤ 16320 := by
  simp only [extFinite]
  rcases finiteExt_iff.1 h with h | ⟨h, -⟩ <;> omega

theorem extFinite_sig_ne_of_leading (h : finiteExt b = true) (far : 17 ≤ leading (extFinite b).sig (extFinite b).exp) :
    (extFinite b).sig ≠ 0 := by
  intro zero
  rw [zero] at far
  simp only [leading, extFinite, bitLen_zero] at far zero
  rcases finiteExt_iff.1 h with h | ⟨-, h⟩ <;> omega

theorem two_pow_leading_le {x : Finite} (hx : x.sig ≠ 0) : (2 : ℚ) ^ leading x.sig x.exp ≤ x.sig * (2 : ℚ) ^ x.exp := by
  have pos := bitLen_pos hx
  have low : ((2 ^ (bitLen x.sig - 1) : Nat) : ℚ) ≤ x.sig := by exact_mod_cast two_pow_le_of_ne_zero hx
  rw [show leading x.sig x.exp = ((bitLen x.sig - 1 : Nat) : Int) + x.exp by unfold leading; omega, zpow_add₀ two_ne_zero,
    zpow_natCast]
  rw [Nat.cast_pow, Nat.cast_two] at low
  exact mul_le_mul_of_nonneg_right low (two_zpow_pos _).le

/-- FSCALE rounds the value times two to the power of the second operand cut to an integer. -/
theorem scaleCompute_spec (ha : finiteExt a = true) (ha0 : extValue a ≠ 0) (hb : finiteExt b = true) :
    ∃ (k : Int) (z : Finite), |(k : ℚ)| ≤ |extValue b| ∧ |extValue b| < |(k : ℚ)| + 1 ∧ 0 ≤ (k : ℚ) * extValue b ∧
      z.value = extValue a * (2 : ℚ) ^ k ∧ z.neg = extNeg a ∧ scaleCompute f a b = roundReg f 64 z := by
  have means := roundAt_means 3 (extFinite b) 0
  rw [zpow_zero] at means
  obtain ⟨above, -⟩ := abs_lt.1 means.close
  have below := means.chop rfl
  rw [mul_one] at above below
  have absB : |extValue b| = (extFinite b).sig * (2 : ℚ) ^ (extFinite b).exp := Finite.abs_value _
  have valB : extValue b = signOf (extNeg b) * |extValue b| := by
    rw [absB]
    exact Finite.value_eq _
  have size : |(signedOf (extNeg b) (roundAt 3 (extFinite b) 0).q : ℚ)| = (roundAt 3 (extFinite b) 0).q := by
    rw [signedOf_eq, abs_mul, abs_signOf, one_mul, Nat.abs_cast]
  refine ⟨signedOf (extNeg b) (roundAt 3 (extFinite b) 0).q, (extFinite a).raised (signedOf (extNeg b) (roundAt 3 (extFinite b) 0).q),
    ?_, ?_, ?_, Finite.raised_value _ _, rfl, ?_⟩
  · rw [size, absB]
    exact below
  · rw [size, absB]
    linarith
  · rw [signedOf_eq, valB]
    have : signOf (extNeg b) * (roundAt 3 (extFinite b) 0).q * (signOf (extNeg b) * |extValue b|) =
      signOf (extNeg b) * signOf (extNeg b) * ((roundAt 3 (extFinite b) 0).q * |extValue b|) := by ring
    rw [this, signOf_mul_self, one_mul]
    positivity
  · have zero := isZero_of_value_ne ha0
    have sa : (extFinite a).sig ≠ 0 := fun h => ha0 (Finite.value_eq_zero.2 h)
    have run : scaleCompute f a b = roundReg f 64 ((extFinite a).raised (scaleAmount b)) := by
      rw [scaleCompute, isInf_of_finite ha, zero, isInf_of_finite hb]
      rfl
    rw [run]
    unfold scaleAmount
    dsimp only
    split
    next far =>
      have large : 2 ^ 17 ≤ (roundAt 3 (extFinite b) 0).q := by
        have : ((2 ^ 17 : Nat) : ℚ) < (roundAt 3 (extFinite b) 0).q + 1 := by
          have := two_pow_leading_le (extFinite_sig_ne_of_leading hb far)
          have mono : (2 : ℚ) ^ (17 : Int) ≤ (2 : ℚ) ^ leading (extFinite b).sig (extFinite b).exp :=
            zpow_le_zpow_right₀ one_le_two far
          have : ((2 ^ 17 : Nat) : ℚ) = (2 : ℚ) ^ (17 : Int) := by norm_num
          linarith
        exact Nat.lt_succ_iff.1 (by exact_mod_cast this)
      have expA : (extFinite a).exp ≤ 16320 := extFinite_exp_le ha
      refine roundReg_far sa (extSig_lt a) (extFinite_exp_ge a) expA ?_
      have neg : (extFinite b).neg = extNeg b := rfl
      rw [neg]
      cases extNeg b <;> simp only [signedOf, if_true, Bool.false_eq_true, if_false] <;> omega
    next near => rfl

end

end Sys2Proof.Machine
end

section
/-! ## Floating-point instructions: root, rounding, scaling, remainders -/
set_option Elab.async false

namespace Sys2Proof.Machine

section
variable {g f : Fpu} {a b v : Ext} {n : Num} {w : Ext → Fpu → Fpu} {den : Bool} {op : Operand → Num}

/-! ### What is settled -/

theorem Fpu.unary_full (h : g.isEmpty 0 = false) : g.unary op = settled g (op (regOperand (g.reg 0))) (fun v g => g.put 0 v) := by
  rw [Fpu.unary, if_neg (Bool.eq_false_iff.1 h), Fpu.commit_eq]

theorem Fpu.unary_empty (h : g.isEmpty 0 = true) : g.unary op = g.stackFaulted false (fun g => g.put 0 indefinite) := by
  rw [Fpu.unary, if_pos h, Fpu.stackFault_eq]

theorem Fpu.extend_full {op : Ext → Fpu → Fpu} (h0 : g.isEmpty 0 = false) (h7 : g.isEmpty 7 = true) :
    g.extend op = op (g.reg 0) g := by
  rw [Fpu.extend, if_neg (Bool.eq_false_iff.1 h0), h7]
  rfl

theorem Fpu.extend_underflow {op : Ext → Fpu → Fpu} (h0 : g.isEmpty 0 = true) :
    g.extend op = g.stackFaulted false (fun g => (g.put 0 indefinite).push indefinite) := by
  rw [Fpu.extend, if_pos h0, Fpu.stackFault_eq]
  rfl

theorem Fpu.extend_overflow {op : Ext → Fpu → Fpu} (h0 : g.isEmpty 0 = false) (h7 : g.isEmpty 7 = false) :
    g.extend op = g.stackFaulted true (fun g => (g.put 0 indefinite).push indefinite) := by
  rw [Fpu.extend, if_neg (Bool.eq_false_iff.1 h0), h7, ← Fpu.stackFault_eq]
  rfl

/-- A result that raises no more than a masked D is delivered. -/
theorem settled_delivers (h : (den && !g.masks.getLsbD 1) = false) :
    settled g ((Num.exact v).withDenormal den) w = w v ((g.raise (excIf den excD)).setC1 false) := by
  rw [settled_denormal]
  cases den with
  | false => rw [excIf, if_neg Bool.false_ne_true, if_neg Bool.false_ne_true, Fpu.raise_zero]
  | true =>
    have masked : g.masks.getLsbD 1 = true := by simpa using h
    rw [if_pos rfl, if_pos masked]
    rfl

theorem withDenormal_false (n : Num) : n.withDenormal false = n := by
  simp [Num.withDenormal, excIf]

theorem withDenormal_or (n : Num) (d e : Bool) : n.withDenormal (d || e) = (n.withDenormal d).withDenormal e := by
  cases d <;> cases e <;> simp [Num.withDenormal, excIf, BitVec.or_assoc]

/-! ### FXTRACT -/

theorem significandOf_spec (ha0 : extValue a ≠ 0) :
    extValue (significandOf (extFinite a)) * (2 : ℚ) ^ leading (extFinite a).sig (extFinite a).exp = extValue a ∧
      1 ≤ |extValue (significandOf (extFinite a))| ∧ |extValue (significandOf (extFinite a))| < 2 := by
  have sa : (extFinite a).sig ≠ 0 := fun h => ha0 (Finite.value_eq_zero.2 h)
  have lt : (extFinite a).sig < 2 ^ 64 := extSig_lt a
  have lead : leading (extFinite a).sig (1 - (bitLen (extFinite a).sig : Int)) = 0 := by
    unfold leading
    omega
  obtain ⟨-, -, val⟩ := extEncode_spec (extFinite a).neg (q := (extFinite a).sig) (unit := 1 - (bitLen (extFinite a).sig : Int))
    lt.le (fun _ => by omega) (fun h => by omega)
  have value : extValue (significandOf (extFinite a)) =
    signOf (extFinite a).neg * ((extFinite a).sig * (2 : ℚ) ^ (1 - (bitLen (extFinite a).sig : Int))) := val
  have magnitude : |extValue (significandOf (extFinite a))| = (extFinite a).sig * (2 : ℚ) ^ (1 - (bitLen (extFinite a).sig : Int)) := by
    rw [value, abs_mul, abs_signOf, one_mul, abs_of_nonneg (mul_nonneg (Nat.cast_nonneg _) (two_zpow_pos _).le)]
  refine ⟨?_, ?_, ?_⟩
  · rw [value, mul_assoc, mul_assoc, ← zpow_add₀ two_ne_zero, extValue, Finite.value_eq]
    congr 3
    unfold leading
    omega
  · have := two_pow_leading_le (x := ⟨false, (extFinite a).sig, 1 - (bitLen (extFinite a).sig : Int)⟩) sa
    rw [lead, zpow_zero] at this
    rw [magnitude]
    exact this
  · have := Finite.magnitude_lt ⟨false, (extFinite a).sig, 1 - (bitLen (extFinite a).sig : Int)⟩
    rw [show (1 - (bitLen (extFinite a).sig : Int) + bitLen (extFinite a).sig) = 1 by omega, zpow_one] at this
    rw [magnitude]
    exact this

theorem Fpu.xtract_other (h : ordinary a a = false) : Fpu.xtract a g = settled g (nanResult a a) (fun v g => (g.put 0 v).push v) := by
  rw [Fpu.xtract, beforeDenormal_other h]
  exact Fpu.commit_eq ..

theorem Fpu.xtract_zero (h : extClass a = .zero) :
    Fpu.xtract a g = settled g ⟨extInf true, excZ, false⟩ (fun v g => (g.put 0 v).push a) := by
  rw [Fpu.xtract, beforeDenormal_ordinary (ordinary_self (plain_of_zero h)), if_pos (isZero_iff.2 h), Fpu.commit_eq]
  rfl

theorem Fpu.xtract_infinity (h : extClass a = .infinity) :
    Fpu.xtract a g = settled g ⟨extInf false, 0, false⟩ (fun v g => (g.put 0 v).push a) := by
  have zero : ¬ isZero a = true := by
    rw [isZero_iff, h]
    decide
  rw [Fpu.xtract, beforeDenormal_ordinary (ordinary_self (plain_of_infinity h)), if_neg zero, if_pos (isInf_iff.2 h),
    Fpu.commit_eq]
  rfl

theorem Fpu.xtract_finite (h : finiteExt a = true) (h0 : isZero a = false) :
    Fpu.xtract a g = settled g ((Num.exact (exponentOf (extFinite a))).withDenormal (extClass a).isDenormal)
      (fun v g => (g.put 0 v).push (significandOf (extFinite a))) := by
  rw [Fpu.xtract, beforeDenormal_ordinary (ordinary_self (plain_of_finite h)), if_neg (Bool.eq_false_iff.1 h0),
    if_neg (Bool.eq_false_iff.1 (isInf_of_finite h)), Fpu.commit_eq]
  rfl

/-! ### FPREM and FPREM1 -/

variable {nearest : Bool}

theorem Fpu.premainder_empty (h : g.isEmpty 0 = true ∨ g.isEmpty 1 = true) :
    g.premainder nearest = g.stackFaulted false (fun g => g.put 0 indefinite) := by
  rw [Fpu.premainder, if_pos (Bool.or_eq_true_iff.2 h), Fpu.stackFault_eq]

section
variable (h0 : g.isEmpty 0 = false) (h1 : g.isEmpty 1 = false)
include h0 h1

theorem Fpu.premainder_other (h : ordinary (g.reg 0) (g.reg 1) = false) :
    g.premainder nearest = settled g (nanResult (g.reg 0) (g.reg 1)) (fun v g => g.put 0 v) := by
  rw [Fpu.premainder, h0, h1, if_neg (by decide)]
  simp only [regOperand, beforeDenormal_other h, Fpu.commit_eq]

theorem Fpu.premainder_invalid (h : ordinary (g.reg 0) (g.reg 1) = true)
    (hi : extClass (g.reg 0) = .infinity ∨ extClass (g.reg 1) = .zero) :
    g.premainder nearest = settled g ⟨indefinite, excI, false⟩ (fun v g => (g.put 0 v).setC2 true) := by
  have special : remSpecial (g.reg 0) (g.reg 1) = some (Num.invalid indefinite) :=
    if_pos (Bool.or_eq_true_iff.2 (hi.imp isInf_iff.2 isZero_iff.2))
  rw [Fpu.premainder, h0, h1, if_neg (by decide)]
  simp only [regOperand, beforeDenormal_ordinary h, special, Fpu.commit_eq]
  rfl

theorem Fpu.premainder_runs (h : ordinary (g.reg 0) (g.reg 1) = true) (ha : isInf (g.reg 0) = false) (hb : isZero (g.reg 1) = false) :
    g.premainder nearest = settled g ((remCompute g nearest (g.reg 0) (g.reg 1)).num.withDenormal
      ((extClass (g.reg 0)).isDenormal || (extClass (g.reg 1)).isDenormal))
      (fun v g' => (g'.put 0 v).remCodes (remCompute g nearest (g.reg 0) (g.reg 1))) := by
  have special : remSpecial (g.reg 0) (g.reg 1) = none := if_neg (by rw [ha, hb]; decide)
  rw [Fpu.premainder, h0, h1, if_neg (by decide)]
  simp only [regOperand, beforeDenormal_ordinary h, special, Fpu.commit_eq]

end

end

/-! ### FSQRT and FSCALE -/

section
variable {f : Fpu} {p : Nat} {x y : Operand}

theorem sqrt_negative (h : Plain x.val) (hn : extNeg x.val = true) (h0 : extClass x.val ≠ .zero) :
    numeric1 sqrtSpecial (sqrtCompute f p) x = ⟨indefinite, excI, false⟩ :=
  numeric1_special (ordinary_self h) (if_pos (by rw [hn, show isZero x.val = false from decide_eq_false h0]; rfl))

theorem isDenormal_of_zero {a : Ext} (h : extClass a = .zero) : (extClass a).isDenormal = false := by
  rw [h]
  rfl

theorem isDenormal_of_infinity {a : Ext} (h : extClass a = .infinity) : (extClass a).isDenormal = false := by
  rw [h]
  rfl

theorem sqrt_infinity {a : Ext} (h : extClass a = .infinity) (hn : extNeg a = false) :
    numeric1 sqrtSpecial (sqrtCompute f p) (regOperand a) = ⟨a, 0, false⟩ := by
  rw [numeric1_compute (x := regOperand a) (ordinary_self (plain_of_infinity h))]
  · simp only [regOperand, isDenormal_of_infinity h, withDenormal_false]
    exact if_pos (Bool.or_eq_true_iff.2 (.inr (isInf_iff.2 h)))
  · exact if_neg (by rw [show extNeg (regOperand a).val = false from hn]; exact Bool.noConfusion)

theorem rndint_infinity {a : Ext} (h : extClass a = .infinity) :
    numeric1 (fun _ => none) (rndintCompute f) (regOperand a) = ⟨a, 0, false⟩ := by
  have stays : (isInf a || isZero a || decide ((extFinite a).exp ≥ 0)) = true := by rw [isInf_iff.2 h]; rfl
  rw [numeric1_compute (x := regOperand a) (ordinary_self (plain_of_infinity h)) rfl, regOperand, isDenormal_of_infinity h,
    withDenormal_false]
  exact if_pos stays

theorem scale_invalid (ord : ordinary x.val y.val = true) (h : (extClass x.val = .zero ∧ y.val = extInf false) ∨
    (extClass x.val = .infinity ∧ y.val = extInf true)) : numeric2 scaleSpecial (scaleCompute f) x y = ⟨indefinite, excI, false⟩ := by
  refine numeric2_special ord (if_pos ?_)
  rw [eq_extInf_iff, eq_extInf_iff] at h
  rcases h with ⟨hx, hy, hn⟩ | ⟨hx, hy, hn⟩ <;> simp [isZero, isInf, hx, hy, hn]

theorem scale_stays (ord : ordinary x.val y.val = true) (h : (extClass x.val = .zero ∧ y.val ≠ extInf false) ∨
    (extClass x.val = .infinity ∧ y.val ≠ extInf true)) :
    numeric2 scaleSpecial (scaleCompute f) x y = (⟨x.val, 0, false⟩ : Num).withDenormal (x.den || y.den) := by
  have keeps : (isInf x.val || isZero x.val) = true := by
    rcases h with ⟨hx, -⟩ | ⟨hx, -⟩ <;> simp [isInf, isZero, hx]
  rw [numeric2_compute ord]
  · rw [scaleCompute, if_pos keeps]
    rfl
  · rw [ne_eq, ne_eq, eq_extInf_iff, eq_extInf_iff] at h
    refine if_neg ?_
    rcases h with ⟨hx, hy⟩ | ⟨hx, hy⟩
    · simpa [isZero, isInf, hx] using hy
    · simpa [isZero, isInf, hx] using hy

theorem scale_by_infinity (hx : finiteExt x.val = true) (h0 : extClass x.val ≠ .zero) {neg : Bool} (hy : y.val = extInf neg) :
    numeric2 scaleSpecial (scaleCompute f) x y =
      (⟨if neg then extZero (extNeg x.val) else extInf (extNeg x.val), 0, false⟩ : Num).withDenormal (x.den || y.den) := by
  obtain ⟨inf, hn⟩ := (eq_extInf_iff neg).1 hy
  have zero : isZero x.val = false := decide_eq_false h0
  have fin := isInf_of_finite hx
  rw [numeric2_compute (ordinary_iff_plain.2 ⟨plain_of_finite hx, plain_of_infinity inf⟩)]
  · rw [scaleCompute, fin, zero, if_neg (by decide), if_pos (isInf_iff.2 inf), hn]
    rfl
  · exact if_neg (by simp [fin, zero])

end

/-! ### The instructions -/

section
variable {s : State}

theorem remCompute_zero {f : Fpu} {nearest : Bool} {a b : Ext} (h : extClass a = .zero ∨ extClass b = .infinity) :
    remCompute f nearest a b = ⟨Num.exact a, true, 0⟩ :=
  if_pos (Bool.or_eq_true_iff.2 (h.imp isZero_iff.2 isInf_iff.2))

theorem remCodes_zero (f : Fpu) (n : Num) (complete : Bool) :
    f.remCodes ⟨n, complete, 0⟩ = (f.setCodes false (!complete) false).setC1 false := by
  simp [Fpu.remCodes]

/-- FPREM and FPREM1 differ in how they round the quotient. -/
theorem exec_prem (i : Instr) (hi : i ∈ [Instr.fprem, .fprem1]) (s : State) :
    ∃ nearest : Bool, exec i s = escRegister i (fun u g => (g.freeCodes u).premainder nearest) s := by
  simp only [List.mem_cons, List.not_mem_nil, or_false] at hi
  rcases hi with rfl | rfl
  · exact ⟨false, rfl⟩
  · exact ⟨true, rfl⟩

end

/-- What the instructions give for ordinary operands. -/
theorem otherArithmetic_ordinary (s : State) (he : s.EscReady) (hn : s.NoFpuError) (h0 : s.fpu.isEmpty 0 = false) :
    let g := s.fpu.freeCodes s.draw
    let a := s.fpu.reg 0
    let b := s.fpu.reg 1
    let x := regOperand a
    let gives (i : Instr) (f : Fpu) : Prop := Completes i s (numericDone i none s s.begin f) []
    (∃ p : Nat, s.fpu.rounds p ∧
      gives .fsqrt (settled g (numeric1 sqrtSpecial (sqrtCompute s.fpu p) x) (fun v f => f.put 0 v))) ∧
    gives .frndint (settled g (numeric1 (fun _ => none) (rndintCompute s.fpu) x) (fun v f => f.put 0 v)) ∧
    (s.fpu.isEmpty 1 = false →
      gives .fscale (settled g (numeric2 scaleSpecial (scaleCompute s.fpu) x (regOperand b)) (fun v f => f.put 0 v))) ∧
    (s.fpu.isEmpty 7 = true → finiteExt a = true → isZero a = false → (x.den && !s.fpu.masks.getLsbD 1) = false →
      ∃ (e : Int) (m : Ext), extValue m * (2 : ℚ) ^ e = extValue a ∧ 1 ≤ |extValue m| ∧ |extValue m| < 2 ∧
        gives .fxtract ((((g.raise (excIf x.den excD)).setC1 false).put 0 (ofInt e)).push m)) := by
  intro g a b x gives
  refine ⟨⟨_, s.fpu.precision_rounds (freeChoice s.draw), ?_⟩, ?_, fun h1 => ?_, fun h7 fin nz masked => ?_⟩
  · exact completes_of_escRegister rfl he hn (Fpu.unary_full (g := g) h0)
  · exact completes_of_escRegister rfl he hn (Fpu.unary_full (g := g) h0)
  · exact completes_of_escRegister rfl he hn (Fpu.binary_full (g := g) h0 h1)
  · have value : extValue a ≠ 0 := fun h => Bool.noConfusion (nz.symm.trans ((isZero_iff_value fin).2 h))
    obtain ⟨split, low, high⟩ := significandOf_spec value
    refine ⟨_, _, split, low, high, completes_of_escRegister rfl he hn ?_⟩
    exact (Fpu.extend_full (g := g) h0 h7).trans ((Fpu.xtract_finite (g := g) fin nz).trans (settled_delivers (g := g) masked))

/-- What the remainders give for finite operands. -/
theorem otherArithmetic_remainder (s : State) (he : s.EscReady) (hn : s.NoFpuError) (h0 : s.fpu.isEmpty 0 = false) :
    let g := s.fpu.freeCodes s.draw
    let a := s.fpu.reg 0
    let b := s.fpu.reg 1
    let x := regOperand a
    let gives (i : Instr) (f : Fpu) : Prop := Completes i s (numericDone i none s s.begin f) []
    ∀ nearest : Bool, s.fpu.isEmpty 1 = false → finiteExt a = true → finiteExt b = true → isZero a = false → isZero b = false →
      s.fpu.denormalStops x (regOperand b) = false → s.fpu.masks.getLsbD 4 = true →
      let d := leading (extFinite a).sig (extFinite a).exp - leading (extFinite b).sig (extFinite b).exp
      let i : Instr := if nearest then .fprem1 else .fprem
      let h := g.raise (excIf (x.den || (regOperand b).den) excD)
      (d < 64 → ∃ (q : Nat) (r : Ext), extValue r = (if extNeg a then -1 else 1) * (|extValue a| - q * |extValue b|) ∧
        (if nearest then 2 * |extValue r| ≤ |extValue b| ∧ (2 * |extValue r| = |extValue b| → q % 2 = 0) else |extValue r| < |extValue b| ∧ (q : ℚ) * |extValue b| ≤ |extValue a|) ∧
        gives i (((h.put 0 r).setCodes (q.testBit 1) false (q.testBit 2)).setC1 (q.testBit 0))) ∧
      (64 ≤ d → ∃ (q : Nat) (r : Ext), extValue r = (if extNeg a then -1 else 1) * (|extValue a| - q * |extValue b|) ∧
        |extValue r| < |extValue a| ∧
        gives i (((h.put 0 r).setCodes false true false).setC1 false)) := by
  intro g a b x gives nearest h1 fa fb za zb masked um d i h
  have valA : extValue a ≠ 0 := fun h => Bool.noConfusion (za.symm.trans ((isZero_iff_value fa).2 h))
  have valB : extValue b ≠ 0 := fun h => Bool.noConfusion (zb.symm.trans ((isZero_iff_value fb).2 h))
  have exec : exec i s = escRegister i (fun u g => (g.freeCodes u).premainder nearest) s := by
    cases nearest <;> rfl
  have runs := Fpu.premainder_runs (g := g) (nearest := nearest) h0 h1 (ordinary_of_finite fa fb) (isInf_of_finite fa) zb
  have finite : remCompute g nearest (g.reg 0) (g.reg 1) = remainder g nearest a b :=
    if_neg (by rw [show isZero (g.reg 0) = false from za, show isInf (g.reg 1) = false from isInf_of_finite fb]; decide)
  rw [finite] at runs
  constructor
  · intro hd
    obtain ⟨q, r, rem, value, small⟩ := remainder_complete (f := g) (nearest := nearest) fa valA valB um hd
    rw [rem] at runs
    exact ⟨q, r, value, small, completes_of_escRegister exec he hn (runs.trans (settled_delivers (g := g) masked))⟩
  · intro hd
    obtain ⟨q, r, rem, value, small⟩ := remainder_incomplete (f := g) (nearest := nearest) fa valA valB um hd
    rw [rem] at runs
    simp only [remCodes_zero] at runs
    exact ⟨q, r, value, small, completes_of_escRegister exec he hn (runs.trans (settled_delivers (g := g) masked))⟩

/-- FSCALE of special operands. -/
theorem otherArithmetic_scale (s : State) (he : s.EscReady) (hn : s.NoFpuError) (h0 : s.fpu.isEmpty 0 = false)
    (h1 : s.fpu.isEmpty 1 = false) :
    let g := s.fpu.freeCodes s.draw
    let a := s.fpu.reg 0
    let b := s.fpu.reg 1
    let gives (i : Instr) (f : Fpu) : Prop := Completes i s (numericDone i none s s.begin f) []
    let onTop (v : Ext) (h : Fpu) : Fpu := h.put 0 v
    let met (n : Machine.Num) (x : Ext) : Machine.Num := n.withDenormal (extClass x).isDenormal
    (ordinary a b = false → gives .fscale (settled g (nanResult a b) onTop)) ∧
    (ordinary a b = true →
        ((extClass a = .zero ∧ b = extInf false) ∨ (extClass a = .infinity ∧ b = extInf true) →
          gives .fscale (settled g ⟨indefinite, excI, false⟩ onTop)) ∧
        ((extClass a = .zero ∧ b ≠ extInf false) ∨ (extClass a = .infinity ∧ b ≠ extInf true) →
          gives .fscale (settled g (met ⟨a, 0, false⟩ b) onTop)) ∧
        (finiteExt a = true → extClass a ≠ .zero →
          (b = extInf false → gives .fscale (settled g (met ⟨extInf (extNeg a), 0, false⟩ a) onTop)) ∧
          (b = extInf true → gives .fscale (settled g (met ⟨extZero (extNeg a), 0, false⟩ a) onTop)))) := by
  intro g a b gives onTop met
  have scale {n : Num} (hf : numeric2 scaleSpecial (scaleCompute s.fpu) (regOperand a) (regOperand b) = n) :
      gives .fscale (settled g n onTop) := by
    rw [← hf]
    exact completes_of_escRegister rfl he hn (Fpu.binary_full (g := g) h0 h1)
  refine ⟨fun other => scale (numeric2_other (x := regOperand a) (y := regOperand b) other), fun ord =>
    ⟨fun h => scale (scale_invalid (x := regOperand a) (y := regOperand b) ord h), fun h => ?_, fun fin nz =>
    ⟨fun hb => ?_, fun hb => ?_⟩⟩⟩
  · have den : (extClass a).isDenormal = false := by
      rcases h with ⟨h, -⟩ | ⟨h, -⟩
      · exact isDenormal_of_zero h
      · exact isDenormal_of_infinity h
    refine scale ((scale_stays (x := regOperand a) (y := regOperand b) ord h).trans ?_)
    simp only [regOperand, den, Bool.false_or]
    rfl
  · have den := isDenormal_of_infinity ((eq_extInf_iff false).1 hb).1
    refine scale ((scale_by_infinity (x := regOperand a) (y := regOperand b) fin nz hb).trans ?_)
    simp only [regOperand, den, Bool.or_false]
    rfl
  · have den := isDenormal_of_infinity ((eq_extInf_iff true).1 hb).1
    refine scale ((scale_by_infinity (x := regOperand a) (y := regOperand b) fin nz hb).trans ?_)
    simp only [regOperand, den, Bool.or_false]
    rfl

/-- The remainders of special operands. -/
theorem otherArithmetic_remSpecial (s : State) (he : s.EscReady) (hn : s.NoFpuError) (h0 : s.fpu.isEmpty 0 = false)
    (h1 : s.fpu.isEmpty 1 = false) (i : Instr) (hi : i ∈ [Instr.fprem, .fprem1]) :
    let g := s.fpu.freeCodes s.draw
    let a := s.fpu.reg 0
    let b := s.fpu.reg 1
    let gives (i : Instr) (f : Fpu) : Prop := Completes i s (numericDone i none s s.begin f) []
    let met (n : Machine.Num) (x : Ext) : Machine.Num := n.withDenormal (extClass x).isDenormal
    (ordinary a b = false → gives i (settled g (nanResult a b) (fun v h => h.put 0 v))) ∧
    (ordinary a b = true →
      (extClass a = .infinity ∨ extClass b = .zero →
        gives i (settled g ⟨indefinite, excI, false⟩ (fun v h => (h.put 0 v).setC2 true))) ∧
      (finiteExt a = true → extClass b ≠ .zero → extClass a = .zero ∨ extClass b = .infinity →
        gives i (settled g (met (met ⟨a, 0, false⟩ a) b) (fun v h => ((h.put 0 v).setCodes false false false).setC1 false)))) := by
  intro g a b gives met
  obtain ⟨nearest, exec⟩ := exec_prem i hi s
  have run {f : Fpu} (hf : g.premainder nearest = f) : gives i f := completes_of_escRegister exec he hn hf
  refine ⟨fun other => run (Fpu.premainder_other (g := g) h0 h1 other), fun ord =>
    ⟨fun h => run (Fpu.premainder_invalid (g := g) h0 h1 ord h), fun fin nz h => ?_⟩⟩
  have runs := Fpu.premainder_runs (g := g) (nearest := nearest) h0 h1 ord (isInf_of_finite fin) (decide_eq_false nz)
  rw [remCompute_zero (f := g) (a := g.reg 0) (b := g.reg 1) h] at runs
  simp only [remCodes_zero, withDenormal_or] at runs
  exact run runs

/-- Settles O40: by the classes of the operands; remainders and scaling by `remainder_complete`, `remainder_incomplete` and
`scaleCompute_spec`. -/
theorem fpuOtherArithmetic : Obligations.FpuOtherArithmetic := by
  refine ⟨fun s he hn h0 => ?_, fun s he hn => ?_, fun f a fin => ⟨rndintCompute_spec fin, fun b ha0 hb => scaleCompute_spec fin ha0 hb⟩⟩
  · obtain ⟨root, rnd, scale, xtract⟩ := otherArithmetic_ordinary s he hn h0
    exact ⟨root, rnd, scale, xtract, otherArithmetic_remainder s he hn h0⟩
  · intro f g a b gives onTop twice met
    have reg {i : Instr} {op : BitVec 128 → Fpu → Fpu} {r : Fpu} (hi : exec i s = escRegister i op s) (hf : op s.draw s.fpu = r) :
        gives i r := completes_of_escRegister hi he hn hf
    refine ⟨fun h0 i hi => ?_, fun h i hi => ?_, fun h0 => ?_, fun h0 h7 => ?_, fun h0 => ⟨fun other i hi => ?_, fun ord neg nz => ?_,
      fun inf => ⟨?_, fun pos => ?_⟩⟩, fun h0 h7 => ⟨fun other => ?_, fun zero => ?_, fun inf => ?_⟩, fun h0 h1 => ?_⟩
    · simp only [List.mem_cons, List.not_mem_nil, or_false] at hi
      rcases hi with rfl | rfl <;> exact reg rfl (Fpu.unary_empty (g := g) h0)
    · rcases List.mem_cons.1 hi with rfl | hi
      · exact reg rfl (Fpu.binary_empty (g := g) h)
      · obtain ⟨nearest, exec⟩ := exec_prem i hi s
        exact reg exec (Fpu.premainder_empty (g := g) h)
    · exact reg rfl (Fpu.extend_underflow (g := g) h0)
    · exact reg rfl (Fpu.extend_overflow (g := g) h0 h7)
    · simp only [List.mem_cons, List.not_mem_nil, or_false] at hi
      have result {sp : Ext → Option Num} {cp : Ext → Num} : g.unary (numeric1 sp cp) = settled g (nanResult a a) onTop := by
        rw [Fpu.unary_full (g := g) h0]
        exact congrArg (settled g · onTop) (numeric1_other (x := regOperand a) other)
      rcases hi with rfl | rfl <;> exact reg rfl result
    · have result := Fpu.unary_full (g := g) (op := numeric1 sqrtSpecial (sqrtCompute f (f.precision (freeChoice s.draw)))) h0
      rw [show g.reg 0 = a from rfl, sqrt_negative (x := regOperand a) (ordinary_iff_plain.1 ord).1 neg nz] at result
      exact reg rfl result
    · have result := Fpu.unary_full (g := g) (op := numeric1 (fun _ => none) (rndintCompute f)) h0
      rw [show g.reg 0 = a from rfl, rndint_infinity inf] at result
      exact reg rfl result
    · have result := Fpu.unary_full (g := g) (op := numeric1 sqrtSpecial (sqrtCompute f (f.precision (freeChoice s.draw)))) h0
      rw [show g.reg 0 = a from rfl, sqrt_infinity inf pos] at result
      exact reg rfl result
    · exact reg rfl ((Fpu.extend_full (g := g) h0 h7).trans (Fpu.xtract_other (g := g) other))
    · exact reg rfl ((Fpu.extend_full (g := g) h0 h7).trans (Fpu.xtract_zero (g := g) zero))
    · exact reg rfl ((Fpu.extend_full (g := g) h0 h7).trans (Fpu.xtract_infinity (g := g) inf))
    · obtain ⟨scaleNan, scaleOrd⟩ := otherArithmetic_scale s he hn h0 h1
      have rem := otherArithmetic_remSpecial s he hn h0 h1
      refine ⟨fun other i hi => ?_, fun ord => ?_⟩
      · rcases List.mem_cons.1 hi with rfl | hi
        · exact scaleNan other
        · exact (rem i hi).1 other
      · obtain ⟨invalid, stays, byInf⟩ := scaleOrd ord
        exact ⟨invalid, stays, byInf, fun i hi => (rem i hi).2 ord⟩

end Sys2Proof.Machine
end

section
/-! ## Transcendental functions: values -/
set_option Elab.async false

namespace Sys2Proof.Machine

/-! ### Sizes -/

section
variable {x : Finite} {a : Ext} {k : Int}

/-- The exponent of the leading bit is the size of the number. -/
theorem le_leading_iff (hx : x.sig ≠ 0) : k ≤ leading x.sig x.exp ↔ (2 : ℚ) ^ k ≤ |x.value| := by
  rw [x.abs_value]
  have low := two_pow_leading_le hx
  constructor
  · exact fun h => (zpow_le_zpow_right₀ one_le_two h).trans low
  · intro h
    have lt := h.trans_lt x.magnitude_lt
    rw [zpow_lt_zpow_iff_right₀ one_lt_two] at lt
    unfold leading
    omega

theorem leading_lt_iff (hx : x.sig ≠ 0) : leading x.sig x.exp < k ↔ |x.value| < (2 : ℚ) ^ k := by
  rw [← not_le, le_leading_iff hx, not_le]

theorem leading_zero (h : extClass a = .zero) : leading (extFinite a).sig (extFinite a).exp = -16446 := by
  obtain ⟨he, hs⟩ := extClass_zero_iff.1 h
  simp only [leading, extFinite, he, hs, bitLen_zero]
  rfl

theorem extValue_zero (h : extClass a = .zero) : extValue a = 0 := extValue_eq_zero.2 (extClass_zero_iff.1 h).2

theorem extSig_ne_of_finite (h : finiteExt a = true) (h0 : extClass a ≠ .zero) : (extFinite a).sig ≠ 0 := fun hs =>
  h0 (isZero_iff.1 ((isZero_iff_value h).2 (extValue_eq_zero.2 hs)))

/-- Beyond the range of the trigonometric functions. -/
theorem tooLarge_iff (h : finiteExt a = true) : tooLarge a = true ↔ (2 : ℚ) ^ 63 ≤ |extValue a| := by
  rw [tooLarge, decide_eq_true_iff]
  by_cases h0 : extClass a = .zero
  · rw [leading_zero h0, extValue_zero h0, abs_zero]
    exact ⟨fun h => absurd h (by decide), fun h => absurd h (by norm_num)⟩
  · exact le_leading_iff (k := 63) (extSig_ne_of_finite h h0)

theorem tooLarge_eq_false (h : finiteExt a = true) (lt : |extValue a| < (2 : ℚ) ^ 63) : tooLarge a = false := by
  rw [Bool.eq_false_iff, ne_eq, tooLarge_iff h]
  exact not_le.2 lt

theorem leading_lt_zero_iff (h : finiteExt a = true) (h0 : extClass a ≠ .zero) :
    leading (extFinite a).sig (extFinite a).exp < 0 ↔ |extValue a| < 1 := by
  rw [leading_lt_iff (extSig_ne_of_finite h h0), zpow_zero]
  exact Iff.rfl

theorem logNeg_eq (h : finiteExt a = true) (pos : 0 < extValue a) : logNeg (extFinite a) = decide (extValue a < 1) := by
  have h0 : extClass a ≠ .zero := fun hz => pos.ne' (extValue_zero hz)
  rw [logNeg, decide_eq_decide, leading_lt_zero_iff h h0, abs_of_pos pos]

theorem extNeg_of_pos (pos : 0 < extValue a) : extNeg a = false := by
  by_contra h
  have neg : (extFinite a).neg = true := Bool.eq_true_of_not_eq_false h
  have : extValue a ≤ 0 := by
    rw [extValue, Finite.value_eq, neg]
    have := mul_nonneg (Nat.cast_nonneg (α := ℚ) (extFinite a).sig) (two_zpow_pos (extFinite a).exp).le
    simpa [signOf] using this
  linarith

theorem extNeg_of_neg (neg : extValue a < 0) : extNeg a = true := by
  by_contra h
  have pos : (extFinite a).neg = false := Bool.eq_false_of_not_eq_true h
  have : 0 ≤ extValue a := by
    rw [extValue, Finite.value_eq, pos]
    have := mul_nonneg (Nat.cast_nonneg (α := ℚ) (extFinite a).sig) (two_zpow_pos (extFinite a).exp).le
    simpa [signOf] using this
  linarith

theorem extValue_of_neg (h : extNeg a = true) : extValue a = -|extValue a| := by
  have neg : (extFinite a).neg = true := h
  rw [extValue, Finite.abs_value, Finite.value_eq, neg]
  simp [signOf]

/-! ### One -/

theorem isOne_iff : isOne a = true ↔ extExp a = 0x3FFF ∧ extSig a = 2 ^ 63 := by
  have fields (b : Ext) : extExp (setBit b 79 false) = extExp b ∧ extSig (setBit b 79 false) = extSig b ∧
      extNeg (setBit b 79 false) = false := by
    refine ⟨?_, ?_, ?_⟩
    · refine congrArg BitVec.toNat (BitVec.eq_of_getLsbD_eq fun i hi => ?_)
      rw [BitVec.getLsbD_extractLsb', BitVec.getLsbD_extractLsb', getLsbD_setBit_false, decide_eq_false (show ¬ 79 = 64 + i by omega)]
      simp
    · refine congrArg BitVec.toNat (BitVec.eq_of_getLsbD_eq fun i hi => ?_)
      rw [BitVec.getLsbD_extractLsb', BitVec.getLsbD_extractLsb', getLsbD_setBit_false, decide_eq_false (show ¬ 79 = 0 + i by omega)]
      simp
    · rw [extNeg, getLsbD_setBit_false]
      simp
  obtain ⟨fe, fs, fn⟩ := fields a
  have oneE : extExp extOne = 0x3FFF := by decide
  have oneS : extSig extOne = 2 ^ 63 := by decide
  rw [isOne, decide_eq_true_iff]
  constructor
  · intro h
    rw [← fe, ← fs, h]
    exact ⟨oneE, oneS⟩
  · rintro ⟨he, hs⟩
    refine ext_ext ?_ ?_ ?_
    · rw [fn]
      decide
    · rw [fe, he, oneE]
    · rw [fs, hs, oneS]

theorem abs_value_of_isOne (h : isOne a = true) : |extValue a| = 1 := by
  obtain ⟨he, hs⟩ := isOne_iff.1 h
  rw [extValue, Finite.abs_value]
  simp only [extFinite, he, hs]
  norm_num

theorem isOne_eq_false_of_abs_lt (h : |extValue a| < 1) : isOne a = false := by
  rw [Bool.eq_false_iff]
  exact fun one => h.ne (abs_value_of_isOne one)

/-- Below -1. -/
theorem belowMinusOne_of_lt (h : finiteExt a = true) (lt : extValue a < -1) : belowMinusOne a = true := by
  have neg : extNeg a = true := extNeg_of_neg (by linarith)
  have h0 : extClass a ≠ .zero := fun hz => by
    have := extValue_zero hz
    linarith
  have large : 1 < |extValue a| := by
    rw [abs_of_neg (by linarith)]
    linarith
  have one : isOne a = false := by
    rw [Bool.eq_false_iff]
    exact fun one => large.ne' (abs_value_of_isOne one)
  have lead : 0 ≤ leading (extFinite a).sig (extFinite a).exp := by
    rw [le_leading_iff (extSig_ne_of_finite h h0), zpow_zero]
    exact large.le
  rw [belowMinusOne]
  simp only [show (extFinite a).neg = true from neg, one, Bool.not_false, Bool.true_and, decide_eq_true_eq]
  exact lead

theorem belowMinusOne_eq_false (h : finiteExt a = true) (gt : -1 < extValue a) : belowMinusOne a = false := by
  rw [Bool.eq_false_iff]
  intro below
  rw [belowMinusOne] at below
  simp only [Bool.and_eq_true, decide_eq_true_eq, ge_iff_le] at below
  obtain ⟨⟨neg, -⟩, lead⟩ := below
  have h0 : extClass a ≠ .zero := fun hz => by
    rw [leading_zero hz] at lead
    omega
  rw [le_leading_iff (extSig_ne_of_finite h h0), zpow_zero] at lead
  have value := extValue_of_neg (a := a) neg
  have large : 1 ≤ |extValue a| := lead
  linarith

/-! ### Powers of two -/

theorem isPower_iff (hx : x.sig ≠ 0) : isPower x = true ↔ (x.sig : ℚ) * (2 : ℚ) ^ x.exp = (2 : ℚ) ^ leading x.sig x.exp := by
  have pos := bitLen_pos hx
  have split : (2 : ℚ) ^ leading x.sig x.exp = (2 ^ (bitLen x.sig - 1) : Nat) * (2 : ℚ) ^ x.exp := by
    rw [Nat.cast_pow, Nat.cast_two, ← zpow_natCast, ← zpow_add₀ two_ne_zero]
    congr 1
    unfold leading
    omega
  rw [isPower, beq_iff_eq, split, mul_left_inj' (two_zpow_pos _).ne', Nat.cast_inj]

/-- A power of two is that of its leading bit. -/
theorem eq_leading_of_power (hx : x.sig ≠ 0) {e : Int} (h : (x.sig : ℚ) * (2 : ℚ) ^ x.exp = (2 : ℚ) ^ e) :
    e = leading x.sig x.exp := by
  refine le_antisymm ?_ ?_
  · rw [le_leading_iff hx, x.abs_value, h]
  · have low := two_pow_leading_le hx
    rw [h] at low
    exact (zpow_le_zpow_iff_right₀ one_lt_two).1 low

/-! ### The range of FYL2XP1 -/

theorem inLogRange_of (h : finiteExt a = true) (h0 : extClass a ≠ .zero) (lt : |extValue a| < 1)
    (range : 1 ≤ 2 * (1 - |extValue a|) ^ 2) : inLogRange (extFinite a) = true := by
  have lead := (leading_lt_zero_iff h h0).2 lt
  have sig := extSig_ne_of_finite h h0
  have absA : |extValue a| = (extFinite a).sig * (2 : ℚ) ^ (extFinite a).exp := Finite.abs_value _
  generalize extFinite a = x at *
  have neg : x.exp ≤ 0 := by
    have := bitLen_pos sig
    unfold leading at lead
    omega
  have unit : (2 : ℚ) ^ x.exp * (2 ^ (-x.exp).toNat : Nat) = 1 := by
    rw [Nat.cast_pow, Nat.cast_two, ← zpow_natCast, ← zpow_add₀ two_ne_zero, show x.exp + ((-x.exp).toNat : Int) = 0 by omega,
      zpow_zero]
  rw [inLogRange, Bool.and_eq_true, decide_eq_true_eq, decide_eq_true_eq]
  refine ⟨lead, ?_⟩
  generalize hd : 2 ^ (-x.exp).toNat = d at unit ⊢
  have dpos : (0 : ℚ) < d := by
    rw [← hd]
    positivity
  have sigEq : (x.sig : ℚ) = |extValue a| * d := by rw [absA, mul_assoc, unit, mul_one]
  have le : x.sig ≤ d := by
    have : (x.sig : ℚ) ≤ d := by
      rw [sigEq]
      nlinarith
    exact_mod_cast this
  have goal : (d : ℚ) * d ≤ 2 * ((d - x.sig : Nat) : ℚ) * ((d - x.sig : Nat) : ℚ) := by
    rw [Nat.cast_sub le, sigEq]
    nlinarith [mul_pos dpos dpos]
  exact_mod_cast goal

end

end Sys2Proof.Machine
end

section
/-! ## Transcendental functions: rounding and accuracy -/
set_option Elab.async false

namespace Sys2Proof.Machine

/-! ### What rounding to a register raises -/

section
variable {f : Fpu} {p : Nat} {x : Finite} {rc : BitVec 2} {unit : Int}

theorem roundAt_exact_not_up (h : (roundAt rc x unit).inexact = false) : (roundAt rc x unit).up = false := by
  have means := roundAt_means rc x unit
  rw [Bool.eq_false_iff] at h ⊢
  exact fun up => h (means.inexact_iff.2 (means.up_iff.1 up).ne')

/-- Rounding raises no more than O, U and P, and C1 is set only beside P. -/
structure Num.Rounds (n : Num) : Prop where
  low : n.exc &&& 7 = 0
  up : n.exc.getLsbD 5 = false → n.up = false

theorem rounds_exact (v : Ext) : (Num.exact v).Rounds := ⟨BitVec.zero_and, fun _ => rfl⟩

theorem precision_met (e : Exns) : (e ||| excP).getLsbD 5 = true := by
  revert e
  decide

theorem rounds_met (v : Ext) (up : Bool) {e : Exns} (he : e &&& 7 = 0) : Num.Rounds ⟨v, e ||| excP, up⟩ := by
  have low : ∀ e : Exns, e &&& 7 = 0 → (e ||| excP) &&& 7 = 0 := by decide
  exact ⟨low e he, fun h => Bool.noConfusion (h.symm.trans (precision_met e))⟩

theorem rounds_excIf (e : Exns) (he : e &&& 7 = 0) (v : Ext) (r : Rounded) (hr : r.inexact = false → r.up = false) :
    Num.Rounds ⟨v, e ||| excIf r.inexact excP, r.up⟩ := by
  cases hi : r.inexact with
  | true => exact rounds_met v r.up he
  | false =>
    have same : e ||| 0 = e := BitVec.or_zero
    exact ⟨(congrArg (· &&& 7) same).trans he, fun _ => hr hi⟩

theorem roundReg_rounds (f : Fpu) (p : Nat) (x : Finite) : (roundReg f p x).Rounds := by
  by_cases h0 : x.sig = 0
  · rw [roundReg_zero h0]
    exact rounds_exact _
  · rcases lt_or_ge 16383 (leading (roundAt f.rc x (unitFor p x)).q (unitFor p x)) with high | hi
    · rw [roundReg_over h0 high]
      cases hm : f.masks.getLsbD 3 with
      | true =>
        rw [overflowReg_masked hm]
        exact rounds_met _ _ (by decide)
      | false =>
        rcases lt_or_ge (16383 + 24576) (leading (roundAt f.rc x (unitFor p x)).q (unitFor p x)) with far | near
        · rw [overflowReg_inf hm far]
          exact rounds_met _ _ (by decide)
        · rw [overflowReg_scaled hm near]
          exact rounds_excIf excO (by decide) _ _ roundAt_exact_not_up
    · rcases lt_or_ge (leading (roundAt f.rc x (unitFor p x)).q (unitFor p x)) (-16382) with tiny | lo
      · rw [roundReg_tiny h0 tiny]
        cases hm : f.masks.getLsbD 4 with
        | true =>
          rw [tinyReg_masked hm]
          cases hi : (roundAt f.rc x (-16381 - p)).inexact with
          | false => exact ⟨BitVec.zero_and, fun _ => roundAt_exact_not_up hi⟩
          | true => exact rounds_met _ _ (by decide)
        | false =>
          rcases lt_or_ge (leading (roundAt f.rc x (unitFor p x)).q (unitFor p x)) (-16382 - 24576) with far | near
          · rw [tinyReg_zero hm far]
            exact rounds_met _ _ (by decide)
          · rw [tinyReg_scaled hm near]
            exact rounds_excIf excU (by decide) _ _ roundAt_exact_not_up
      · rw [roundReg_range h0 lo hi]
        have same : (0 : Exns) ||| excIf (roundAt f.rc x (unitFor p x)).inexact excP =
          excIf (roundAt f.rc x (unitFor p x)).inexact excP := BitVec.zero_or
        rw [← same]
        exact rounds_excIf 0 (by decide) _ _ roundAt_exact_not_up

end

/-! ### Values that are not exact -/

section
variable {x a : Finite} {rc : BitVec 2} {unit : Int} {f : Fpu}

theorem notExact_sig_ge (hx : x.sig ≠ 0) : 2 ^ 127 ≤ x.notExact.sig := by
  show 2 ^ 127 ≤ x.sig * 2 ^ 128 - 1
  have : 1 * 2 ^ 128 ≤ x.sig * 2 ^ 128 := Nat.mul_le_mul_right _ (Nat.pos_of_ne_zero hx)
  omega

theorem notExact_sig_ne (hx : x.sig ≠ 0) : x.notExact.sig ≠ 0 := by
  have := notExact_sig_ge hx
  omega

theorem notExact_unit (hx : x.sig ≠ 0) : x.notExact.exp < unitFor 64 x.notExact := by
  have := lt_bitLen.2 (notExact_sig_ge hx)
  unfold unitFor
  omega

/-- No multiple of a unit above the last place is met. -/
theorem notExact_inexact (hx : x.sig ≠ 0) (h : x.notExact.exp < unit) : (roundAt rc x.notExact unit).inexact = true := by
  obtain ⟨d, hd⟩ := Nat.exists_eq_succ_of_ne_zero (show (unit - x.notExact.exp).toNat ≠ 0 by omega)
  have odd : x.notExact.sig % 2 = 1 := by
    have : 0 < x.sig * 2 ^ 128 := Nat.mul_pos (Nat.pos_of_ne_zero hx) (Nat.two_pow_pos _)
    show (x.sig * 2 ^ 128 - 1) % 2 = 1
    omega
  have rest : x.notExact.sig % 2 ^ (unit - x.notExact.exp).toNat ≠ 0 := by
    intro zero
    have : 2 ∣ x.notExact.sig := (Dvd.intro_left _ (by rw [hd, Nat.pow_succ])).trans (Nat.dvd_of_mod_eq_zero zero)
    omega
  rw [roundAt, if_neg (not_le.2 h)]
  exact bne_iff_ne.2 rest

theorem roundReg_notExact (f : Fpu) (hx : x.sig ≠ 0) : (roundReg f 64 x.notExact).exc.getLsbD 5 = true := by
  have h0 := notExact_sig_ne hx
  have inexact : (roundAt f.rc x.notExact (unitFor 64 x.notExact)).inexact = true := notExact_inexact hx (notExact_unit hx)
  rcases lt_or_ge 16383 (leading (roundAt f.rc x.notExact (unitFor 64 x.notExact)).q (unitFor 64 x.notExact)) with high | hi
  · rw [roundReg_over h0 high]
    cases hm : f.masks.getLsbD 3 with
    | true => rw [overflowReg_masked hm]; exact precision_met _
    | false =>
      rcases lt_or_ge (16383 + 24576) (leading (roundAt f.rc x.notExact (unitFor 64 x.notExact)).q (unitFor 64 x.notExact)) with
        far | near
      · rw [overflowReg_inf hm far]; exact precision_met _
      · rw [overflowReg_scaled hm near, inexact]; exact precision_met _
  · rcases lt_or_ge (leading (roundAt f.rc x.notExact (unitFor 64 x.notExact)).q (unitFor 64 x.notExact)) (-16382) with tiny | lo
    · rw [roundReg_tiny h0 tiny]
      cases hm : f.masks.getLsbD 4 with
      | true =>
        have low : x.notExact.exp < -16381 - (64 : Nat) := by
          have := lt_bitLen.2 (notExact_sig_ge hx)
          have := bitLen_roundAt f.rc h0 (p := 64) (by decide)
          unfold leading unitFor at *
          omega
        rw [tinyReg_masked hm, notExact_inexact hx low]
        exact precision_met _
      | false =>
        rcases lt_or_ge (leading (roundAt f.rc x.notExact (unitFor 64 x.notExact)).q (unitFor 64 x.notExact)) (-16382 - 24576) with
          far | near
        · rw [tinyReg_zero hm far]; exact precision_met _
        · rw [tinyReg_scaled hm near, inexact]; exact precision_met _
    · rw [roundReg_range h0 lo hi, inexact]
      show excP.getLsbD 5 = true
      decide

/-! ### Closeness to the approximation -/

/-- What a value `w` rounds to lies within 2^-62 of `a`, relatively, and has its sign. -/
structure RoundsNear (rc : BitVec 2) (w a : Finite) : Prop where
  neg : w.neg = a.neg
  close : |((roundAt rc w (unitFor 64 w)).q : ℚ) * (2 : ℚ) ^ unitFor 64 w - a.sig * (2 : ℚ) ^ a.exp| * 2 ^ 62 <
    a.sig * (2 : ℚ) ^ a.exp

theorem roundsNear_of_withinBound (h : withinBound rc x a = true) : RoundsNear rc x a := by
  unfold withinBound at h
  simp only [Bool.and_eq_true, beq_iff_eq, decide_eq_true_eq] at h
  obtain ⟨neg, close⟩ := h
  refine ⟨neg, ?_⟩
  have hu := min_le_left (unitFor 64 x) a.exp
  rw [magnitude_in a (min_le_right (unitFor 64 x) a.exp)]
  have left : ((roundAt rc x (unitFor 64 x)).q : ℚ) * (2 : ℚ) ^ unitFor 64 x =
      ((roundAt rc x (unitFor 64 x)).q * 2 ^ (unitFor 64 x - min (unitFor 64 x) a.exp).toNat : Nat) *
        (2 : ℚ) ^ (min (unitFor 64 x) a.exp) := magnitude_in ⟨false, (roundAt rc x (unitFor 64 x)).q, unitFor 64 x⟩ hu
  rw [left]
  have upos := two_zpow_pos (min (unitFor 64 x) a.exp)
  generalize (roundAt rc x (unitFor 64 x)).q * 2 ^ (unitFor 64 x - min (unitFor 64 x) a.exp).toNat = m at *
  generalize a.sig * 2 ^ (a.exp - min (unitFor 64 x) a.exp).toNat = n at *
  rw [← sub_mul, abs_mul, abs_of_pos upos, mul_right_comm]
  refine mul_lt_mul_of_pos_right ?_ upos
  have bound : ((m : Int) - n).natAbs * 2 ^ 62 < n := close.trans_le (Nat.sub_le _ _)
  have cast : |(m : ℚ) - n| = (((m : Int) - n).natAbs : ℚ) := by
    rw [Nat.cast_natAbs, Int.cast_abs]
    push_cast
    rfl
  rw [cast]
  exact_mod_cast bound

theorem notExact_magnitude (hx : x.sig ≠ 0) : (x.notExact.sig : ℚ) * (2 : ℚ) ^ x.notExact.exp =
    x.sig * (2 : ℚ) ^ x.exp - (2 : ℚ) ^ (x.exp - 128) := by
  have : 0 < x.sig * 2 ^ 128 := Nat.mul_pos (Nat.pos_of_ne_zero hx) (Nat.two_pow_pos _)
  have cast : (x.notExact.sig : ℚ) = x.sig * 2 ^ 128 - 1 := by
    show ((x.sig * 2 ^ 128 - 1 : Nat) : ℚ) = _
    rw [Nat.cast_sub this, Nat.cast_mul, Nat.cast_pow, Nat.cast_two, Nat.cast_one]
  rw [cast]
  show (x.sig * 2 ^ 128 - 1 : ℚ) * (2 : ℚ) ^ (x.exp - 128) = _
  rw [sub_mul, one_mul, mul_pow_mul_zpow _ (show ((128 : Nat) : Int) + (x.exp - 128) = x.exp by omega)]

theorem near_of_ulp {r t δ u : ℚ} (close : |r - (t - δ)| < u) (ulp : u * 2 ^ 63 ≤ t - δ) (dust : δ * 2 ^ 66 ≤ t) (pos : 0 < δ) :
    |r - t| * 2 ^ 62 < t := by
  have tri : |r - t| ≤ |r - (t - δ)| + δ := by
    have := abs_sub_le r (t - δ) t
    rwa [show t - δ - t = -δ by ring, abs_neg, abs_of_pos pos] at this
  linarith

theorem unit_mul_pow (x : Finite) : (2 : ℚ) ^ unitFor 64 x * 2 ^ 63 = (2 : ℚ) ^ leading x.sig x.exp := by
  rw [show (2 : ℚ) ^ 63 = (2 : ℚ) ^ (63 : Int) from (zpow_natCast 2 63).symm, ← zpow_add₀ two_ne_zero]
  congr 1
  unfold unitFor leading
  omega

/-- What is taken away from a number that is not exact. -/
theorem dust_pos (a : Finite) : (0 : ℚ) < (2 : ℚ) ^ (a.exp - 128) := two_zpow_pos _

theorem dust_le (ha : a.sig ≠ 0) : (2 : ℚ) ^ (a.exp - 128) * 2 ^ 66 ≤ a.sig * (2 : ℚ) ^ a.exp := by
  have one : (1 : ℚ) ≤ a.sig := by exact_mod_cast Nat.pos_of_ne_zero ha
  calc (2 : ℚ) ^ (a.exp - 128) * 2 ^ 66 = (2 : ℚ) ^ (a.exp - 62) := by
        rw [show (2 : ℚ) ^ 66 = (2 : ℚ) ^ (66 : Int) from (zpow_natCast 2 66).symm, ← zpow_add₀ two_ne_zero]
        congr 1
        omega
    _ ≤ (2 : ℚ) ^ a.exp := zpow_le_zpow_right₀ one_le_two (by omega)
    _ ≤ a.sig * (2 : ℚ) ^ a.exp := le_mul_of_one_le_left (two_zpow_pos _).le one

theorem notExact_close (rc : BitVec 2) (ha : a.sig ≠ 0) :
    |((roundAt rc a.notExact (unitFor 64 a.notExact)).q : ℚ) * (2 : ℚ) ^ unitFor 64 a.notExact -
      (a.sig * (2 : ℚ) ^ a.exp - (2 : ℚ) ^ (a.exp - 128))| < (2 : ℚ) ^ unitFor 64 a.notExact := by
  have close := (roundAt_means rc a.notExact (unitFor 64 a.notExact)).close
  rwa [notExact_magnitude ha] at close

theorem notExact_ulp (ha : a.sig ≠ 0) :
    (2 : ℚ) ^ unitFor 64 a.notExact * 2 ^ 63 ≤ a.sig * (2 : ℚ) ^ a.exp - (2 : ℚ) ^ (a.exp - 128) := by
  have low := two_pow_leading_le (notExact_sig_ne ha)
  rw [notExact_magnitude ha] at low
  exact (unit_mul_pow a.notExact).trans_le low

theorem Finite.neg_mk (neg : Bool) (sig : Nat) (exp : Int) : (Finite.mk neg sig exp).neg = neg := rfl

theorem notExact_neg (x : Finite) : x.notExact.neg = x.neg := Finite.neg_mk x.neg _ _

theorem roundsNear_notExact (ha : a.sig ≠ 0) : RoundsNear rc a.notExact a :=
  ⟨notExact_neg a, near_of_ulp (notExact_close rc ha) (notExact_ulp ha) (dust_le ha) (dust_pos a)⟩

/-- A number so near another lies between its half and its double. -/
theorem between_of_near {r t : ℚ} (h : |r - t| * 2 ^ 62 < t) : t < 2 * r ∧ r < 2 * t := by
  have nonneg := abs_nonneg (r - t)
  obtain ⟨lo, hi⟩ := abs_le.1 (le_refl |r - t|)
  constructor <;> linarith

/-- Zero rounds near no other number. -/
theorem not_roundsNear_zero {w : Finite} (ha : a.sig ≠ 0) (hw : w.sig = 0) : ¬ RoundsNear rc w a := by
  intro near
  have zero : roundAt rc w (unitFor 64 w) = ⟨0, false, false⟩ := roundAt_exact (by rw [hw]; simp)
  have between := (between_of_near near.close).1
  have pos : (0 : ℚ) < a.sig * (2 : ℚ) ^ a.exp :=
    mul_pos (by exact_mod_cast Nat.pos_of_ne_zero ha) (two_zpow_pos _)
  rw [zero, Nat.cast_zero, zero_mul, mul_zero] at between
  exact absurd pos (not_lt.2 between.le)

/-- A number near one well within the range of exponents is within it. -/
theorem RoundsNear.range {w : Finite} (h : RoundsNear rc w a) (ha : a.sig ≠ 0) (lo : -16381 ≤ leading a.sig a.exp)
    (hi : leading a.sig a.exp ≤ 16382) : -16382 ≤ leading (roundAt rc w (unitFor 64 w)).q (unitFor 64 w) ∧
      leading (roundAt rc w (unitFor 64 w)).q (unitFor 64 w) ≤ 16383 := by
  obtain ⟨half, twice⟩ := between_of_near h.close
  have below : 2 * (2 : ℚ) ^ (-16382 : Int) ≤ a.sig * (2 : ℚ) ^ a.exp := by
    rw [← zpow_one_add₀ two_ne_zero]
    exact (zpow_le_zpow_right₀ one_le_two lo).trans (two_pow_leading_le ha)
  have above : 2 * (a.sig * (2 : ℚ) ^ a.exp) < (2 : ℚ) ^ (16384 : Int) := by
    rw [show (16384 : Int) = 1 + 16383 by decide, zpow_one_add₀ two_ne_zero]
    refine mul_lt_mul_of_pos_left (a.magnitude_lt.trans_le (zpow_le_zpow_right₀ one_le_two ?_)) two_pos
    unfold leading at hi
    omega
  have rlo : (2 : ℚ) ^ (-16382 : Int) ≤ (roundAt rc w (unitFor 64 w)).q * (2 : ℚ) ^ unitFor 64 w :=
    (lt_of_mul_lt_mul_left (below.trans_lt half) two_pos.le).le
  have rhi : ((roundAt rc w (unitFor 64 w)).q : ℚ) * (2 : ℚ) ^ unitFor 64 w < (2 : ℚ) ^ (16384 : Int) := twice.trans above
  have q0 : (roundAt rc w (unitFor 64 w)).q ≠ 0 := by
    intro zero
    rw [zero, Nat.cast_zero, zero_mul] at rlo
    exact absurd (two_zpow_pos (-16382)) (not_lt.2 rlo)
  have le := le_leading_iff (x := ⟨false, (roundAt rc w (unitFor 64 w)).q, unitFor 64 w⟩) (k := -16382) q0
  have lt := leading_lt_iff (x := ⟨false, (roundAt rc w (unitFor 64 w)).q, unitFor 64 w⟩) (k := 16384) q0
  rw [Finite.abs_value] at le lt
  have := le.2 rlo
  have := lt.2 rhi
  dsimp only at *
  omega

end

/-! ### `transc` -/

section
variable {f : Fpu} {op : Transc} {x y : Ext}

/-- The value before rounding lies next below a nonzero one, and rounds near the approximation. -/
theorem transcValue_spec (ha : (transcApprox op (extFinite x) (extFinite y)).sig ≠ 0) :
    ∃ w : Finite, w.sig ≠ 0 ∧ transcValue f op x y = w.notExact ∧
      RoundsNear f.rc w.notExact (transcApprox op (extFinite x) (extFinite y)) := by
  unfold transcValue
  generalize transcApprox op (extFinite x) (extFinite y) = a at *
  obtain ⟨neg, sig, exp⟩ := Config.transc op x y f.rc f.pc
  dsimp only
  split
  next h =>
    have within := (Bool.and_eq_true_iff.1 h).1
    refine ⟨_, fun zero => ?_, rfl, roundsNear_of_withinBound within⟩
    have none : Finite.sig (Finite.notExact ⟨neg, sig, exp⟩) = 0 := by
      show sig * 2 ^ 128 - 1 = 0
      rw [show sig = 0 from zero, Nat.zero_mul]
    exact not_roundsNear_zero ha none (roundsNear_of_withinBound within)
  next => exact ⟨a, ha, rfl, roundsNear_notExact ha⟩

/-- P is met, and the result lies within 2^-62 of the approximation. -/
theorem transc_spec (ha : (transcApprox op (extFinite x) (extFinite y)).sig ≠ 0) :
    (transc f op x y).exc.getLsbD 5 = true ∧
      (-16381 ≤ leading (transcApprox op (extFinite x) (extFinite y)).sig (transcApprox op (extFinite x) (extFinite y)).exp →
        leading (transcApprox op (extFinite x) (extFinite y)).sig (transcApprox op (extFinite x) (extFinite y)).exp ≤ 16382 →
        (transc f op x y).exc = excP ∧ finiteExt (transc f op x y).val = true ∧
          extNeg (transc f op x y).val = (transcApprox op (extFinite x) (extFinite y)).neg ∧
          |extValue (transc f op x y).val - (transcApprox op (extFinite x) (extFinite y)).value| * 2 ^ 62 <
            |(transcApprox op (extFinite x) (extFinite y)).value|) := by
  obtain ⟨w, hw, value, near⟩ := transcValue_spec (f := f) ha
  rw [transc, value]
  generalize transcApprox op (extFinite x) (extFinite y) = a at *
  refine ⟨roundReg_notExact f hw, fun lo hi => ?_⟩
  have h0 := notExact_sig_ne hw
  obtain ⟨rlo, rhi⟩ := near.range ha lo hi
  obtain ⟨fin, neg, val⟩ := extEncode_rounded f.rc h0 (by decide) (le_refl 64) rlo rhi
  rw [roundReg_range h0 rlo rhi, notExact_inexact hw (notExact_unit hw)]
  refine ⟨rfl, fin, neg.trans near.neg, ?_⟩
  rw [a.abs_value]
  show |extValue (extEncode _ _ _) - a.value| * 2 ^ 62 < _
  rw [val, near.neg, a.value_eq, ← mul_sub, abs_mul, abs_signOf, one_mul]
  exact near.close

end

end Sys2Proof.Machine
end

section
/-! ## Transcendental instructions: the cases of their operands -/
set_option Elab.async false

namespace Sys2Proof.Machine

/-! ### Results that are delivered -/

section
variable {f g : Fpu} {n : Num} {w : Ext → Fpu → Fpu} {den : Bool} {u : BitVec 128}

theorem excIf_low (den : Bool) : excIf den excD &&& 7 = excIf den excD := by
  cases den <;> decide

theorem withDenormal_low (h : n.exc &&& 7 = 0) (den : Bool) : (n.withDenormal den).exc &&& 7 = excIf den excD := by
  show (n.exc ||| excIf den excD) &&& 7 = _
  rw [BitVec.and_or_distrib_right, h, excIf_low]
  exact BitVec.zero_or

/-- A result that raises no I and no Z is delivered unless D is unmasked. -/
theorem settled_low (h : n.exc &&& 7 = 0) (hd : (den && !g.masks.getLsbD 1) = false) :
    settled g (n.withDenormal den) w = w n.val ((g.raise (n.withDenormal den).exc).setC1 n.up) := by
  refine if_pos ?_
  rw [withDenormal_low h]
  cases den with
  | false => exact BitVec.zero_and
  | true =>
    have masked : g.masks.getLsbD 1 = true := by simpa using hd
    have free : (excD &&& ~~~g.masks != 0) = false := by rw [unmasked_excD, masked]; rfl
    have off : excD &&& ~~~g.masks = 0 := by simpa using free
    exact off

/-- With I, D and Z masked every result is delivered. -/
theorem settled_masked (h : g.masks &&& 7 = 7) : settled g n w = w n.val ((g.raise n.exc).setC1 n.up) := by
  refine if_pos ?_
  have : ∀ e m : Exns, m &&& 7 = 7 → e &&& 7 &&& ~~~m = 0 := by decide
  exact this _ _ h

/-- C1 is set only beside P. -/
def Num.Sound (n : Num) : Prop := n.exc.getLsbD 5 = false → n.up = false

theorem Num.Rounds.sound (h : n.Rounds) (den : Bool) : (n.withDenormal den).Sound := by
  intro e
  refine h.up ?_
  have : ∀ e : Exns, (e ||| excIf den excD).getLsbD 5 = false → e.getLsbD 5 = false := by
    cases den <;> decide
  exact this _ e

theorem undefinedResult_rounds (u : BitVec 128) : (undefinedResult u).Rounds := by
  unfold undefinedResult
  cases u.getLsbD 80 with
  | false => exact ⟨BitVec.zero_and, fun _ => rfl⟩
  | true =>
    refine ⟨by show excP &&& 7 = 0; decide, fun h => ?_⟩
    have met : excP.getLsbD 5 = true := by decide
    exact Bool.noConfusion (h.symm.trans met)

theorem numeric2_sound {sp : Ext → Ext → Option Num} {cp : Ext → Ext → Num} {x y : Operand} (ord : ordinary x.val y.val = true)
    (hs : ∀ n, sp x.val y.val = some n → n.up = false) (hc : (cp x.val y.val).Rounds) : (numeric2 sp cp x y).Sound := by
  cases h : sp x.val y.val with
  | none =>
    rw [numeric2_compute ord h]
    exact hc.sound _
  | some n =>
    rw [numeric2_special ord h]
    exact fun _ => hs n h

/-! ### Trigonometric instructions -/

variable {a : Ext} {value : Fpu → Fpu}

theorem Fpu.trig_other (h : ordinary a a = false) : g.trig a w value u = settled g (nanResult a a) w := by
  rw [Fpu.trig, beforeDenormal_other h]
  exact Fpu.commit_eq ..

theorem Fpu.trig_infinity (h : extClass a = .infinity) :
    g.trig a w value u = settled g ⟨indefinite, excI, false⟩ (fun v k => ((w v k).setC2 true).setC1 (u.getLsbD 3)) := by
  rw [Fpu.trig, beforeDenormal_ordinary (ordinary_self (plain_of_infinity h)), if_pos (isInf_iff.2 h)]
  exact Fpu.commit_eq ..

theorem Fpu.trig_finite (h : finiteExt a = true) :
    g.trig a w value u = if tooLarge a then (g.setC2 true).setC1 (u.getLsbD 3) else value (g.setC2 false) := by
  rw [Fpu.trig, beforeDenormal_ordinary (ordinary_self (plain_of_finite h)),
    if_neg (Bool.eq_false_iff.1 (isInf_of_finite h))]

theorem Fpu.trig1_full {op : Transc} (h : g.isEmpty 0 = false) : g.trig1 op u = g.trig (g.reg 0) (fun v k => k.put 0 v)
    (fun k => settled k ((trigValue k op (g.reg 0)).withDenormal (extClass (g.reg 0)).isDenormal) (fun v k => k.put 0 v)) u := by
  rw [Fpu.trig1, if_neg (Bool.eq_false_iff.1 h)]
  simp only [Fpu.commit_eq]

theorem Fpu.trig1_empty {op : Transc} (h : g.isEmpty 0 = true) :
    g.trig1 op u = g.stackFaulted false (fun k => k.put 0 indefinite) := by
  rw [Fpu.trig1, if_pos h, Fpu.stackFault_eq]

theorem trigValue_zero (op : Transc) (hop : op ≠ .cos) (h : extClass a = .zero) : trigValue f op a = Num.exact a := by
  refine (if_pos (isZero_iff.2 h)).trans ?_
  cases op
  case cos => exact absurd rfl hop
  all_goals rfl

theorem trigValue_cos_zero (h : extClass a = .zero) : trigValue f .cos a = Num.exact extOne := if_pos (isZero_iff.2 h)

theorem trigValue_nonzero (op : Transc) (h : extClass a ≠ .zero) : trigValue f op a = transc f op a a :=
  if_neg (fun hz => h (isZero_iff.1 hz))

theorem trigValue_rounds (f : Fpu) (op : Transc) (a : Ext) : (trigValue f op a).Rounds := by
  by_cases h : extClass a = .zero
  · by_cases hop : op = .cos
    · rw [hop, trigValue_cos_zero h]
      exact rounds_exact _
    · rw [trigValue_zero op hop h]
      exact rounds_exact _
  · rw [trigValue_nonzero op h]
    exact roundReg_rounds ..

/-- What FPTAN and FSINCOS do with a finite operand. -/
def tangentValue (a : Ext) (k : Fpu) : Fpu :=
  settled k ((trigValue k .tan a).withDenormal (extClass a).isDenormal) (fun v k => (k.put 0 v).push extOne)

def sineCosineValue (a : Ext) (k : Fpu) : Fpu :=
  settled k (((trigValue k .sin a).also (trigValue k .cos a)).withDenormal (extClass a).isDenormal)
    (fun v h => (h.put 0 v).push (trigValue k .cos a).val)

theorem exec_fptan (s : State) : exec .fptan s = escRegister .fptan
    (fun u g => (g.freeCodes u).extend (fun a f => f.trig a (fun v h => (h.put 0 v).push v) (tangentValue a) u)) s := by
  show execFptan s = _
  simp only [execFptan, Fpu.commit_eq]
  rfl

theorem exec_fsincos (s : State) : exec .fsincos s = escRegister .fsincos
    (fun u g => (g.freeCodes u).extend (fun a f => f.trig a (fun v h => (h.put 0 v).push v) (sineCosineValue a) u)) s := by
  show execFsincos s = _
  simp only [execFsincos, Fpu.commit_eq]
  rfl

/-! ### F2XM1 -/

theorem exp2m1Compute_rounds (f : Fpu) (u : BitVec 128) (a : Ext) : (exp2m1Compute f u a).Rounds := by
  unfold exp2m1Compute
  dsimp only
  split_ifs
  · exact rounds_exact _
  · exact rounds_exact _
  · exact rounds_exact _
  · exact rounds_exact _
  · exact rounds_exact _
  · exact undefinedResult_rounds u
  · exact roundReg_rounds ..

/-- F2XM1 of an ordinary operand. -/
theorem f2xm1_ordinary (h : g.isEmpty 0 = false) (hp : Plain (g.reg 0)) (u : BitVec 128) :
    g.unary (numeric1 (fun _ => none) (exp2m1Compute f u)) =
      settled g ((exp2m1Compute f u (g.reg 0)).withDenormal (extClass (g.reg 0)).isDenormal) (fun v k => k.put 0 v) := by
  rw [Fpu.unary_full h, numeric1_compute (x := regOperand (g.reg 0)) (ordinary_self hp) rfl]
  rfl

/-! ### Instructions that replace ST(1) and pop -/

/-- The operation of an instruction on Y = ST(1) and X = ST(0). -/
theorem Fpu.popping_full {op : Operand → Operand → Num} (h0 : g.isEmpty 0 = false) (h1 : g.isEmpty 1 = false) :
    g.binary 1 0 Fpu.pop op = settled g (op (regOperand (g.reg 1)) (regOperand (g.reg 0))) (fun v k => (k.put 1 v).pop) :=
  Fpu.binary_full h1 h0

theorem Fpu.popping_empty {op : Operand → Operand → Num} (h : g.isEmpty 0 = true ∨ g.isEmpty 1 = true) :
    g.binary 1 0 Fpu.pop op = g.stackFaulted false (fun k => (k.put 1 indefinite).pop) :=
  Fpu.binary_empty h.symm

end

/-! ### FPATAN, FYL2X, FYL2XP1: results by the classes of Y = `y` and X = `x` -/

section
variable {f : Fpu} {u : BitVec 128} {y x : Ext}

theorem quarterPi_rounds (f : Fpu) (neg : Bool) (k : Nat) : (quarterPi f neg k).Rounds := roundReg_rounds ..

theorem atanCompute_rounds (f : Fpu) (y x : Ext) : (atanCompute f y x).Rounds := by
  unfold atanCompute
  dsimp only
  split_ifs
  · exact quarterPi_rounds ..
  · exact rounds_exact _
  · exact quarterPi_rounds ..
  · exact quarterPi_rounds ..
  · exact quarterPi_rounds ..
  · exact quarterPi_rounds ..
  · exact quarterPi_rounds ..
  · exact rounds_exact _
  · exact quarterPi_rounds ..
  · exact roundReg_rounds ..

theorem ylog2Compute_rounds (f : Fpu) (y x : Ext) : (ylog2Compute f y x).Rounds := by
  unfold ylog2Compute
  dsimp only
  split_ifs
  · exact rounds_exact _
  · exact rounds_exact _
  · exact rounds_exact _
  · exact roundReg_rounds ..
  · exact roundReg_rounds ..

theorem ylog2p1Compute_rounds (f : Fpu) (u : BitVec 128) (y x : Ext) : (ylog2p1Compute f u y x).Rounds := by
  unfold ylog2p1Compute
  dsimp only
  split_ifs
  · exact rounds_exact _
  · exact rounds_exact _
  · exact rounds_exact _
  · exact undefinedResult_rounds u
  · exact rounds_exact _
  · exact roundReg_rounds ..

theorem ylog2Special_up {n : Num} (h : ylog2Special y x = some n) : n.up = false := by
  unfold ylog2Special at h
  split_ifs at h
  · exact (Option.some.inj h) ▸ rfl
  · exact (Option.some.inj h) ▸ rfl
  · exact (Option.some.inj h) ▸ rfl

theorem ylog2p1Special_up {n : Num} (h : ylog2p1Special y x = some n) : n.up = false := by
  unfold ylog2p1Special at h
  split_ifs at h
  exact (Option.some.inj h) ▸ rfl

/-- The operations that replace ST(1), with Y and X. -/
def opAtan (f : Fpu) : Operand → Operand → Num := numeric2 (fun _ _ => none) (atanCompute f)
def opYlog2 (f : Fpu) : Operand → Operand → Num := numeric2 ylog2Special (ylog2Compute f)
def opYlog2p1 (f : Fpu) (u : BitVec 128) : Operand → Operand → Num := numeric2 ylog2p1Special (ylog2p1Compute f u)

theorem isZero_false (h : extClass x ≠ .zero) : isZero x = false := decide_eq_false h

theorem isInf_false (h : extClass x ≠ .infinity) : isInf x = false := decide_eq_false h

theorem infinity_ne_zero (h : extClass x = .infinity) : extClass x ≠ .zero := by rw [h]; decide

theorem zero_ne_infinity (h : extClass x = .zero) : extClass x ≠ .infinity := by rw [h]; decide

/-! FPATAN -/

theorem atan_zero (h : extClass y = .zero) :
    atanCompute f y x = if extNeg x then quarterPi f (extNeg y) 4 else ⟨y, 0, false⟩ := by
  rw [atanCompute, if_pos (isZero_iff.2 h)]
  rfl

theorem atan_infinity (h : extClass y = .infinity) : atanCompute f y x =
    quarterPi f (extNeg y) (if extClass x = .infinity then (if extNeg x then 3 else 1) else 2) := by
  simp only [atanCompute, isZero_false (infinity_ne_zero h), isInf_iff.2 h, Bool.false_eq_true, if_false, if_true]
  by_cases hx : extClass x = .infinity
  · rw [if_pos (isInf_iff.2 hx), if_pos hx]
  · rw [if_neg (fun h => hx (isInf_iff.1 h)), if_neg hx]

section
variable (hy : finiteExt y = true) (hy0 : extClass y ≠ .zero)
include hy hy0

theorem atan_by_zero (h : extClass x = .zero) : atanCompute f y x = quarterPi f (extNeg y) 2 := by
  simp only [atanCompute, isZero_false hy0, isInf_of_finite hy, isZero_iff.2 h, Bool.false_eq_true, if_false, if_true]

theorem atan_by_infinity (h : extClass x = .infinity) :
    atanCompute f y x = if extNeg x then quarterPi f (extNeg y) 4 else ⟨extZero (extNeg y), 0, false⟩ := by
  simp only [atanCompute, isZero_false hy0, isInf_of_finite hy, isZero_false (infinity_ne_zero h), isInf_iff.2 h,
    Bool.false_eq_true, if_false, if_true]
  rfl

theorem atan_finite (hx : finiteExt x = true) (hx0 : extClass x ≠ .zero) : atanCompute f y x =
    if x = extOne ∧ y = extOne ∧ f.rc = 0 then quarterPi f (extNeg y) 1 else transc f .atan x y := by
  simp only [atanCompute, isZero_false hy0, isInf_of_finite hy, isZero_false hx0, isInf_of_finite hx, Bool.false_eq_true, if_false]
  by_cases h : x = extOne ∧ y = extOne ∧ f.rc = 0
  · obtain ⟨rfl, rfl, rc⟩ := h
    have on : (decide (extOne = extOne) && decide (extOne = extOne) && f.rc == 0) = true := by simp [rc]
    rw [if_pos on, if_pos (show extOne = extOne ∧ extOne = extOne ∧ f.rc = 0 from ⟨rfl, rfl, rc⟩),
      show extNeg extOne = false by decide]
  · rw [if_neg h, if_neg]
    simpa [and_comm, and_assoc, and_left_comm] using h

end

/-! FYL2X -/

theorem ylog2_negative (h : extNeg x = true) (hx0 : extClass x ≠ .zero) : ylog2Special y x = some (Num.invalid indefinite) :=
  if_pos (by rw [h, isZero_false hx0]; rfl)

theorem ylog2_zero_zero (hx : extClass x = .zero) (hy : extClass y = .zero) :
    ylog2Special y x = some (Num.invalid indefinite) := by
  simp [ylog2Special, isZero_iff.2 hx, isZero_iff.2 hy]

theorem ylog2_zero_finite (hx : extClass x = .zero) (hy : finiteExt y = true) (hy0 : extClass y ≠ .zero) :
    ylog2Special y x = some ⟨extInf (!extNeg y), excZ, false⟩ := by
  simp [ylog2Special, isZero_iff.2 hx, isZero_false hy0, isInf_of_finite hy, isInf_false (zero_ne_infinity hx)]

theorem ylog2_zero_infinity (hx : extClass x = .zero) (hy : extClass y = .infinity) :
    ylog2Special y x = none ∧ ylog2Compute f y x = ⟨extInf (!extNeg y), 0, false⟩ := by
  have one : x ≠ extOne := by
    rintro rfl
    exact absurd hx (by decide)
  have below : logNeg (extFinite x) = true := by
    rw [logNeg, leading_zero hx]
    decide
  constructor
  · simp [ylog2Special, isZero_iff.2 hx, isZero_false (infinity_ne_zero hy), isInf_iff.2 hy, isInf_false (zero_ne_infinity hx), one]
  · simp [ylog2Compute, isInf_iff.2 hy, isInf_false (zero_ne_infinity hx), below, Num.exact]

theorem ylog2_infinity_zero (hx : x = extInf false) (hy : extClass y = .zero) :
    ylog2Special y x = some (Num.invalid indefinite) := by
  obtain ⟨inf, pos⟩ := (eq_extInf_iff false).1 hx
  simp [ylog2Special, isZero_iff.2 hy, isInf_iff.2 inf, pos]

theorem ylog2_infinity (hx : x = extInf false) (hy : extClass y ≠ .zero) :
    ylog2Special y x = none ∧ ylog2Compute f y x = ⟨extInf (extNeg y), 0, false⟩ := by
  obtain ⟨inf, pos⟩ := (eq_extInf_iff false).1 hx
  have one : x ≠ extOne := by
    rw [hx]
    decide
  constructor
  · simp [ylog2Special, isZero_false hy, isZero_false (infinity_ne_zero inf), pos, one]
  · simp [ylog2Compute, isInf_iff.2 inf, Num.exact]

theorem nonzero_of_pos (pos : 0 < extValue x) : extClass x ≠ .zero := fun hz => pos.ne' (extValue_zero hz)

theorem magnitude_of_pos (pos : 0 < extValue x) : ((extFinite x).sig : ℚ) * (2 : ℚ) ^ (extFinite x).exp = extValue x := by
  rw [extValue, ← abs_of_pos (show 0 < (extFinite x).value from pos), Finite.abs_value]

theorem ylog2_one_infinity (hy : extClass y = .infinity) (h : x = extOne) :
    ylog2Special y x = some (Num.invalid indefinite) := by
  simp [ylog2Special, isInf_iff.2 hy, h]

theorem ylog2_finite (hx : finiteExt x = true) (hy : finiteExt y = true) (hy0 : extClass y ≠ .zero) : ylog2Compute f y x =
    if isPower (extFinite x) then
      roundReg f 64 ⟨(extFinite y).neg ^^ decide (leading (extFinite x).sig (extFinite x).exp < 0),
        (extFinite y).sig * (leading (extFinite x).sig (extFinite x).exp).natAbs, (extFinite y).exp⟩
    else transc f .ylog2 x y := by
  simp only [ylog2Compute, isInf_of_finite hx, isInf_of_finite hy, isZero_false hy0, Bool.false_eq_true, if_false]

section
variable (hx : finiteExt x = true) (pos : 0 < extValue x)
include hx pos

theorem ylog2_by_infinity (hy : extClass y = .infinity) (h : x ≠ extOne) : ylog2Special y x = none ∧
    ylog2Compute f y x = ⟨extInf (extNeg y ^^ decide (extValue x < 1)), 0, false⟩ := by
  constructor
  · simp [ylog2Special, extNeg_of_pos pos, isZero_false (nonzero_of_pos pos), isInf_of_finite hx, h]
  · simp [ylog2Compute, isInf_of_finite hx, isInf_iff.2 hy, logNeg_eq hx pos, Num.exact]

theorem ylog2Special_finite (hy : finiteExt y = true) : ylog2Special y x = none := by
  simp [ylog2Special, extNeg_of_pos pos, isZero_false (nonzero_of_pos pos), isInf_of_finite hx, isInf_of_finite hy]

theorem ylog2_by_zero (hy : extClass y = .zero) :
    ylog2Compute f y x = ⟨extZero (extNeg y ^^ decide (extValue x < 1)), 0, false⟩ := by
  simp [ylog2Compute, isInf_of_finite hx, isInf_false (zero_ne_infinity hy), isZero_iff.2 hy, logNeg_eq hx pos, Num.exact]

/-- Of a power of two the product with its exponent. -/
theorem ylog2_power (hy : finiteExt y = true) (hy0 : extClass y ≠ .zero) {e : Int} (h : extValue x = (2 : ℚ) ^ e) :
    ∃ z : Finite, z.value = extValue y * e ∧ z.neg = (extNeg y ^^ decide (e < 0)) ∧ ylog2Compute f y x = roundReg f 64 z := by
  have sig := extSig_ne_of_finite hx (nonzero_of_pos pos)
  have magnitude := magnitude_of_pos pos
  have lead : e = leading (extFinite x).sig (extFinite x).exp := eq_leading_of_power sig (magnitude.trans h)
  have power : isPower (extFinite x) = true := (isPower_iff sig).2 (by rw [magnitude, h, ← lead])
  rw [ylog2_finite hx hy hy0, if_pos power, ← lead]
  refine ⟨_, ?_, rfl, rfl⟩
  rw [Finite.value_eq, extValue, Finite.value_eq]
  dsimp only
  have sign : signOf (decide (e < 0)) * (e.natAbs : ℚ) = e := by
    have := signOf_mul_natAbs e false
    by_cases h0 : e = 0
    · simp [h0]
    · rwa [if_neg h0] at this
  rw [signOf_xor, Nat.cast_mul]
  calc signOf (extFinite y).neg * signOf (decide (e < 0)) * ((extFinite y).sig * e.natAbs * (2 : ℚ) ^ (extFinite y).exp)
      = signOf (extFinite y).neg * ((extFinite y).sig * (2 : ℚ) ^ (extFinite y).exp) * (signOf (decide (e < 0)) * e.natAbs) := by
        ring
    _ = _ := by rw [sign]

theorem ylog2_not_power (hy : finiteExt y = true) (hy0 : extClass y ≠ .zero) (h : ∀ e : Int, extValue x ≠ (2 : ℚ) ^ e) :
    ylog2Compute f y x = transc f .ylog2 x y := by
  have sig := extSig_ne_of_finite hx (nonzero_of_pos pos)
  have power : ¬ isPower (extFinite x) = true := by
    rw [isPower_iff sig, magnitude_of_pos pos]
    exact h _
  rw [ylog2_finite hx hy hy0, if_neg power]

end

/-! FYL2XP1 -/

theorem ylog2p1_zero_infinity (hy : extClass y = .infinity) (hx : extClass x = .zero) :
    ylog2p1Special y x = some (Num.invalid indefinite) := by
  simp [ylog2p1Special, isZero_iff.2 hx, isInf_iff.2 hy]

theorem ylog2p1_below (h : x = extInf true ∨ (finiteExt x = true ∧ extValue x < -1)) :
    ylog2p1Special y x = some (Num.invalid indefinite) := by
  rcases h with h | ⟨fin, lt⟩
  · obtain ⟨inf, neg⟩ := (eq_extInf_iff true).1 h
    simp [ylog2p1Special, isInf_iff.2 inf, neg]
  · simp [ylog2p1Special, belowMinusOne_of_lt fin lt]

theorem belowMinusOne_of_pos (h : extNeg x = false) : belowMinusOne x = false := by
  simp [belowMinusOne, show (extFinite x).neg = false from h]

theorem ylog2p1_infinity_zero (hx : x = extInf false) (hy : extClass y = .zero) :
    ylog2p1Special y x = some (Num.invalid indefinite) := by
  obtain ⟨inf, -⟩ := (eq_extInf_iff false).1 hx
  simp [ylog2p1Special, isInf_iff.2 inf, isZero_iff.2 hy]

theorem ylog2p1_infinity (hx : x = extInf false) (hy : extClass y ≠ .zero) :
    ylog2p1Special y x = none ∧ ylog2p1Compute f u y x = ⟨extInf (extNeg y), 0, false⟩ := by
  obtain ⟨inf, pos⟩ := (eq_extInf_iff false).1 hx
  constructor
  · simp [ylog2p1Special, belowMinusOne_of_pos pos, pos, isZero_false (infinity_ne_zero inf), isZero_false hy]
  · simp [ylog2p1Compute, isInf_iff.2 inf, Num.exact]

theorem ylog2p1_zero (hx : extClass x = .zero) (hy : extClass y ≠ .infinity) :
    ylog2p1Special y x = none ∧ ylog2p1Compute f u y x = ⟨extZero (extNeg y ^^ extNeg x), 0, false⟩ := by
  have above : belowMinusOne x = false := by simp [belowMinusOne, leading_zero hx]
  constructor
  · simp [ylog2p1Special, above, isInf_false (zero_ne_infinity hx), isInf_false hy]
  · simp [ylog2p1Compute, isInf_false (zero_ne_infinity hx), isZero_iff.2 hx, Num.exact]

theorem ylog2p1_by_infinity (hx : finiteExt x = true) (hx0 : extClass x ≠ .zero) (gt : -1 < extValue x)
    (hy : extClass y = .infinity) : ylog2p1Special y x = none ∧
      ylog2p1Compute f u y x = ⟨extInf (extNeg y ^^ extNeg x), 0, false⟩ := by
  have notMinusOne : (isOne x && extNeg x) = false := by
    by_contra h
    obtain ⟨one, neg⟩ := (Bool.and_eq_true _ _).mp (Bool.eq_true_of_not_eq_false h)
    have := extValue_of_neg neg
    rw [abs_value_of_isOne one] at this
    exact gt.ne' this
  constructor
  · simp [ylog2p1Special, belowMinusOne_eq_false hx gt, isInf_of_finite hx, isZero_false hx0]
  · simp only [ylog2p1Compute, isInf_of_finite hx, isZero_false hx0, isInf_iff.2 hy, notMinusOne, Bool.false_eq_true, if_false,
      Bool.not_false, Bool.and_true, if_true]
    rfl

theorem ylog2p1_finite (hx : finiteExt x = true) (hx0 : extClass x ≠ .zero) (lt : |extValue x| < 1)
    (range : 1 ≤ 2 * (1 - |extValue x|) ^ 2) (hy : finiteExt y = true) : ylog2p1Special y x = none ∧
      ylog2p1Compute f u y x = if extClass y = .zero then ⟨extZero (extNeg y ^^ extNeg x), 0, false⟩ else transc f .ylog2p1 x y := by
  have gt := (abs_lt.1 lt).1
  constructor
  · simp [ylog2p1Special, belowMinusOne_eq_false hx gt, isInf_of_finite hx, isZero_false hx0]
  · simp only [ylog2p1Compute, isInf_of_finite hx, isZero_false hx0, isInf_of_finite hy, inLogRange_of hx hx0 lt range,
      Bool.false_eq_true, if_false, Bool.false_and, Bool.not_true]
    by_cases h : extClass y = .zero
    · rw [if_pos (isZero_iff.2 h), if_pos h]
      rfl
    · rw [if_neg (fun hz => h (isZero_iff.1 hz)), if_neg h]

end

end Sys2Proof.Machine
end

section
/-! ## Transcendental instructions -/
set_option Elab.async false

namespace Sys2Proof.Machine

/-! ### The codes have no part in a value -/

section
variable {f g : Fpu} {a b : Ext} {u : BitVec 128}

theorem roundReg_setCodes (c3 c2 c0 : Bool) (p : Nat) (x : Finite) : roundReg (f.setCodes c3 c2 c0) p x = roundReg f p x := rfl

theorem transc_setCodes (c3 c2 c0 : Bool) (op : Transc) : transc (f.setCodes c3 c2 c0) op a b = transc f op a b := rfl

theorem trigValue_setCodes (c3 c2 c0 : Bool) (op : Transc) : trigValue (f.setCodes c3 c2 c0) op a = trigValue f op a := rfl

theorem freeCodes_setC2 (b : Bool) : (f.freeCodes u).setC2 b = f.setCodes (u.getLsbD 0) b (u.getLsbD 2) := rfl

end

/-! ### The trigonometric instructions -/

section
variable {g : Fpu} {u : BitVec 128} (h0 : g.isEmpty 0 = false) (fin : finiteExt (g.reg 0) = true)
include h0 fin

theorem Fpu.trig1_large (large : tooLarge (g.reg 0) = true) (op : Transc) :
    g.trig1 op u = (g.setC2 true).setC1 (u.getLsbD 3) :=
  (Fpu.trig1_full h0).trans ((Fpu.trig_finite fin).trans (if_pos large))

theorem Fpu.trig1_small (small : tooLarge (g.reg 0) = false) (op : Transc) : g.trig1 op u =
    settled (g.setC2 false) ((trigValue (g.setC2 false) op (g.reg 0)).withDenormal (extClass (g.reg 0)).isDenormal)
      (fun v k => k.put 0 v) :=
  (Fpu.trig1_full h0).trans ((Fpu.trig_finite fin).trans (if_neg (Bool.eq_false_iff.1 small)))

variable (h7 : g.isEmpty 7 = true) (value : Ext → Fpu → Fpu)
include h7

/-- FPTAN and FSINCOS with a finite operand. -/
theorem Fpu.trig2_large (large : tooLarge (g.reg 0) = true) :
    g.extend (fun a f => f.trig a (fun v h => (h.put 0 v).push v) (value a) u) = (g.setC2 true).setC1 (u.getLsbD 3) :=
  (Fpu.extend_full h0 h7).trans ((Fpu.trig_finite fin).trans (if_pos large))

theorem Fpu.trig2_small (small : tooLarge (g.reg 0) = false) :
    g.extend (fun a f => f.trig a (fun v h => (h.put 0 v).push v) (value a) u) = value (g.reg 0) (g.setC2 false) :=
  (Fpu.extend_full h0 h7).trans ((Fpu.trig_finite fin).trans (if_neg (Bool.eq_false_iff.1 small)))

end

/-! ### What the instructions run -/

/-- An instruction that uses one free number completes with `f`. -/
def State.Gives (s : State) (i : Instr) (f : Fpu) : Prop := Completes i s (numericDone i none s s.begin f) []

/-- An instruction that uses two. -/
def State.Gives2 (s : State) (i : Instr) (f : Fpu) : Prop :=
  Completes i s ((s.begin.drawn.drawn.withFpu (noted i none s.draw s f)).complete false) []

section
variable {s : State} {i : Instr} {f : Fpu} {g : BitVec 128 → Fpu → Fpu} (he : s.EscReady) (hn : s.NoFpuError)
include he hn

theorem gives_of_escRegister (hi : exec i s = escRegister i g s) (hf : g s.draw s.fpu = f) : s.Gives i f :=
  completes_of_escRegister hi he hn hf

/-- FSIN and FCOS differ in their function. -/
theorem gives_trig1 (hi : i ∈ [Instr.fsin, .fcos]) (hf : ∀ op, (s.fpu.freeCodes s.draw).trig1 op s.draw = f) : s.Gives i f := by
  simp only [List.mem_cons, List.not_mem_nil, or_false] at hi
  rcases hi with rfl | rfl
  · exact gives_of_escRegister (g := fun u g => (g.freeCodes u).trig1 .sin u) he hn rfl (hf .sin)
  · exact gives_of_escRegister (g := fun u g => (g.freeCodes u).trig1 .cos u) he hn rfl (hf .cos)

/-- FPTAN and FSINCOS differ in what they do with a finite operand in range. -/
theorem gives_trig2 (hi : i ∈ [Instr.fptan, .fsincos]) (hf : ∀ value : Ext → Fpu → Fpu, (s.fpu.freeCodes s.draw).extend
    (fun a f => f.trig a (fun v h => (h.put 0 v).push v) (value a) s.draw) = f) : s.Gives i f := by
  simp only [List.mem_cons, List.not_mem_nil, or_false] at hi
  rcases hi with rfl | rfl
  · exact gives_of_escRegister he hn (exec_fptan s) (hf tangentValue)
  · exact gives_of_escRegister he hn (exec_fsincos s) (hf sineCosineValue)

/-- FPATAN and FYL2X differ in their operation. -/
theorem gives_popping (hi : i ∈ [Instr.fpatan, .fyl2x])
    (hf : ∀ op, op = opAtan ∨ op = opYlog2 → (s.fpu.freeCodes s.draw).binary 1 0 Fpu.pop (op s.fpu) = f) : s.Gives i f := by
  simp only [List.mem_cons, List.not_mem_nil, or_false] at hi
  rcases hi with rfl | rfl
  · exact gives_of_escRegister (g := fun u g => (g.freeCodes u).binary 1 0 Fpu.pop (opAtan g)) he hn rfl (hf _ (.inl rfl))
  · exact gives_of_escRegister (g := fun u g => (g.freeCodes u).binary 1 0 Fpu.pop (opYlog2 g)) he hn rfl (hf _ (.inr rfl))

theorem gives_fyl2xp1
    (hf : (s.fpu.freeCodes s.draw).binary 1 0 Fpu.pop (opYlog2p1 s.fpu s.begin.drawn.draw) = f) : s.Gives2 .fyl2xp1 f :=
  completes_of_escRegister2 (g := fun u w g => (g.freeCodes u).binary 1 0 Fpu.pop (opYlog2p1 g w)) rfl he hn hf

theorem gives_f2xm1 (hf : (s.fpu.freeCodes s.draw).unary (numeric1 (fun _ => none) (exp2m1Compute s.fpu s.begin.drawn.draw)) = f) :
    s.Gives2 .f2xm1 f :=
  completes_of_escRegister2 (g := fun u w g => (g.freeCodes u).unary (numeric1 (fun _ => none) (exp2m1Compute g w))) rfl he hn hf

end

end Sys2Proof.Machine
end

section
/-! ## Transcendental instructions on finite operands -/
set_option Elab.async false

namespace Sys2Proof.Machine

theorem low_of_rounds {n : Num} (h : n.Rounds) (den : Bool) : (n.withDenormal den).exc &&& 7 = excIf den excD :=
  withDenormal_low h.low den

theorem also_low {n m : Num} (hn : n.Rounds) (hm : m.Rounds) : (n.also m).exc &&& 7 = 0 := by
  show (n.exc ||| m.exc) &&& 7 = 0
  rw [BitVec.and_or_distrib_right, hn.low, hm.low]
  exact BitVec.zero_or

theorem sineCosineValue_setCodes (f : Fpu) (c3 c2 c0 : Bool) (a : Ext) : sineCosineValue a (f.setCodes c3 c2 c0) =
    settled (f.setCodes c3 c2 c0) (((trigValue f .sin a).also (trigValue f .cos a)).withDenormal (extClass a).isDenormal)
      (fun v k => (k.put 0 v).push (trigValue f .cos a).val) := by
  rw [sineCosineValue, trigValue_setCodes, trigValue_setCodes]

section
variable {s : State} {i : Instr} (he : s.EscReady) (hn : s.NoFpuError) (h0 : s.fpu.isEmpty 0 = false)
  (fin : finiteExt (s.fpu.reg 0) = true)
include he hn h0 fin

/-- An argument out of range. -/
theorem gives_trig_large (large : tooLarge (s.fpu.reg 0) = true) (hi : i ∈ [Instr.fsin, .fcos, .fptan, .fsincos])
    (h7 : i ∈ [Instr.fsin, .fcos] ∨ s.fpu.isEmpty 7 = true) :
    ∃ c3 c1 c0 : Bool, s.Gives i ((s.fpu.setCodes c3 true c0).setC1 c1) := by
  refine ⟨s.draw.getLsbD 0, s.draw.getLsbD 3, s.draw.getLsbD 2, ?_⟩
  by_cases one : i ∈ [Instr.fsin, .fcos]
  · exact gives_trig1 he hn one fun op => Fpu.trig1_large (g := s.fpu.freeCodes s.draw) h0 fin large op
  · have two : i ∈ [Instr.fptan, .fsincos] := by
      simp only [List.mem_cons, List.not_mem_nil, or_false] at hi one ⊢
      tauto
    exact gives_trig2 he hn two fun value =>
      Fpu.trig2_large (g := s.fpu.freeCodes s.draw) h0 fin (h7.resolve_left one) value large

variable (small : tooLarge (s.fpu.reg 0) = false)
include small

theorem gives_fsin : s.Gives .fsin (settled ((s.fpu.freeCodes s.draw).setC2 false)
    ((trigValue s.fpu .sin (s.fpu.reg 0)).withDenormal (extClass (s.fpu.reg 0)).isDenormal) (fun v k => k.put 0 v)) :=
  gives_of_escRegister (g := fun u g => (g.freeCodes u).trig1 .sin u) he hn rfl
    (Fpu.trig1_small (g := s.fpu.freeCodes s.draw) h0 fin small .sin)

theorem gives_fcos : s.Gives .fcos (settled ((s.fpu.freeCodes s.draw).setC2 false)
    ((trigValue s.fpu .cos (s.fpu.reg 0)).withDenormal (extClass (s.fpu.reg 0)).isDenormal) (fun v k => k.put 0 v)) :=
  gives_of_escRegister (g := fun u g => (g.freeCodes u).trig1 .cos u) he hn rfl
    (Fpu.trig1_small (g := s.fpu.freeCodes s.draw) h0 fin small .cos)

variable (h7 : s.fpu.isEmpty 7 = true)
include h7

theorem gives_fptan : s.Gives .fptan (settled ((s.fpu.freeCodes s.draw).setC2 false)
    ((trigValue s.fpu .tan (s.fpu.reg 0)).withDenormal (extClass (s.fpu.reg 0)).isDenormal)
    (fun v k => (k.put 0 v).push extOne)) :=
  gives_of_escRegister he hn (exec_fptan s) (Fpu.trig2_small (g := s.fpu.freeCodes s.draw) h0 fin h7 tangentValue small)

theorem gives_fsincos : s.Gives .fsincos (settled ((s.fpu.freeCodes s.draw).setC2 false)
    (((trigValue s.fpu .sin (s.fpu.reg 0)).also (trigValue s.fpu .cos (s.fpu.reg 0))).withDenormal
      (extClass (s.fpu.reg 0)).isDenormal)
    (fun v k => (k.put 0 v).push (trigValue s.fpu .cos (s.fpu.reg 0)).val)) :=
  gives_of_escRegister he hn (exec_fsincos s)
    ((Fpu.trig2_small (g := s.fpu.freeCodes s.draw) h0 fin h7 sineCosineValue small).trans
      (sineCosineValue_setCodes s.fpu (s.draw.getLsbD 0) false (s.draw.getLsbD 2) (s.fpu.reg 0)))

end

/-- What is delivered with all codes but C1 free. -/
theorem exists_delivered {P : Fpu → Prop} {write : Ext → Fpu → Fpu} {f : Fpu} {u : BitVec 128} (n : Num) (sound : n.Sound)
    (h : P (write n.val (((f.freeCodes u).raise n.exc).setC1 n.up))) : ∃ (c3 c2 c1 c0 : Bool) (e : Exns) (v : Ext),
      (e.getLsbD 5 = false → c1 = false) ∧ P (write v (((f.setCodes c3 c2 c0).raise e).setC1 c1)) :=
  ⟨u.getLsbD 0, u.getLsbD 1, n.up, u.getLsbD 2, n.exc, n.val, sound, h⟩

/-- What the trigonometric instructions make of the FPU whose ST(0) is the result; `w` is what FSINCOS pushes. -/
def State.GivesTrig (s : State) (i : Instr) (w : Ext) (f : Fpu) : Prop :=
  (i ∈ [Instr.fsin, .fcos] → s.Gives i f) ∧ (i = .fptan → s.Gives i (f.push extOne)) ∧ (i = .fsincos → s.Gives i (f.push w))

/-- What is delivered with C2 = 0. -/
theorem exists_delivered_clear {P : Ext → Fpu → Prop} {f : Fpu} {u : BitVec 128} {d : Exns} (n : Num) (w : Ext)
    (low : n.exc &&& 7 = d) (h : P w (((((f.freeCodes u).setC2 false).raise n.exc).setC1 n.up).put 0 n.val)) :
    ∃ (c3 c1 c0 : Bool) (e : Exns) (v w : Ext), e &&& 7 = d ∧ P w ((((f.setCodes c3 false c0).raise e).setC1 c1).put 0 v) :=
  ⟨u.getLsbD 0, n.up, u.getLsbD 2, n.exc, n.val, w, low, h⟩

/-- What `settled_low` says, with the whole number on its right-hand side. -/
theorem settled_low_num {g : Fpu} {n : Num} {w : Ext → Fpu → Fpu} {den : Bool} (h : n.exc &&& 7 = 0)
    (hd : (den && !g.masks.getLsbD 1) = false) : settled g (n.withDenormal den) w =
      w (n.withDenormal den).val ((g.raise (n.withDenormal den).exc).setC1 (n.withDenormal den).up) :=
  settled_low h hd

/-! ### Results when D is masked or not met -/

section
variable {s : State} {i : Instr} (he : s.EscReady) (hn : s.NoFpuError) (h0 : s.fpu.isEmpty 0 = false)
  (fin : finiteExt (s.fpu.reg 0) = true)
  (masked : ((extClass (s.fpu.reg 0)).isDenormal && !s.fpu.masks.getLsbD 1) = false)
include he hn h0 fin masked

theorem gives_trig_small (small : tooLarge (s.fpu.reg 0) = false) (hi : i ∈ [Instr.fsin, .fcos, .fptan, .fsincos])
    (h7 : i ∈ [Instr.fsin, .fcos] ∨ s.fpu.isEmpty 7 = true) :
    ∃ (c3 c1 c0 : Bool) (e : Exns) (v w : Ext), e &&& 7 = excIf (extClass (s.fpu.reg 0)).isDenormal excD ∧
      s.GivesTrig i w ((((s.fpu.setCodes c3 false c0).raise e).setC1 c1).put 0 v) := by
  have sine := trigValue_rounds s.fpu .sin (s.fpu.reg 0)
  have cosine := trigValue_rounds s.fpu .cos (s.fpu.reg 0)
  have tangent := trigValue_rounds s.fpu .tan (s.fpu.reg 0)
  simp only [List.mem_cons, List.not_mem_nil, or_false] at hi
  rcases hi with rfl | rfl | rfl | rfl
  · have run := gives_fsin he hn h0 fin small
    rw [settled_low_num (g := (s.fpu.freeCodes s.draw).setC2 false) sine.low masked] at run
    exact exists_delivered_clear _ 0 (low_of_rounds sine _) ⟨fun _ => run, nofun, nofun⟩
  · have run := gives_fcos he hn h0 fin small
    rw [settled_low_num (g := (s.fpu.freeCodes s.draw).setC2 false) cosine.low masked] at run
    exact exists_delivered_clear _ 0 (low_of_rounds cosine _) ⟨fun _ => run, nofun, nofun⟩
  · have run := gives_fptan he hn h0 fin small (h7.resolve_left (by decide))
    rw [settled_low_num (g := (s.fpu.freeCodes s.draw).setC2 false) tangent.low masked] at run
    exact exists_delivered_clear _ 0 (low_of_rounds tangent _) ⟨fun h => absurd h (by decide), fun _ => run, nofun⟩
  · have run := gives_fsincos he hn h0 fin small (h7.resolve_left (by decide))
    have low := also_low sine cosine
    rw [settled_low_num (g := (s.fpu.freeCodes s.draw).setC2 false) low masked] at run
    exact exists_delivered_clear _ _ (withDenormal_low low _) ⟨fun h => absurd h (by decide), nofun, fun _ => run⟩

theorem gives_f2xm1_finite : ∃ (c3 c2 c1 c0 : Bool) (e : Exns) (v : Ext), (e.getLsbD 5 = false → c1 = false) ∧
    s.Gives2 .f2xm1 ((((s.fpu.setCodes c3 c2 c0).raise e).setC1 c1).put 0 v) := by
  have rounds := exp2m1Compute_rounds s.fpu s.begin.drawn.draw (s.fpu.reg 0)
  have run := (f2xm1_ordinary (f := s.fpu) (g := s.fpu.freeCodes s.draw) h0 (plain_of_finite fin) s.begin.drawn.draw).trans
    (settled_low_num (g := s.fpu.freeCodes s.draw) rounds.low masked)
  exact exists_delivered (write := fun v k => k.put 0 v) _ (rounds.sound _) (gives_f2xm1 he hn run)

end

section
variable {s : State} {i : Instr} (he : s.EscReady) (hn : s.NoFpuError) (h0 : s.fpu.isEmpty 0 = false)
  (h1 : s.fpu.isEmpty 1 = false) (fin : finiteExt (s.fpu.reg 0) = true) (fin1 : finiteExt (s.fpu.reg 1) = true)
  (all : s.fpu.masks &&& 7 = 7)
include he hn h0 h1 fin fin1 all

theorem gives_popping_finite (hi : i ∈ [Instr.fpatan, .fyl2x, .fyl2xp1]) :
    ∃ (c3 c2 c1 c0 : Bool) (e : Exns) (v : Ext), (e.getLsbD 5 = false → c1 = false) ∧
      if i = .fyl2xp1 then s.Gives2 i (((((s.fpu.setCodes c3 c2 c0).raise e).setC1 c1).put 1 v).pop)
      else s.Gives i (((((s.fpu.setCodes c3 c2 c0).raise e).setC1 c1).put 1 v).pop) := by
  have ord : ordinary (regOperand (s.fpu.reg 1)).val (regOperand (s.fpu.reg 0)).val = true := ordinary_of_finite fin1 fin
  have run (op : Operand → Operand → Num) := (Fpu.popping_full (g := s.fpu.freeCodes s.draw) (op := op) h0 h1).trans
    (settled_masked (g := s.fpu.freeCodes s.draw) all)
  have given (n : Num) (sound : n.Sound) := exists_delivered (P := fun k => if i = .fyl2xp1 then s.Gives2 i k else s.Gives i k)
    (write := fun v k => (k.put 1 v).pop) (f := s.fpu) (u := s.draw) n sound
  simp only [List.mem_cons, List.not_mem_nil, or_false] at hi
  rcases hi with rfl | rfl | rfl
  · refine given (opAtan s.fpu (regOperand (s.fpu.reg 1)) (regOperand (s.fpu.reg 0)))
      (numeric2_sound ord nofun (atanCompute_rounds ..)) ?_
    rw [if_neg nofun]
    exact gives_of_escRegister (g := fun u g => (g.freeCodes u).binary 1 0 Fpu.pop (opAtan g)) he hn rfl (run (opAtan s.fpu))
  · refine given (opYlog2 s.fpu (regOperand (s.fpu.reg 1)) (regOperand (s.fpu.reg 0)))
      (numeric2_sound ord (fun _ => ylog2Special_up) (ylog2Compute_rounds ..)) ?_
    rw [if_neg nofun]
    exact gives_of_escRegister (g := fun u g => (g.freeCodes u).binary 1 0 Fpu.pop (opYlog2 g)) he hn rfl (run (opYlog2 s.fpu))
  · refine given (opYlog2p1 s.fpu s.begin.drawn.draw (regOperand (s.fpu.reg 1)) (regOperand (s.fpu.reg 0)))
      (numeric2_sound ord (fun _ => ylog2p1Special_up) (ylog2p1Compute_rounds ..)) ?_
    rw [if_pos rfl]
    exact gives_fyl2xp1 he hn (run _)

end

end Sys2Proof.Machine
end

section
/-! ## Transcendental instructions on special operands -/
set_option Elab.async false

namespace Sys2Proof.Machine

theorem extOne_eq : extOne = 0x3FFF8000000000000000#80 := by decide

theorem finite_of_zero {a : Ext} (h : extClass a = .zero) : finiteExt a = true := by
  unfold finiteExt
  rw [h]

/-! ### FPATAN, FYL2X, FYL2XP1: the tables, for a property of the result or of an invalid operation -/

section
variable {f : Fpu} {u : BitVec 128} {b a : Ext} {P Q : Num → Prop}

theorem atan_table (run : ∀ n, atanCompute f b a = n → P n) :
    (extClass b = .zero → P (if extNeg a then quarterPi f (extNeg b) 4 else ⟨b, 0, false⟩)) ∧
    (extClass b = .infinity → P (quarterPi f (extNeg b) (if extClass a = .infinity then (if extNeg a then 3 else 1) else 2))) ∧
    (finiteExt b = true → extClass b ≠ .zero →
      (extClass a = .zero → P (quarterPi f (extNeg b) 2)) ∧
      (extClass a = .infinity → P (if extNeg a then quarterPi f (extNeg b) 4 else ⟨extZero (extNeg b), 0, false⟩)) ∧
      (finiteExt a = true → extClass a ≠ .zero →
        P (if a = extOne ∧ b = extOne ∧ f.rc = 0 then quarterPi f (extNeg b) 1 else transc f .atan a b))) := by
  refine ⟨fun h => run _ (atan_zero h), fun h => run _ (atan_infinity h), fun fin h0 => ⟨?_, ?_, ?_⟩⟩
  · exact fun h => run _ (atan_by_zero fin h0 h)
  · exact fun h => run _ (atan_by_infinity fin h0 h)
  · intro finA h0A
    refine run _ ((atan_finite fin h0 finA h0A).trans ?_)
    simp only [and_left_comm]

theorem ylog2_table (run : ∀ n, ylog2Special b a = none ∧ ylog2Compute f b a = n → P n)
    (special : ∀ n, ylog2Special b a = some n → Q n) :
    (extNeg a = true → extClass a ≠ .zero → Q (Num.invalid indefinite)) ∧
    (extClass a = .zero →
      (extClass b = .zero → Q (Num.invalid indefinite)) ∧
      (finiteExt b = true → extClass b ≠ .zero → Q ⟨extInf (!extNeg b), excZ, false⟩) ∧
      (extClass b = .infinity → P ⟨extInf (!extNeg b), 0, false⟩)) ∧
    (a = extInf false → if extClass b = .zero then Q (Num.invalid indefinite) else P ⟨extInf (extNeg b), 0, false⟩) ∧
    (finiteExt a = true → 0 < extValue a →
      (extClass b = .infinity →
        (a = extOne → Q (Num.invalid indefinite)) ∧
        (a ≠ extOne → P ⟨extInf (extNeg b ^^ decide (extValue a < 1)), 0, false⟩)) ∧
      (extClass b = .zero → P ⟨extZero (extNeg b ^^ decide (extValue a < 1)), 0, false⟩) ∧
      (finiteExt b = true → extClass b ≠ .zero →
        (∀ e : Int, extValue a = (2 : ℚ) ^ e → ∃ z : Finite,
          z.value = extValue b * e ∧ z.neg = (extNeg b ^^ decide (e < 0)) ∧ P (roundReg f 64 z)) ∧
        ((∀ e : Int, extValue a ≠ (2 : ℚ) ^ e) → P (transc f .ylog2 a b)))) := by
  refine ⟨fun neg h0 => special _ (ylog2_negative neg h0), fun zero => ⟨?_, ?_, ?_⟩, ?_, fun fin pos => ⟨fun inf => ⟨?_, ?_⟩, ?_,
    fun finB h0 => ⟨?_, ?_⟩⟩⟩
  · exact fun h => special _ (ylog2_zero_zero zero h)
  · exact fun h h0 => special _ (ylog2_zero_finite zero h h0)
  · exact fun h => run _ (ylog2_zero_infinity zero h)
  · intro inf
    split_ifs with h0
    · exact special _ (ylog2_infinity_zero inf h0)
    · exact run _ (ylog2_infinity inf h0)
  · exact fun one => special _ (ylog2_one_infinity inf one)
  · exact fun one => run _ (ylog2_by_infinity fin pos inf one)
  · exact fun h0 => run _ ⟨ylog2Special_finite fin pos (finite_of_zero h0), ylog2_by_zero fin pos h0⟩
  · intro e power
    obtain ⟨z, value, neg, eq⟩ := ylog2_power (f := f) fin pos finB h0 power
    exact ⟨z, value, neg, run _ ⟨ylog2Special_finite fin pos finB, eq⟩⟩
  · exact fun power => run _ ⟨ylog2Special_finite fin pos finB, ylog2_not_power fin pos finB h0 power⟩

theorem ylog2p1_table (run : ∀ n, ylog2p1Special b a = none ∧ ylog2p1Compute f u b a = n → P n)
    (special : ∀ n, ylog2p1Special b a = some n → Q n) :
    (extClass b = .infinity → extClass a = .zero → Q (Num.invalid indefinite)) ∧
    (a = extInf true ∨ (finiteExt a = true ∧ extValue a < -1) → Q (Num.invalid indefinite)) ∧
    (a = extInf false → if extClass b = .zero then Q (Num.invalid indefinite) else P ⟨extInf (extNeg b), 0, false⟩) ∧
    (extClass a = .zero → extClass b ≠ .infinity → P ⟨extZero (extNeg b ^^ extNeg a), 0, false⟩) ∧
    (finiteExt a = true → extClass a ≠ .zero → -1 < extValue a → extClass b = .infinity →
      P ⟨extInf (extNeg b ^^ extNeg a), 0, false⟩) ∧
    (finiteExt a = true → extClass a ≠ .zero → |extValue a| < 1 → 1 ≤ 2 * (1 - |extValue a|) ^ 2 → finiteExt b = true →
      P (if extClass b = .zero then ⟨extZero (extNeg b ^^ extNeg a), 0, false⟩ else transc f .ylog2p1 a b)) := by
  refine ⟨?_, ?_, ?_, ?_, ?_, ?_⟩
  · exact fun inf zero => special _ (ylog2p1_zero_infinity inf zero)
  · exact fun below => special _ (ylog2p1_below below)
  · intro inf
    split_ifs with h0
    · exact special _ (ylog2p1_infinity_zero inf h0)
    · exact run _ (ylog2p1_infinity inf h0)
  · exact fun zero h => run _ (ylog2p1_zero zero h)
  · exact fun fin h0 gt inf => run _ (ylog2p1_by_infinity fin h0 gt inf)
  · exact fun fin h0 lt range finB => run _ (ylog2p1_finite fin h0 lt range finB)

end

/-! ### F2XM1 -/

section
variable {f : Fpu} {u : BitVec 128} {a : Ext}

theorem exp2m1_infinity (h : extClass a = .infinity) :
    exp2m1Compute f u a = ⟨if extNeg a then 0xBFFF8000000000000000#80 else a, 0, false⟩ := by
  rw [exp2m1Compute, if_pos (isInf_iff.2 h), show extPack true 0x3FFF (2 ^ 63) = 0xBFFF8000000000000000#80 by decide]
  rfl

theorem exp2m1_zero (h : extClass a = .zero) : exp2m1Compute f u a = ⟨a, 0, false⟩ := by
  simp only [exp2m1Compute, isInf_false (zero_ne_infinity h), isZero_iff.2 h, Bool.false_eq_true, if_false, if_true]
  rfl

theorem exp2m1_one : exp2m1Compute f u extOne = ⟨extOne, 0, false⟩ := by
  simp only [exp2m1Compute, show isInf extOne = false by decide, show isZero extOne = false by decide,
    show isOne extOne = true by decide, show extNeg extOne = false by decide, Bool.false_eq_true, if_false, if_true]
  rfl

theorem exp2m1_minus_one : exp2m1Compute f u 0xBFFF8000000000000000#80 = ⟨0xBFFE8000000000000000#80, 0, false⟩ := by
  simp only [exp2m1Compute, show isInf 0xBFFF8000000000000000#80 = false by decide,
    show isZero 0xBFFF8000000000000000#80 = false by decide, show isOne 0xBFFF8000000000000000#80 = true by decide,
    show extNeg 0xBFFF8000000000000000#80 = true by decide, Bool.false_eq_true, if_false, if_true,
    show extPack true 0x3FFE (2 ^ 63) = 0xBFFE8000000000000000#80 by decide]
  rfl

theorem exp2m1_small (h : finiteExt a = true) (h0 : extClass a ≠ .zero) (lt : |extValue a| < 1) :
    exp2m1Compute f u a = transc f .exp2m1 a a := by
  have below : ¬ leading (extFinite a).sig (extFinite a).exp ≥ 0 := not_le.2 ((leading_lt_zero_iff h h0).2 lt)
  simp only [exp2m1Compute, isInf_of_finite h, isZero_false h0, isOne_eq_false_of_abs_lt lt, Bool.false_eq_true, if_false]
  exact if_neg below

end

/-! ### The instructions -/

section
variable {s : State} {i : Instr} (he : s.EscReady) (hn : s.NoFpuError)
include he hn

section
variable (h : s.fpu.isEmpty 0 = true)
include h

theorem gives_trig1_empty (hi : i ∈ [Instr.fsin, .fcos]) :
    s.Gives i ((s.fpu.freeCodes s.draw).stackFaulted false (fun k => k.put 0 indefinite)) :=
  gives_trig1 he hn hi fun _ => Fpu.trig1_empty h

theorem gives_trig2_empty (hi : i ∈ [Instr.fptan, .fsincos]) :
    s.Gives i ((s.fpu.freeCodes s.draw).stackFaulted false (fun k => (k.put 0 indefinite).push indefinite)) :=
  gives_trig2 he hn hi fun _ => Fpu.extend_underflow h

theorem gives_f2xm1_empty :
    s.Gives2 .f2xm1 ((s.fpu.freeCodes s.draw).stackFaulted false (fun k => k.put 0 indefinite)) :=
  gives_f2xm1 he hn (Fpu.unary_empty h)

end

theorem gives_trig2_full (h0 : s.fpu.isEmpty 0 = false) (h7 : s.fpu.isEmpty 7 = false) (hi : i ∈ [Instr.fptan, .fsincos]) :
    s.Gives i ((s.fpu.freeCodes s.draw).stackFaulted true (fun k => (k.put 0 indefinite).push indefinite)) :=
  gives_trig2 he hn hi fun _ => Fpu.extend_overflow h0 h7

theorem gives_popping_empty (h : s.fpu.isEmpty 0 = true ∨ s.fpu.isEmpty 1 = true) :
    (∀ i ∈ [Instr.fpatan, .fyl2x],
      s.Gives i ((s.fpu.freeCodes s.draw).stackFaulted false (fun k => (k.put 1 indefinite).pop))) ∧
    s.Gives2 .fyl2xp1 ((s.fpu.freeCodes s.draw).stackFaulted false (fun k => (k.put 1 indefinite).pop)) :=
  ⟨fun _ hi => gives_popping he hn hi fun _ _ => Fpu.popping_empty h, gives_fyl2xp1 he hn (Fpu.popping_empty h)⟩

section
variable (h0 : s.fpu.isEmpty 0 = false)
include h0

theorem gives_trig1_other (h : ordinary (s.fpu.reg 0) (s.fpu.reg 0) = false) (hi : i ∈ [Instr.fsin, .fcos]) :
    s.Gives i (settled (s.fpu.freeCodes s.draw) (nanResult (s.fpu.reg 0) (s.fpu.reg 0)) (fun v k => k.put 0 v)) :=
  gives_trig1 he hn hi fun _ => (Fpu.trig1_full (g := s.fpu.freeCodes s.draw) h0).trans (Fpu.trig_other h)

theorem gives_trig1_infinity (h : extClass (s.fpu.reg 0) = .infinity) (hi : i ∈ [Instr.fsin, .fcos]) :
    s.Gives i (settled (s.fpu.freeCodes s.draw) ⟨indefinite, excI, false⟩
      (fun v k => ((k.put 0 v).setC2 true).setC1 (s.draw.getLsbD 3))) :=
  gives_trig1 he hn hi fun _ => (Fpu.trig1_full (g := s.fpu.freeCodes s.draw) h0).trans (Fpu.trig_infinity h)

section
variable (h7 : s.fpu.isEmpty 7 = true)
include h7

theorem gives_trig2_other (h : ordinary (s.fpu.reg 0) (s.fpu.reg 0) = false) (hi : i ∈ [Instr.fptan, .fsincos]) :
    s.Gives i (settled (s.fpu.freeCodes s.draw) (nanResult (s.fpu.reg 0) (s.fpu.reg 0)) (fun v k => (k.put 0 v).push v)) :=
  gives_trig2 he hn hi fun _ => (Fpu.extend_full (g := s.fpu.freeCodes s.draw) h0 h7).trans (Fpu.trig_other h)

theorem gives_trig2_infinity (h : extClass (s.fpu.reg 0) = .infinity) (hi : i ∈ [Instr.fptan, .fsincos]) :
    s.Gives i (settled (s.fpu.freeCodes s.draw) ⟨indefinite, excI, false⟩
      (fun v k => (((k.put 0 v).push v).setC2 true).setC1 (s.draw.getLsbD 3))) :=
  gives_trig2 he hn hi fun _ => (Fpu.extend_full (g := s.fpu.freeCodes s.draw) h0 h7).trans (Fpu.trig_infinity h)

end

theorem gives_f2xm1_other (h : ordinary (s.fpu.reg 0) (s.fpu.reg 0) = false) :
    s.Gives2 .f2xm1 (settled (s.fpu.freeCodes s.draw) (nanResult (s.fpu.reg 0) (s.fpu.reg 0)) (fun v k => k.put 0 v)) := by
  have result : numeric1 (fun _ => none) (exp2m1Compute s.fpu s.begin.drawn.draw) (regOperand (s.fpu.reg 0)) =
      nanResult (s.fpu.reg 0) (s.fpu.reg 0) := numeric1_other (x := regOperand (s.fpu.reg 0)) h
  exact result ▸ gives_f2xm1 he hn (Fpu.unary_full (g := s.fpu.freeCodes s.draw) h0)

theorem gives_f2xm1_of {n : Num} (h : Plain (s.fpu.reg 0)) (hn' : exp2m1Compute s.fpu s.begin.drawn.draw (s.fpu.reg 0) = n) :
    s.Gives2 .f2xm1 (settled (s.fpu.freeCodes s.draw) (n.withDenormal (extClass (s.fpu.reg 0)).isDenormal)
      (fun v k => k.put 0 v)) :=
  hn' ▸ gives_f2xm1 he hn (f2xm1_ordinary (f := s.fpu) (g := s.fpu.freeCodes s.draw) h0 h s.begin.drawn.draw)

/-- F2XM1 of an operand that is no denormal. -/
theorem gives_f2xm1_exact {n : Num} (h : Plain (s.fpu.reg 0)) (hd : (extClass (s.fpu.reg 0)).isDenormal = false)
    (hn' : exp2m1Compute s.fpu s.begin.drawn.draw (s.fpu.reg 0) = n) :
    s.Gives2 .f2xm1 (settled (s.fpu.freeCodes s.draw) n (fun v k => k.put 0 v)) := by
  have run := gives_f2xm1_of he hn h0 h hn'
  rwa [hd, withDenormal_false] at run

variable (h1 : s.fpu.isEmpty 1 = false)
include h1

theorem gives_popping_other (h : ordinary (s.fpu.reg 1) (s.fpu.reg 0) = false) :
    (∀ i ∈ [Instr.fpatan, .fyl2x],
      s.Gives i (settled (s.fpu.freeCodes s.draw) (nanResult (s.fpu.reg 1) (s.fpu.reg 0)) (fun v k => (k.put 1 v).pop))) ∧
    s.Gives2 .fyl2xp1
      (settled (s.fpu.freeCodes s.draw) (nanResult (s.fpu.reg 1) (s.fpu.reg 0)) (fun v k => (k.put 1 v).pop)) := by
  have run (op : Operand → Operand → Num)
      (hop : op (regOperand (s.fpu.reg 1)) (regOperand (s.fpu.reg 0)) = nanResult (s.fpu.reg 1) (s.fpu.reg 0)) :=
    (Fpu.popping_full (g := s.fpu.freeCodes s.draw) (op := op) h0 h1).trans
      (congrArg (fun n => settled (s.fpu.freeCodes s.draw) n (fun v k => (k.put 1 v).pop)) hop)
  constructor
  · intro i hi
    refine gives_popping he hn hi fun op isOp => run _ ?_
    rcases isOp with rfl | rfl
    · exact numeric2_other (x := regOperand (s.fpu.reg 1)) (y := regOperand (s.fpu.reg 0)) h
    · exact numeric2_other (x := regOperand (s.fpu.reg 1)) (y := regOperand (s.fpu.reg 0)) h
  · exact gives_fyl2xp1 he hn (run _ (numeric2_other (x := regOperand (s.fpu.reg 1)) (y := regOperand (s.fpu.reg 0)) h))

variable {n : Num}

theorem gives_fpatan_of (h : opAtan s.fpu (regOperand (s.fpu.reg 1)) (regOperand (s.fpu.reg 0)) = n) :
    s.Gives .fpatan (settled (s.fpu.freeCodes s.draw) n (fun v k => (k.put 1 v).pop)) :=
  h ▸ gives_of_escRegister (g := fun u g => (g.freeCodes u).binary 1 0 Fpu.pop (opAtan g)) he hn rfl
    (Fpu.popping_full (g := s.fpu.freeCodes s.draw) (op := opAtan s.fpu) h0 h1)

theorem gives_fyl2x_of (h : opYlog2 s.fpu (regOperand (s.fpu.reg 1)) (regOperand (s.fpu.reg 0)) = n) :
    s.Gives .fyl2x (settled (s.fpu.freeCodes s.draw) n (fun v k => (k.put 1 v).pop)) :=
  h ▸ gives_of_escRegister (g := fun u g => (g.freeCodes u).binary 1 0 Fpu.pop (opYlog2 g)) he hn rfl
    (Fpu.popping_full (g := s.fpu.freeCodes s.draw) (op := opYlog2 s.fpu) h0 h1)

theorem gives_fyl2xp1_of
    (h : opYlog2p1 s.fpu s.begin.drawn.draw (regOperand (s.fpu.reg 1)) (regOperand (s.fpu.reg 0)) = n) :
    s.Gives2 .fyl2xp1 (settled (s.fpu.freeCodes s.draw) n (fun v k => (k.put 1 v).pop)) :=
  h ▸ gives_fyl2xp1 he hn (Fpu.popping_full (g := s.fpu.freeCodes s.draw) (op := opYlog2p1 s.fpu s.begin.drawn.draw) h0 h1)

end

end

section
variable {sp : Ext → Ext → Option Num} {cp : Ext → Ext → Num} {b a : Ext} {n : Num} (ord : ordinary b a = true)
include ord

theorem numeric2_regs_special (h : sp b a = some n) : numeric2 sp cp (regOperand b) (regOperand a) = n :=
  numeric2_special (x := regOperand b) (y := regOperand a) ord h

theorem numeric2_regs_compute (h : sp b a = none ∧ cp b a = n) : numeric2 sp cp (regOperand b) (regOperand a) =
    n.withDenormal ((extClass a).isDenormal || (extClass b).isDenormal) := by
  rw [numeric2_compute (x := regOperand b) (y := regOperand a) ord h.1, Bool.or_comm]
  exact congrArg (fun m : Num => m.withDenormal ((extClass a).isDenormal || (extClass b).isDenormal)) h.2

end

end Sys2Proof.Machine
end

section
/-! ## The obligation about the transcendental instructions -/
set_option Elab.async false

namespace Sys2Proof.Machine

/-- The value of a trigonometric function, `v` at zero. -/
def trigAt (f : Fpu) (a v : Ext) (op : Transc) : Num := if extClass a = .zero then ⟨v, 0, false⟩ else transc f op a a

theorem trigValue_eq_at (f : Fpu) (a : Ext) (op : Transc) (hop : op ≠ .cos) : trigValue f op a = trigAt f a a op := by
  unfold trigAt
  split_ifs with h
  · exact trigValue_zero op hop h
  · exact trigValue_nonzero op h

theorem trigValue_cos_eq_at (f : Fpu) (a : Ext) : trigValue f .cos a = trigAt f a extOne .cos := by
  unfold trigAt
  split_ifs with h
  · exact trigValue_cos_zero h
  · exact trigValue_nonzero .cos h

section
variable {s : State} (he : s.EscReady) (hn : s.NoFpuError) (h0 : s.fpu.isEmpty 0 = false)
include he hn h0

/-- FSIN, FCOS, FPTAN, FSINCOS of an argument in range. -/
theorem gives_trig_in_range (fin : finiteExt (s.fpu.reg 0) = true) (lt : |extValue (s.fpu.reg 0)| < 2 ^ 63) :
    s.Gives .fsin (settled ((s.fpu.freeCodes s.draw).setC2 false)
      ((trigAt s.fpu (s.fpu.reg 0) (s.fpu.reg 0) .sin).withDenormal (extClass (s.fpu.reg 0)).isDenormal) (fun v k => k.put 0 v)) ∧
    s.Gives .fcos (settled ((s.fpu.freeCodes s.draw).setC2 false)
      ((trigAt s.fpu (s.fpu.reg 0) extOne .cos).withDenormal (extClass (s.fpu.reg 0)).isDenormal) (fun v k => k.put 0 v)) ∧
    (s.fpu.isEmpty 7 = true →
      s.Gives .fptan (settled ((s.fpu.freeCodes s.draw).setC2 false)
        ((trigAt s.fpu (s.fpu.reg 0) (s.fpu.reg 0) .tan).withDenormal (extClass (s.fpu.reg 0)).isDenormal)
        (fun v k => (k.put 0 v).push extOne)) ∧
      s.Gives .fsincos (settled ((s.fpu.freeCodes s.draw).setC2 false)
        (((trigAt s.fpu (s.fpu.reg 0) (s.fpu.reg 0) .sin).also (trigAt s.fpu (s.fpu.reg 0) extOne .cos)).withDenormal
          (extClass (s.fpu.reg 0)).isDenormal)
        (fun v k => (k.put 0 v).push (trigAt s.fpu (s.fpu.reg 0) extOne .cos).val))) := by
  have small := tooLarge_eq_false fin (lt.trans_eq (by norm_num))
  simp only [← trigValue_cos_eq_at, ← trigValue_eq_at s.fpu (s.fpu.reg 0) .sin nofun,
    ← trigValue_eq_at s.fpu (s.fpu.reg 0) .tan nofun]
  exact ⟨gives_fsin he hn h0 fin small, gives_fcos he hn h0 fin small,
    fun h7 => ⟨gives_fptan he hn h0 fin small h7, gives_fsincos he hn h0 fin small h7⟩⟩

/-- F2XM1 by the classes of its operand. -/
theorem gives_f2xm1_table (P : Num → Prop)
    (run : ∀ n, s.Gives2 .f2xm1 (settled (s.fpu.freeCodes s.draw) n (fun v k => k.put 0 v)) → P n) :
    (extClass (s.fpu.reg 0) = .infinity → P ⟨if extNeg (s.fpu.reg 0) then 0xBFFF8000000000000000#80 else s.fpu.reg 0, 0, false⟩) ∧
    (extClass (s.fpu.reg 0) = .zero → P ⟨s.fpu.reg 0, 0, false⟩) ∧
    (s.fpu.reg 0 = 0x3FFF8000000000000000#80 → P ⟨s.fpu.reg 0, 0, false⟩) ∧
    (s.fpu.reg 0 = 0xBFFF8000000000000000#80 → P ⟨0xBFFE8000000000000000#80, 0, false⟩) ∧
    (finiteExt (s.fpu.reg 0) = true → extClass (s.fpu.reg 0) ≠ .zero → |extValue (s.fpu.reg 0)| < 1 →
      P ((transc s.fpu .exp2m1 (s.fpu.reg 0) (s.fpu.reg 0)).withDenormal (extClass (s.fpu.reg 0)).isDenormal)) := by
  refine ⟨fun h => run _ ?_, fun h => run _ ?_, fun h => run _ ?_, fun h => run _ ?_, fun fin nz lt => run _ ?_⟩
  · exact gives_f2xm1_exact he hn h0 (plain_of_infinity h) (isDenormal_of_infinity h) (exp2m1_infinity h)
  · exact gives_f2xm1_exact he hn h0 (plain_of_zero h) (isDenormal_of_zero h) (exp2m1_zero h)
  · refine gives_f2xm1_exact he hn h0 ?_ ?_ ?_ <;> rw [h, ← extOne_eq]
    · exact plain_of_finite (by decide)
    · decide
    · exact exp2m1_one
  · refine gives_f2xm1_exact he hn h0 ?_ ?_ ?_ <;> rw [h]
    · exact plain_of_finite (by decide)
    · decide
    · exact exp2m1_minus_one
  · exact gives_f2xm1_of he hn h0 (plain_of_finite fin) (exp2m1_small fin nz lt)

end

/-- The first part: finite operands. -/
theorem transcendentals_finite (s : State) (he : s.EscReady) (hn : s.NoFpuError) (h0 : s.fpu.isEmpty 0 = false)
    (fin : finiteExt (s.fpu.reg 0) = true) :
    let f := s.fpu
    let a := f.reg 0
    let den := (extClass a).isDenormal
    (den && !f.masks.getLsbD 1) = false →
    (∀ i ∈ [Instr.fsin, .fcos, .fptan, .fsincos], i ∈ [Instr.fsin, .fcos] ∨ f.isEmpty 7 = true →
      (tooLarge a = true → ∃ c3 c1 c0 : Bool, s.Gives i ((f.setCodes c3 true c0).setC1 c1)) ∧
      (tooLarge a = false → ∃ (c3 c1 c0 : Bool) (e : Exns) (v w : Ext), e &&& 7 = excIf den excD ∧
        s.GivesTrig i w ((((f.setCodes c3 false c0).raise e).setC1 c1).put 0 v))) ∧
    (∃ (c3 c2 c1 c0 : Bool) (e : Exns) (v : Ext), (e.getLsbD 5 = false → c1 = false) ∧
      s.Gives2 .f2xm1 ((((f.setCodes c3 c2 c0).raise e).setC1 c1).put 0 v)) ∧
    (∀ i ∈ [Instr.fpatan, .fyl2x, .fyl2xp1], f.isEmpty 1 = false → finiteExt (f.reg 1) = true → f.masks &&& 7 = 7 →
      ∃ (c3 c2 c1 c0 : Bool) (e : Exns) (v : Ext), (e.getLsbD 5 = false → c1 = false) ∧
        if i = .fyl2xp1 then s.Gives2 i (((((f.setCodes c3 c2 c0).raise e).setC1 c1).put 1 v).pop)
        else s.Gives i (((((f.setCodes c3 c2 c0).raise e).setC1 c1).put 1 v).pop)) := by
  intro f a den masked
  refine ⟨fun i hi h7 => ⟨fun large => ?_, fun small => ?_⟩, ?_, fun i hi h1 fin1 all => ?_⟩
  · exact gives_trig_large he hn h0 fin large hi h7
  · exact gives_trig_small he hn h0 fin masked small hi h7
  · exact gives_f2xm1_finite he hn h0 fin masked
  · exact gives_popping_finite he hn h0 h1 fin fin1 all hi

/-- Settles O42: by the classes of the operands. -/
theorem fpuTranscendentals : Obligations.FpuTranscendentals := by
  refine ⟨?_, ?_, ?_⟩
  · intro s he hn h0 fin f a den gives gives2 masked
    obtain ⟨trig, exp, popping⟩ := transcendentals_finite s he hn h0 fin masked
    refine ⟨fun i hi h7 => ⟨(trig i hi h7).1, fun small => ?_⟩, exp, popping⟩
    have given := (trig i hi h7).2 small
    simp only [State.GivesTrig, extOne_eq] at given
    exact given
  · intro s he hn f g h a b gives gives2 onTop twice popped den den2 sign quarters
    refine ⟨?_, ?_, ?_, ?_, ?_, ?_⟩
    · exact fun h0 => ⟨fun i hi => gives_trig1_empty he hn h0 hi, fun i hi => gives_trig2_empty he hn h0 hi,
        gives_f2xm1_empty he hn h0⟩
    · exact fun h0 h7 i hi => gives_trig2_full he hn h0 h7 hi
    · exact gives_popping_empty he hn
    · intro h0
      obtain ⟨inf, zero, one, minusOne, small⟩ := gives_f2xm1_table he hn h0 _ fun _ => id
      refine ⟨fun other => ⟨?_, ?_, ?_⟩, fun isInf => ⟨?_, ?_, ?_⟩, fun fin lt => ?_, zero, one, minusOne, small⟩
      · exact fun i hi => gives_trig1_other he hn h0 other hi
      · exact fun h7 i hi => gives_trig2_other he hn h0 h7 other hi
      · exact gives_f2xm1_other he hn h0 other
      · exact fun i hi => ⟨s.draw.getLsbD 3, gives_trig1_infinity he hn h0 isInf hi⟩
      · exact fun h7 i hi => ⟨s.draw.getLsbD 3, gives_trig2_infinity he hn h0 h7 isInf hi⟩
      · exact inf isInf
      · have range := gives_trig_in_range he hn h0 fin lt
        simp only [trigAt, Num.also, extOne_eq] at range
        exact range
    · exact fun h0 h1 other => gives_popping_other he hn h0 h1 other
    · intro h0 h1 ord atan ylog ylogp1 invalid
      have fpatan := atan_table (f := f) (b := b) (a := a) (P := atan) fun n h =>
        gives_fpatan_of he hn h0 h1 (numeric2_regs_compute ord ⟨rfl, h⟩)
      have fyl2x := ylog2_table (f := f) (b := b) (a := a) (P := ylog)
        (Q := fun n => gives .fyl2x (settled g n popped))
        (fun n h => gives_fyl2x_of he hn h0 h1 (numeric2_regs_compute ord h))
        (fun n h => gives_fyl2x_of he hn h0 h1 (numeric2_regs_special ord h))
      have fyl2xp1 := ylog2p1_table (f := f) (u := s.begin.drawn.draw) (b := b) (a := a) (P := ylogp1)
        (Q := fun n => gives2 .fyl2xp1 (settled g n popped))
        (fun n h => gives_fyl2xp1_of he hn h0 h1 (numeric2_regs_compute ord h))
        (fun n h => gives_fyl2xp1_of he hn h0 h1 (numeric2_regs_special ord h))
      rw [extOne_eq] at fpatan fyl2x
      exact ⟨fpatan, fyl2x, fyl2xp1⟩
  · intro f op x y v n hv
    exact transc_spec hv

end Sys2Proof.Machine
end

section
/-! ## Plain memory: what a read gives and a write leaves -/
set_option Elab.async false

namespace Sys2Proof.Machine

/-! ### The bytes at places -/

section
variable {s t : State} {ps qs : List BytePlace}

theorem memBytes_lt (s : State) (ps : List BytePlace) : memBytes s ps < 2 ^ (8 * ps.length) := by
  induction ps with
  | nil => exact Nat.one_pos
  | cons p ps ih =>
    obtain ⟨pa, attr⟩ := p
    have low := (memRead s.mem (s.a20 pa)).isLt
    rw [memBytes, List.length_cons, Nat.mul_succ, Nat.pow_add, show (2 : Nat) ^ 8 = 256 from rfl]
    omega

theorem memBytes_append : memBytes s (ps ++ qs) = memBytes s ps + memBytes s qs * 2 ^ (8 * ps.length) := by
  induction ps with
  | nil => simp [memBytes]
  | cons p ps ih =>
    obtain ⟨pa, attr⟩ := p
    rw [List.cons_append, memBytes, memBytes, ih, List.length_cons, Nat.mul_succ, Nat.pow_add, show (2 : Nat) ^ 8 = 256 from rfl]
    ring

/-- The bytes at places that memory keeps. -/
theorem memBytes_congr (ha : ∀ a, t.a20 a = s.a20 a) (h : ∀ p ∈ ps, memRead t.mem (s.a20 p.1) = memRead s.mem (s.a20 p.1)) :
    memBytes t ps = memBytes s ps := by
  induction ps with
  | nil => rfl
  | cons p ps ih =>
    obtain ⟨pa, attr⟩ := p
    rw [memBytes, memBytes, ha, h _ List.mem_cons_self, ih fun p hp => h p (List.mem_cons_of_mem _ hp)]

/-- Places at linear or physical addresses that rise by one, modulo 2^32. -/
def Consecutive : Nat → List BytePlace → Prop
  | _, [] => True
  | a, p :: ps => p.1 % 2 ^ 32 = a % 2 ^ 32 ∧ Consecutive (a + 1) ps

theorem Consecutive.drop {a : Nat} (h : Consecutive a ps) : ∀ k, Consecutive (a + k) (ps.drop k) := by
  induction ps generalizing a with
  | nil =>
    intro k
    rw [List.drop_nil]
    trivial
  | cons p ps ih =>
    intro k
    cases k with
    | zero => exact h
    | succ k =>
      have := ih h.2 k
      rwa [Nat.add_assoc, Nat.add_comm 1 k] at this

theorem Consecutive.take {a : Nat} (h : Consecutive a ps) : ∀ k, Consecutive a (ps.take k) := by
  induction ps generalizing a with
  | nil =>
    intro k
    rw [List.take_nil]
    trivial
  | cons p ps ih =>
    intro k
    cases k with
    | zero => trivial
    | succ k => exact ⟨h.1, ih h.2 k⟩

theorem Consecutive.append {a : Nat} (h : Consecutive a ps) (k : Consecutive (a + ps.length) qs) : Consecutive a (ps ++ qs) := by
  induction ps generalizing a with
  | nil => exact k
  | cons p ps ih =>
    refine ⟨h.1, ih h.2 ?_⟩
    rwa [List.length_cons, Nat.add_comm ps.length, ← Nat.add_assoc] at k

theorem places_zero (pa : Nat) (attr : Attr) : places pa attr 0 = [] := rfl

theorem places_succ (pa : Nat) (attr : Attr) (n : Nat) : places pa attr (n + 1) = (pa, attr) :: places (pa + 1) attr n := by
  simp only [places, List.range_succ_eq_map, List.map_cons, List.map_map, Nat.add_zero]
  congr 1
  refine List.map_congr_left fun k _ => ?_
  simp only [Function.comp]
  congr 1
  omega

theorem consecutive_places {pa a : Nat} (attr : Attr) (h : pa % 2 ^ 32 = a % 2 ^ 32) (n : Nat) : Consecutive a (places pa attr n) := by
  induction n generalizing pa a with
  | zero => trivial
  | succ n ih =>
    rw [places_succ]
    exact ⟨h, ih (by omega)⟩

/-! ### Addresses under A20M# -/

theorem State.a20_mod_four (s : State) (a : Nat) : s.a20 a % 4 = a % 4 := by
  unfold State.a20
  simp only
  split <;> omega

theorem State.a20_congr (s : State) {a b : Nat} (h : a % 2 ^ 32 = b % 2 ^ 32) : s.a20 a = s.a20 b := by
  simp only [State.a20, h]

theorem State.a20_add (s : State) {a k : Nat} (h : a % 4 + k < 4) : s.a20 (a + k) = s.a20 a + k := by
  unfold State.a20
  simp only
  split <;> omega

/-- Bytes less than 2^20 apart lie at different addresses. -/
theorem State.a20_ne (s : State) {a b : Nat} (lt : a < b) (near : b < a + 2 ^ 20) : s.a20 a ≠ s.a20 b := by
  unfold State.a20
  simp only
  split <;> omega

/-- The bytes of a dword. -/
theorem memBytes_dword {a : Nat} (h : Consecutive a ps) (hd : a % 4 + ps.length ≤ 4) :
    memBytes s ps = memValue s.mem (s.a20 a) ps.length := by
  induction ps generalizing a with
  | nil => rfl
  | cons p ps ih =>
    obtain ⟨pa, attr⟩ := p
    obtain ⟨first, rest⟩ := h
    rw [List.length_cons] at hd ⊢
    rw [memBytes, memValue, s.a20_congr first]
    cases ps with
    | nil => rfl
    | cons q ps =>
      rw [List.length_cons] at hd
      have next : s.a20 (a + 1) = s.a20 a + 1 := s.a20_add (by omega)
      rw [ih rest (by rw [List.length_cons]; omega), next]

end

/-! ### Reading -/

section
variable {s : State} {locked : Bool} {ps : List BytePlace} {a : Nat} (lines : s.cache.lines = []) (ram : s.regions = [])
  (cd : s.cd = true)

include ram in
theorem regionAt_ram (a : Nat) : s.regionAt a = (.ram, true) := by
  rw [State.regionAt, ram]
  rfl

include ram in
theorem busRead_ram (code : Bool) (attr : Attr) (a n : Nat) : busRead code attr a n s = .ok (memValue s.mem a n) s := by
  simp only [busRead, regionAt_ram ram]

include lines in
theorem cache_find_none (a : Nat) : s.cache.find a = none := by
  rw [Cache.find, lines]
  rfl

include lines ram cd

theorem physRead_bus (locked : Bool) (attr : Attr) (pa n : Nat) :
    physRead locked attr pa n s = .ok (memValue s.mem (s.a20 pa) n) s := by
  have miss : (if locked then none else s.cache.find (s.a20 pa)) = none := by
    cases locked
    · exact cache_find_none lines _
    · rfl
  have nofill : s.fills attr locked (s.a20 pa) = false := by
    rw [State.fills, cd]
    simp
  simp only [physRead, miss, nofill, Bool.false_eq_true, if_false, busRead_ram ram]

theorem readTransfer_bus (h : Consecutive a ps) (hd : a % 4 + ps.length ≤ 4) :
    readTransfer locked ps s = .ok (memBytes s ps) s := by
  cases ps with
  | nil => rfl
  | cons p ps =>
    rw [memBytes_dword h hd]
    refine (physRead_bus lines ram cd locked p.2 p.1 (ps.length + 1)).trans ?_
    rw [s.a20_congr h.1, List.length_cons]

omit lines ram cd in
theorem lowPart_consecutive (h : Consecutive a ps) : lowPart ps = min ps.length (4 - a % 4) := by
  cases ps with
  | nil => exact (Nat.zero_min _).symm
  | cons p ps =>
    have first := h.1
    show min _ (4 - p.1 % 4) = _
    congr 2
    omega

theorem readPiece_bus (h : Consecutive a ps) (hl : ps.length ≤ 4) : readPiece locked ps s = .ok (memBytes s ps) s := by
  have hk : lowPart ps ≤ ps.length := lowPart_le ps
  have part := lowPart_consecutive h
  have low : a % 4 + (ps.take (lowPart ps)).length ≤ 4 := by
    rw [List.length_take, min_eq_left hk]
    omega
  have high : (a + lowPart ps) % 4 + (ps.drop (lowPart ps)).length ≤ 4 := by
    rw [List.length_drop]
    omega
  refine M.bind_of_ok (readTransfer_bus lines ram cd (h.drop _) high)
    (M.bind_of_ok (readTransfer_bus lines ram cd (h.take _) low) ?_)
  have whole : memBytes s ps = memBytes s (ps.take (lowPart ps) ++ ps.drop (lowPart ps)) := by rw [List.take_append_drop]
  rw [whole, memBytes_append, List.length_take, min_eq_left hk]
  rfl

theorem readPieces_bus : ∀ a : Nat, Consecutive a ps → readPieces locked (pieces ps) s = .ok (memBytes s ps) s := by
  induction ps using pieces.induct with
  | case1 p q r x ps ih =>
    intro a h
    have first : Consecutive a [p, q, r, x] := ⟨h.1, h.2.1, h.2.2.1, h.2.2.2.1, trivial⟩
    rw [pieces]
    refine M.bind_of_ok (readPiece_bus lines ram cd first (le_refl 4)) (M.bind_of_ok (ih _ h.2.2.2.2) ?_)
    rw [show p :: q :: r :: x :: ps = [p, q, r, x] ++ ps from rfl, memBytes_append, Nat.mul_comm (memBytes s ps)]
    rfl
  | case2 => exact fun _ _ => rfl
  | case3 ps h1 h2 =>
    intro a h
    have short : ps.length ≤ 4 := by
      rcases ps with _ | ⟨p, _ | ⟨q, _ | ⟨r, _ | ⟨x, ps⟩⟩⟩⟩
      · exact Nat.zero_le _
      · simp
      · simp
      · simp
      · exact absurd rfl (h1 p q r x ps)
    rw [pieces]
    · exact M.bind_of_ok (readPiece_bus lines ram cd h short) rfl
    all_goals assumption

/-- A read gives the bytes and changes nothing. -/
theorem readBytes_bus (h : Consecutive a ps) : readBytes locked ps s = .ok (memBytes s ps) s := readPieces_bus lines ram cd a h

end

/-! ### Writing -/

/-- No two of the places are one byte. -/
def State.Apart (s : State) (ps : List BytePlace) : Prop := (ps.map fun p => s.a20 p.1).Nodup

section
variable {s : State} {ps qs : List BytePlace}

theorem State.Apart.split (h : s.Apart (ps ++ qs)) :
    s.Apart ps ∧ s.Apart qs ∧ (∀ p ∈ ps, ∀ q ∈ qs, s.a20 q.1 ≠ s.a20 p.1) := by
  rw [State.Apart, List.map_append, List.nodup_append] at h
  obtain ⟨left, right, apart⟩ := h
  exact ⟨left, right, fun p hp q hq e =>
    apart _ (List.mem_map_of_mem hp) _ (List.mem_map_of_mem hq) e.symm⟩

theorem State.Apart.of_touches {t : State} (h : s.Apart ps) (k : s.Touches t) : t.Apart ps := by
  simp only [State.Apart, k.a20]
  exact h

theorem Consecutive.later_ne {a b : Nat} (h : Consecutive b ps) (lt : a < b) (le : b + ps.length ≤ a + 2 ^ 20) :
    ∀ p ∈ ps, s.a20 p.1 ≠ s.a20 a := by
  induction ps generalizing b with
  | nil => simp
  | cons q ps ih =>
    intro p hp
    rw [List.length_cons] at le
    rcases List.mem_cons.1 hp with rfl | hp
    · rw [s.a20_congr h.1]
      exact (s.a20_ne lt (by omega)).symm
    · exact ih h.2 (by omega) (by omega) p hp

theorem State.Apart.of_consecutive {a : Nat} (h : Consecutive a ps) (hl : ps.length ≤ 2 ^ 20) : s.Apart ps := by
  induction ps generalizing a with
  | nil => exact List.nodup_nil
  | cons p ps ih =>
    rw [List.length_cons] at hl
    refine List.nodup_cons.2 ⟨fun hm => ?_, ih h.2 (by omega)⟩
    obtain ⟨q, hq, e⟩ := List.mem_map.1 hm
    exact h.2.later_ne (Nat.lt_succ_self a) (by omega) q hq (e.trans (s.a20_congr h.1))

/-! A write without a cache -/

theorem memBytes_storedAt {t : State} (ha : ∀ a, t.a20 a = s.a20 a) :
    ∀ (ps : List BytePlace) (v : Nat) (m : Memory), s.Apart ps → Memory.wf m = true → t.mem = s.storedAt ps v m →
      memBytes t ps = v % 2 ^ (8 * ps.length) := by
  intro ps
  induction ps with
  | nil =>
    intro v m _ _ _
    exact (Nat.mod_one v).symm
  | cons p ps ih =>
    intro v m apart wf hm
    obtain ⟨new, rest⟩ := List.nodup_cons.1 apart
    have others : ∀ q ∈ ps, s.a20 q.1 ≠ s.a20 p.1 := fun q hq e => new (List.mem_map.2 ⟨q, hq, e⟩)
    have first : memRead t.mem (s.a20 p.1) = BitVec.ofNat 8 v := by
      rw [hm, State.storedAt, storedAt_mem s ps _ _ _ others]
      exact memRead_memWrite_self wf
    have later := ih (v / 256) _ rest (memWrite_wf wf (s.a20_lt p.1)) hm
    obtain ⟨pa, attr⟩ := p
    rw [memBytes, ha, first, later, BitVec.toNat_ofNat, List.length_cons, Nat.mul_succ, Nat.add_comm, Nat.pow_add,
      show (2 : Nat) ^ 8 = 256 from rfl, Nat.mul_comm (2 ^ _) 256, Nat.mod_mul, Nat.add_comm]

/-- What changes memory only. -/
def State.OnlyMem (s t : State) : Prop := t = { s with mem := t.mem }

section
variable {t u : State}

theorem State.OnlyMem.refl (s : State) : s.OnlyMem s := rfl

theorem State.OnlyMem.trans (h : s.OnlyMem t) (k : t.OnlyMem u) : s.OnlyMem u := by
  unfold State.OnlyMem at *
  rw [k, h]

theorem State.OnlyMem.lines (h : s.OnlyMem t) (hl : s.cache.lines = []) : t.cache.lines = [] := by rw [h]; exact hl
theorem State.OnlyMem.ram (h : s.OnlyMem t) (hr : s.regions = []) : t.regions = [] := by rw [h]; exact hr

end

/-! A write that goes to RAM -/

section
variable {t : State} {v : Nat} (lines : s.cache.lines = []) (ram : s.regions = [])

include ram in
theorem busWrote_ram (attr : Attr) (a v : Nat) : s.busWrote ps attr a v = { s with mem := s.storedAt ps v s.mem } := by
  simp only [State.busWrote, regionAt_ram ram]

include lines ram

theorem wroteTransfer_bus (ps : List BytePlace) (v : Nat) :
    s.wroteTransfer ps v = { s with mem := s.storedAt ps v s.mem } := by
  cases ps with
  | nil => rfl
  | cons p ps =>
    simp only [State.wroteTransfer, cache_find_none lines]
    exact busWrote_ram ram ..

theorem wroteTransfer_onlyMem (ps : List BytePlace) (v : Nat) : s.OnlyMem (s.wroteTransfer ps v) := by
  rw [wroteTransfer_bus lines ram]
  rfl

theorem wrotePiece_onlyMem (ps : List BytePlace) (v : Nat) : s.OnlyMem (s.wrotePiece ps v) := by
  have first := wroteTransfer_onlyMem lines ram (ps.drop (lowPart ps)) (v / 2 ^ (8 * lowPart ps))
  exact first.trans (wroteTransfer_onlyMem (first.lines lines) (first.ram ram) _ _)

theorem memBytes_wroteTransfer (wf : Memory.wf s.mem = true) (apart : s.Apart ps) :
    memBytes (s.wroteTransfer ps v) ps = v % 2 ^ (8 * ps.length) := by
  refine memBytes_storedAt (wroteTransfer_touches s ps v).a20 ps v s.mem apart wf ?_
  rw [wroteTransfer_bus lines ram]

end

/-- Parts of a value side by side. -/
theorem mod_two_pow_add (v i j : Nat) :
    v % 2 ^ (8 * i) + v / 2 ^ (8 * i) % 2 ^ (8 * j) * 2 ^ (8 * i) = v % 2 ^ (8 * (i + j)) := by
  rw [Nat.mul_add, Nat.pow_add, Nat.mod_mul, Nat.mul_comm (_ % _)]

theorem memBytes_wrotePiece (lines : s.cache.lines = []) (ram : s.regions = []) (wf : Memory.wf s.mem = true) (apart : s.Apart ps)
    (v : Nat) : memBytes (s.wrotePiece ps v) ps = v % 2 ^ (8 * ps.length) := by
  have hk := lowPart_le ps
  have whole : ps.take (lowPart ps) ++ ps.drop (lowPart ps) = ps := List.take_append_drop ..
  obtain ⟨low, high, disjoint⟩ := State.Apart.split (ps := ps.take (lowPart ps)) (whole.symm ▸ apart)
  have first := wroteTransfer_onlyMem lines ram (ps.drop (lowPart ps)) (v / 2 ^ (8 * lowPart ps))
  have touches := wroteTransfer_touches s (ps.drop (lowPart ps)) (v / 2 ^ (8 * lowPart ps))
  have wf' := wroteTransfer_wf s (ps.drop (lowPart ps)) (v / 2 ^ (8 * lowPart ps)) wf
  have lowBytes := memBytes_wroteTransfer (v := v) (first.lines lines) (first.ram ram) wf' (low.of_touches touches)
  have highBytes := memBytes_wroteTransfer (v := v / 2 ^ (8 * lowPart ps)) lines ram wf high
  have kept : memBytes (s.wrotePiece ps v) (ps.drop (lowPart ps)) =
      memBytes (s.wroteTransfer (ps.drop (lowPart ps)) (v / 2 ^ (8 * lowPart ps))) (ps.drop (lowPart ps)) := by
    refine memBytes_congr (wroteTransfer_touches _ _ _).a20 fun q hq => wroteTransfer_mem _ _ _ _ fun p hp => ?_
    rw [touches.a20, touches.a20]
    exact (disjoint p hp q hq).symm
  have split : memBytes (s.wrotePiece ps v) ps =
      memBytes (s.wrotePiece ps v) (ps.take (lowPart ps) ++ ps.drop (lowPart ps)) := by rw [whole]
  rw [split, memBytes_append, kept, highBytes, show memBytes (s.wrotePiece ps v) (ps.take (lowPart ps)) = _ from lowBytes,
    List.length_take, List.length_drop, min_eq_left hk, mod_two_pow_add, Nat.add_sub_of_le hk]

/-- A write to RAM changes the bytes at the places only, which then hold the value. -/
theorem wrotePieces_bus : ∀ (v : Nat) (s : State), s.cache.lines = [] → s.regions = [] → Memory.wf s.mem = true → s.Apart ps →
    s.OnlyMem (s.wrotePieces (pieces ps) v) ∧ memBytes (s.wrotePieces (pieces ps) v) ps = v % 2 ^ (8 * ps.length) := by
  induction ps using pieces.induct with
  | case1 p q r x ps ih =>
    intro v s lines ram wf apart
    obtain ⟨low, high, disjoint⟩ := State.Apart.split (ps := [p, q, r, x]) (qs := ps) apart
    have first := wrotePiece_onlyMem lines ram [p, q, r, x] v
    have touches := wrotePiece_touches s [p, q, r, x] v
    have wf' : Memory.wf (s.wrotePiece [p, q, r, x] v).mem = true := wroteTransfer_wf _ _ _ (wroteTransfer_wf _ _ _ wf)
    obtain ⟨only, rest⟩ := ih (v / 2 ^ 32) _ (first.lines lines) (first.ram ram) wf' (high.of_touches touches)
    have bytes := memBytes_wrotePiece lines ram wf low v
    rw [pieces]
    refine ⟨first.trans only, ?_⟩
    have kept : memBytes ((s.wrotePiece [p, q, r, x] v).wrotePieces (pieces ps) (v / 2 ^ 32)) [p, q, r, x] =
        memBytes (s.wrotePiece [p, q, r, x] v) [p, q, r, x] := by
      refine memBytes_congr (wrotePieces_touches _ _ _).a20 fun a ha => wrotePieces_mem _ _ _ _ fun qs hqs b hb => ?_
      rw [touches.a20, touches.a20]
      exact disjoint a ha b (mem_of_pieces hqs hb)
    show memBytes ((s.wrotePiece [p, q, r, x] v).wrotePieces (pieces ps) (v / 2 ^ 32)) ([p, q, r, x] ++ ps) = _
    rw [memBytes_append, kept, bytes, rest]
    have := mod_two_pow_add v 4 ps.length
    rw [show [p, q, r, x].length = 4 from rfl, this]
    congr 3
    simp only [List.length_cons]
    omega
  | case2 =>
    intro v s _ _ _ _
    exact ⟨rfl, (Nat.mod_one v).symm⟩
  | case3 ps h1 h2 =>
    intro v s lines ram wf apart
    rw [pieces]
    · exact ⟨wrotePiece_onlyMem lines ram ps v, memBytes_wrotePiece lines ram wf apart v⟩
    all_goals assumption

section
variable (lines : s.cache.lines = []) (ram : s.regions = []) (wf : Memory.wf s.mem = true) (apart : s.Apart ps)
include lines ram wf apart

theorem wrote_onlyMem (v : Nat) : s.OnlyMem (s.wrote ps v) := (wrotePieces_bus v s lines ram wf apart).1

theorem memBytes_wrote (v : Nat) : memBytes (s.wrote ps v) ps = v % 2 ^ (8 * ps.length) :=
  (wrotePieces_bus v s lines ram wf apart).2

end

end

end Sys2Proof.Machine
end

section
/-! ## Plain memory: operands located, loaded and stored -/
set_option Elab.async false

namespace Sys2Proof.Machine

section
variable {s : State} {sr : SegName} {off n : Nat} {w : Bool}

/-! ### The checks -/

/-- A segment register that an access may go through. -/
def State.Usable (s : State) (sr : SegName) (w : Bool) : Prop := s.pe = false ∨ ((s.segs.get sr).hid.valid = true ∧
  (if w then (s.segs.get sr).hid.writable else (s.segs.get sr).hid.readable) = true)

theorem segCheck_usable (h : s.Usable sr w) (hl : (s.segs.get sr).hid.inLimit off n = true) :
    segCheck sr off n w s = .ok (((s.segs.get sr).hid.base.toNat + off) % 2 ^ 32) s := by
  unfold segCheck
  rcases h with hp | ⟨valid, type⟩
  · simp only [hp, hl, Bool.false_and, Bool.false_eq_true, if_false, if_true]
  · simp only [valid, type, hl, Bool.not_true, Bool.and_false, Bool.false_eq_true, if_false, if_true]

/-- The exception of an address beyond the limit. -/
def limitVector (sr : SegName) : Byte := if sr = .ss then 12 else 13

theorem segCheck_beyond (h : s.Usable sr w) (hl : (s.segs.get sr).hid.inLimit off n = false) :
    segCheck sr off n w s = .error (.exn { vector := limitVector sr, code := some 0, cls := .fault }) s := by
  have fault : segFault sr s = (.error (.exn { vector := limitVector sr, code := some 0, cls := .fault }) s :
      EStateM.Result Stop State Nat) := by
    cases sr <;> rfl
  unfold segCheck
  rcases h with hp | ⟨valid, type⟩
  · simp only [hp, hl, Bool.false_and, Bool.false_eq_true, if_false, fault]
  · simp only [valid, type, hl, Bool.not_true, Bool.and_false, Bool.false_eq_true, if_false, fault]

theorem segCheck_unusable (h : ¬ s.Usable sr w) :
    segCheck sr off n w s = .error (.exn { vector := 13, code := some 0, cls := .fault }) s := by
  rw [State.Usable, not_or, not_and_or] at h
  obtain ⟨real, bad⟩ := h
  have hp : s.pe = true := by simpa using real
  unfold segCheck
  rcases bad with invalid | type
  · simp only [hp, Bool.eq_false_iff.2 invalid, Bool.not_false, Bool.and_true, if_true]
    rfl
  · simp only [hp, Bool.eq_false_iff.2 type, Bool.not_false, Bool.and_true, if_true]
    split <;> rfl

theorem alignCheck_aligned {lin : Nat} (h : lin % n = 0 ∨ (s.am && s.flags.ac && s.cpl == 3) = false) :
    alignCheck lin n s = .ok () s := by
  refine if_neg ?_
  rcases h with h | h
  · rw [h]
    simp
  · rw [h]
    simp

theorem alignCheck_misaligned {lin : Nat} (h : ¬ (lin % n = 0 ∨ (s.am && s.flags.ac && s.cpl == 3) = false)) :
    alignCheck lin n s = .error (.exn { vector := 17, code := some 0, cls := .fault }) s := by
  obtain ⟨odd, checked⟩ := not_or.1 h
  refine if_pos ?_
  rw [Bool.eq_true_of_not_eq_false checked]
  simpa using odd

/-! ### Data breakpoints that are not armed -/

theorem not_armed (h : s.dbg.dr7 &&& 0xFF = 0) {i : Nat} (hi : i < 4) : s.dbg.armed i = false := by
  have bit : ∀ k < 8, s.dbg.dr7.getLsbD k = false := by
    intro k hk
    have masked := congrArg (·.getLsbD k) h
    have mask : ∀ k < 8, (0xFF#32 : DWord).getLsbD k = true := by decide
    have both : (s.dbg.dr7.getLsbD k && (0xFF#32 : DWord).getLsbD k) = false := BitVec.getLsbD_and.symm.trans (masked.trans BitVec.getLsbD_zero)
    rwa [mask k hk, Bool.and_true] at both
  rw [DebugRegs.armed, bit _ (by omega), bit _ (by omega)]
  rfl

theorem breakHit_unarmed (h : s.dbg.dr7 &&& 0xFF = 0) {i : Nat} (hi : i < 4) (lin n : Nat) (w : Bool) :
    breakHit i lin n w s = .ok false s := by
  simp only [breakHit, not_armed h hi, Bool.not_false, Bool.true_or, if_true]

theorem noteAccess_unarmed (h : s.dbg.dr7 &&& 0xFF = 0) (lin n : Nat) (w : Bool) : noteAccess lin n w s = .ok () s := by
  refine M.bind_of_ok (breakHit_unarmed h (by decide) lin n w) (M.bind_of_ok (breakHit_unarmed h (by decide) lin n w)
    (M.bind_of_ok (breakHit_unarmed h (by decide) lin n w) (M.bind_of_ok (breakHit_unarmed h (by decide) lin n w) ?_)))
  have none : s.latch.dataBreak ||| (BitVec.ofBool false ++ BitVec.ofBool false ++ BitVec.ofBool false ++ BitVec.ofBool false) =
      s.latch.dataBreak := BitVec.or_zero
  show EStateM.Result.ok () { s with latch := { s.latch with dataBreak := s.latch.dataBreak ||| _ } } = _
  rw [none]

/-! ### Without paging -/

/-- The places of `n` bytes without paging: on at address 0 after FFFFFFFFH. -/
def flatPlaces (s : State) (lin n : Nat) : List BytePlace :=
  places lin s.cr3Attr (firstPart lin n) ++ places ((lin + firstPart lin n) % 2 ^ 32) s.cr3Attr (n - firstPart lin n)

theorem translate_flat (hp : s.pg = false) (lin : Nat) (w user : Bool) : translate lin w user s = .ok (lin, s.cr3Attr) s := by
  simp only [translate, M.bind_run, M.get_run, hp, Bool.not_false, if_true]
  rfl

theorem linLocate_flat (hp : s.pg = false) (lin : Nat) (w user : Bool) :
    linLocate lin n w user s = .ok (flatPlaces s lin n) s := by
  have le : firstPart lin n ≤ n := min_le_left _ _
  refine M.bind_of_ok (translate_flat hp lin w user) ?_
  by_cases h : firstPart lin n < n
  · simp only [h, if_true]
    exact M.bind_of_ok (translate_flat hp _ w user) rfl
  · simp only [h, if_false]
    rw [flatPlaces, show n - firstPart lin n = 0 by omega, places_zero, List.append_nil]
    rfl

theorem flatPlaces_consecutive (s : State) (lin n : Nat) : Consecutive lin (flatPlaces s lin n) := by
  refine (consecutive_places _ rfl _).append ?_
  rw [places_length]
  exact consecutive_places _ (Nat.mod_mod _ _) _

theorem flatPlaces_length (s : State) (lin n : Nat) : (flatPlaces s lin n).length = n := by
  have le : firstPart lin n ≤ n := min_le_left _ _
  rw [flatPlaces, List.length_append, places_length, places_length]
  omega

theorem Consecutive.addresses {ps : List BytePlace} {a : Nat} (h : Consecutive a ps) :
    ps.map (fun p => s.a20 p.1) = (List.range ps.length).map fun k => s.a20 (a + k) := by
  induction ps generalizing a with
  | nil => rfl
  | cons p ps ih =>
    rw [List.map_cons, ih h.2, s.a20_congr h.1, List.length_cons, List.range_succ_eq_map, List.map_cons, List.map_map]
    congr 1
    refine List.map_congr_left fun k _ => ?_
    simp only [Function.comp]
    congr 1
    omega

theorem locate_flat (plain : s.Plain) (usable : s.Usable sr w) (inside : (s.segs.get sr).hid.inLimit off n = true)
    (aligned : ((s.segs.get sr).hid.base.toNat + off) % 2 ^ 32 % n = 0 ∨ (s.am && s.flags.ac && s.cpl == 3) = false) :
    locate sr off n n w s = .ok (flatPlaces s (((s.segs.get sr).hid.base.toNat + off) % 2 ^ 32) n) s := by
  obtain ⟨hp, -, -, -, unarmed, -⟩ := plain
  exact M.bind_of_ok (segCheck_usable usable inside) (M.bind_of_ok (alignCheck_aligned aligned)
    (M.bind_of_ok rfl (M.bind_of_ok (linLocate_flat hp _ w _) (M.bind_of_ok (noteAccess_unarmed unarmed _ n w) rfl))))

end

/-- The first part: an operand in a segment. -/
theorem plain_operand (sr : SegName) (off n v : Nat) (s : State) (plain : s.Plain) (_ : 0 < n) (hn : n ≤ 8) :
    let h := (s.segs.get sr).hid
    let lin := (h.base.toNat + off) % 2 ^ 32
    let aligned : Prop := lin % n = 0 ∨ (s.am && s.flags.ac && s.cpl == 3) = false
    (∀ w : Bool, s.Usable sr w → h.inLimit off n = true → aligned →
      ∃ ps : List BytePlace, ps.map (fun p => s.a20 p.1) = (List.range n).map (fun k => s.a20 (lin + k)) ∧
        locate sr off n n w s = .ok ps s ∧
        (w = false → load sr off n n s = .ok (memBytes s ps) s) ∧
        (w = true → store sr off n n v s = .ok () (s.wrote ps v) ∧ memBytes (s.wrote ps v) ps = v % 2 ^ (8 * n) ∧
          (∀ a, (∀ p ∈ ps, s.a20 p.1 ≠ a) → memRead (s.wrote ps v).mem a = memRead s.mem a) ∧
          Memory.wf (s.wrote ps v).mem = true)) ∧
    (∀ w : Bool, s.Usable sr w → h.inLimit off n = false →
      locate sr off n n w s = .error (.exn { vector := limitVector sr, code := some 0, cls := .fault }) s) ∧
    (∀ w : Bool, ¬ s.Usable sr w → locate sr off n n w s = .error (.exn { vector := 13, code := some 0, cls := .fault }) s) ∧
    (∀ w : Bool, s.Usable sr w → h.inLimit off n = true → ¬ aligned →
      locate sr off n n w s = .error (.exn { vector := 17, code := some 0, cls := .fault }) s) := by
  intro h lin aligned
  obtain ⟨-, cd, lines, ram, -, wf⟩ := id plain
  have run := flatPlaces_consecutive s lin n
  have length := flatPlaces_length s lin n
  refine ⟨fun w usable inside al => ⟨flatPlaces s lin n, ?_, ?_, ?_, ?_⟩, ?_, ?_, ?_⟩
  · rw [run.addresses, length]
  · exact locate_flat plain usable inside al
  · rintro rfl
    exact M.bind_of_ok (locate_flat plain usable inside al) (readBytes_bus lines ram cd run)
  · rintro rfl
    have apart : s.Apart (flatPlaces s lin n) := .of_consecutive run (by omega)
    have bytes := memBytes_wrote lines ram wf apart v
    rw [length] at bytes
    exact ⟨store_run (locate_flat plain usable inside al), bytes, fun a ha => wrote_mem s _ v a ha, wrote_wf s _ v wf⟩
  · exact fun w usable beyond => M.bind_error (segCheck_beyond usable beyond)
  · exact fun w unusable => M.bind_error (segCheck_unusable unusable)
  · exact fun w usable inside mis => (M.bind_of_ok (segCheck_usable usable inside) rfl).trans
      (M.bind_error (alignCheck_misaligned mis))

end Sys2Proof.Machine
end

section
/-! ## Paging -/
set_option Elab.async false

namespace Sys2Proof.Machine

/-! ### The TLB -/

section
variable {e n : TlbEntry} {es : List TlbEntry} {page : Nat}

theorem find_insertEntry (hn : n.page.toNat = page) (h : ∀ e ∈ es, e.page.toNat ≠ page) :
    (insertEntry n es).find? (fun e => e.page.toNat == page) = some n := by
  induction es with
  | nil => simp [insertEntry, hn]
  | cons e es ih =>
    have first : (e.page.toNat == page) = false := by simpa using h e List.mem_cons_self
    unfold insertEntry
    split_ifs
    · simp [hn]
    · simp [hn]
    · rw [List.find?_cons, first]
      exact ih fun e he => h e (List.mem_cons_of_mem _ he)

/-- The entry a walk leaves for its page. -/
theorem find_load (t : Tlb) {frame : Nat} {user writable dirty pcd pwt : Bool} (hp : page < 2 ^ 20) (hf : frame < 2 ^ 20) :
    ∃ e : TlbEntry, (t.load page frame user writable dirty pcd pwt).find page = some e ∧ e.frame.toNat = frame ∧
      e.user = user ∧ e.writable = writable ∧ e.dirty = dirty ∧ e.pcd = pcd ∧ e.pwt = pwt := by
  refine ⟨_, find_insertEntry ?_ ?_, ?_, rfl, rfl, rfl, rfl, rfl⟩
  · exact (BitVec.toNat_ofNat ..).trans (Nat.mod_eq_of_lt hp)
  · intro e he
    simpa using (List.mem_filter.1 he).2
  · exact (BitVec.toNat_ofNat ..).trans (Nat.mod_eq_of_lt hf)

end

/-! ### Faults -/

section
variable {s : State} {lin : Nat} {prot write user userPage writable : Bool}

/-- The protection bits forbid an access. -/
def State.Forbids (s : State) (write user userPage writable : Bool) : Prop :=
  (user = true ∧ userPage = false) ∨ (write = true ∧ writable = false ∧ (user = true ∨ s.wp = true))

theorem protectionFault_iff : protectionFault s userPage writable write user = true ↔ s.Forbids write user userPage writable := by
  unfold protectionFault State.Forbids
  cases userPage <;> cases writable <;> cases write <;> cases user <;> simp

theorem protectionFault_eq_false (h : ¬ s.Forbids write user userPage writable) :
    protectionFault s userPage writable write user = false := by
  rw [Bool.eq_false_iff]
  exact fun forbids => h (protectionFault_iff.1 forbids)

theorem faultCode_eq (prot write user : Bool) : faultCode prot write user =
    (if prot then 1 else 0) ||| (if write then 2 else 0) ||| (if user then 4 else 0) := by
  cases prot <;> cases write <;> cases user <;> decide

/-- A page fault at a linear address. -/
def State.pageFaulted (s : State) (lin : Nat) (prot write user : Bool) {α : Type} : EStateM.Result Stop State α :=
  .error (.exn { vector := 14, code := some (faultCode prot write user), cls := .fault }) { s with cr2 := BitVec.ofNat 32 lin }

theorem pageFault_run {α : Type} : (pageFault lin prot write user : M α) s = s.pageFaulted lin prot write user := by
  rw [State.pageFaulted, faultCode_eq]
  rfl

/-! ### A translation that the TLB holds -/

theorem translate_hit {e : TlbEntry} (hp : s.pg = true) (hf : s.tlb.find (lin / 4096) = some e)
    (hd : write = true → e.dirty = true) (agrees : s.agrees e = true) : translate lin write user s =
      if protectionFault s e.user e.writable write user then s.pageFaulted lin true write user
      else .ok (e.frame.toNat * 4096 + lin % 4096, ⟨e.pcd, e.pwt⟩) { s with tlb := s.tlb.touch e } := by
  have uses : useEntry e write s = .ok true s := by
    have clean : (write && !e.dirty) = false := by
      cases write with
      | false => rfl
      | true => simp [hd rfl]
    rw [useEntry, if_neg (Bool.eq_false_iff.1 clean), if_pos agrees]
  simp only [translate, M.bind_run, M.get_run, hp, hf, uses, Bool.not_true, Bool.false_eq_true, if_false, if_true]
  by_cases h : protectionFault s e.user e.writable write user = true
  · rw [if_pos h, if_pos h]
    simp only [M.bind_run, pageFault_run, State.pageFaulted]
  · rw [if_neg h, if_neg h]
    rfl

theorem translate_walk (hp : s.pg = true)
    (h : s.tlb.find (lin / 4096) = none ∨ ∃ e, s.tlb.find (lin / 4096) = some e ∧ write = true ∧ e.dirty = false) :
    translate lin write user s = pageWalk lin write user s := by
  rcases h with h | ⟨e, h, hw, hd⟩
  · simp only [translate, M.bind_run, M.get_run, hp, h, Bool.not_true, Bool.false_eq_true, if_false]
  · have clean : useEntry e write s = .ok false s := by
      rw [useEntry, hw, hd]
      rfl
    simp only [translate, M.bind_run, M.get_run, hp, h, clean, Bool.not_true, Bool.false_eq_true, if_false]

end

/-! ### Page table entries -/

section
variable {s t : State} {pa a b entry bits : Nat}

theorem entryAt_eq (h : a % 4 = 0) : s.entryAt a = memValue s.mem (s.a20 a) 4 := by
  have := memBytes_dword (s := s) (consecutive_places (pa := a) s.cr3Attr rfl 4) (by rw [places_length]; omega)
  rwa [places_length] at this

theorem entryAt_congr (ha : a % 4 = 0) (hb : b % 4 = 0) (same : s.a20 a = s.a20 b) : s.entryAt a = s.entryAt b := by
  rw [entryAt_eq ha, entryAt_eq hb, same]

theorem entryAt_lt (s : State) (a : Nat) : s.entryAt a < 2 ^ 32 := by
  have := memBytes_lt s (places a s.cr3Attr 4)
  rwa [places_length] at this

theorem State.OnlyMem.a20 (h : s.OnlyMem t) (a : Nat) : t.a20 a = s.a20 a := by rw [h]; rfl
theorem State.OnlyMem.cr3Attr (h : s.OnlyMem t) : t.cr3Attr = s.cr3Attr := by rw [h]; rfl

theorem memValue_congr {m m' : Memory} : ∀ (n a : Nat), (∀ k < n, memRead m' (a + k) = memRead m (a + k)) →
    memValue m' a n = memValue m a n := by
  intro n
  induction n with
  | zero => exact fun _ _ => rfl
  | succ n ih =>
    intro a h
    rw [memValue, memValue, show memRead m' a = memRead m a from h 0 (Nat.succ_pos n), ih (a + 1)]
    intro k hk
    rw [Nat.add_assoc, Nat.add_comm 1 k]
    exact h (k + 1) (by omega)

/-- What `markEntry` leaves. -/
def State.marked (t : State) (pa entry bits : Nat) : State :=
  if entry &&& bits = bits then t else t.wrote (places pa t.cr3Attr 4) (t.entryAt pa ||| bits)

theorem mem_places {p : BytePlace} {attr : Attr} {n : Nat} (h : p ∈ places pa attr n) : ∃ k < n, p.1 = pa + k := by
  obtain ⟨k, hk, rfl⟩ := List.mem_map.1 h
  exact ⟨k, List.mem_range.1 hk, rfl⟩

/-- A state whose memory is read and written directly. -/
structure State.Direct (s : State) : Prop where
  lines : s.cache.lines = []
  ram : s.regions = []
  cd : s.cd = true
  wf : Memory.wf s.mem = true

theorem State.Uncached.direct (h : s.Uncached) : s.Direct := by
  obtain ⟨cd, lines, ram, -, wf⟩ := h
  exact ⟨lines, ram, cd, wf⟩

theorem readEntry_run (h : s.Direct) (locked : Bool) (a : Nat) :
    readBytes locked (places a s.cr3Attr 4) s = .ok (s.entryAt a) s :=
  readBytes_bus h.lines h.ram h.cd (consecutive_places (pa := a) s.cr3Attr rfl 4)

theorem markEntry_run (h : s.Direct) (pa entry bits : Nat) :
    markEntry pa entry bits s.cr3Attr s = .ok () (s.marked pa entry bits) := by
  unfold markEntry State.marked
  split_ifs
  · rfl
  · exact M.bind_of_ok (readEntry_run h true pa) (writeBytes_run ..)

theorem entry_apart (s : State) (pa : Nat) (attr : Attr) : s.Apart (places pa attr 4) :=
  .of_consecutive (consecutive_places (pa := pa) attr rfl 4) (by rw [places_length]; norm_num)

section
variable (h : s.Direct) (pa entry bits : Nat)
include h

theorem marked_onlyMem : s.OnlyMem (s.marked pa entry bits) := by
  unfold State.marked
  split_ifs
  · exact .refl s
  · exact wrote_onlyMem h.lines h.ram h.wf (entry_apart s pa _) _

theorem marked_direct : (s.marked pa entry bits).Direct := by
  have only := marked_onlyMem h pa entry bits
  refine ⟨only.lines h.lines, only.ram h.ram, ?_, ?_⟩
  · rw [only]
    exact h.cd
  · unfold State.marked
    split_ifs
    · exact h.wf
    · exact wrote_wf _ _ _ h.wf

omit h in
theorem marked_mem (hb : ∀ k < 4, b ≠ s.a20 (pa + k)) : memRead (s.marked pa entry bits).mem b = memRead s.mem b := by
  unfold State.marked
  split_ifs
  · rfl
  · refine wrote_mem s _ _ b fun p hp => ?_
    obtain ⟨k, hk, e⟩ := mem_places hp
    rw [e]
    exact (hb k hk).symm

/-- The entry that is marked. -/
theorem entryAt_marked (hbits : bits < 2 ^ 32) : (s.marked pa entry bits).entryAt pa =
    if entry &&& bits = bits then s.entryAt pa else s.entryAt pa ||| bits := by
  unfold State.marked
  split_ifs
  · rfl
  · have only := wrote_onlyMem h.lines h.ram h.wf (entry_apart s pa s.cr3Attr) (s.entryAt pa ||| bits)
    have bytes := memBytes_wrote h.lines h.ram h.wf (entry_apart s pa s.cr3Attr) (s.entryAt pa ||| bits)
    rw [places_length, Nat.mod_eq_of_lt (Nat.or_lt_two_pow (entryAt_lt s pa) hbits)] at bytes
    rw [State.entryAt, only.cr3Attr]
    exact bytes

/-- Another entry. -/
theorem entryAt_marked_ne (hpa : pa % 4 = 0) (ha : a % 4 = 0) (ne : s.a20 pa ≠ s.a20 a) :
    (s.marked pa entry bits).entryAt a = s.entryAt a := by
  rw [entryAt_eq ha, entryAt_eq ha, (marked_onlyMem h pa entry bits).a20]
  refine memValue_congr 4 _ fun k hk => marked_mem pa entry bits fun j hj => ?_
  rw [s.a20_add (by omega)]
  have := s.a20_mod_four a
  have := s.a20_mod_four pa
  omega

end

theorem or_eq_self_of_and (h : entry &&& bits = bits) : entry ||| bits = entry := by
  refine Nat.eq_of_testBit_eq fun i => ?_
  have at_ := congrArg (·.testBit i) h
  simp only [Nat.testBit_and, Nat.testBit_or] at at_ ⊢
  cases he : entry.testBit i <;> cases hb : bits.testBit i <;> simp [he, hb] at at_ ⊢

/-- The Accessed bit, with the Dirty bit for a write. -/
def accessBits (write : Bool) : Nat := if write then 0x60 else 0x20

theorem accessBits_accessed (write : Bool) : 0x20 ||| accessBits write = accessBits write := by cases write <;> decide
theorem accessBits_lt (write : Bool) : accessBits write < 2 ^ 32 := by cases write <;> decide

/-- The directory and the table entry after a walk. -/
theorem entries_marked (h : s.Direct) (write : Bool) (ha : a % 4 = 0) (hb : b % 4 = 0) :
    ((s.marked a (s.entryAt a) 0x20).marked b (s.entryAt b) (accessBits write)).entryAt b = (s.entryAt b ||| accessBits write) ∧
    (s.a20 a ≠ s.a20 b → ((s.marked a (s.entryAt a) 0x20).marked b (s.entryAt b) (accessBits write)).entryAt a =
      (s.entryAt a ||| 0x20)) := by
  have once : (s.marked a (s.entryAt a) 0x20).entryAt a = (s.entryAt a ||| 0x20) := by
    rw [entryAt_marked h a _ _ (by norm_num)]
    split_ifs with set
    · exact (or_eq_self_of_and set).symm
    · rfl
  have direct := marked_direct h a (s.entryAt a) 0x20
  have only := marked_onlyMem h a (s.entryAt a) 0x20
  constructor
  · rw [entryAt_marked direct b _ _ (accessBits_lt write)]
    by_cases same : s.a20 a = s.a20 b
    · have again : (s.marked a (s.entryAt a) 0x20).entryAt b = (s.entryAt b ||| 0x20) := by
        rw [← entryAt_congr ha hb same, ← once]
        exact entryAt_congr hb ha (by rw [only.a20, only.a20, same])
      rw [again, Nat.or_assoc, accessBits_accessed]
      split_ifs with set
      · rw [← or_eq_self_of_and set, Nat.or_assoc, Nat.or_comm _ 0x20, accessBits_accessed, Nat.or_assoc, Nat.or_self]
      · rfl
    · rw [entryAt_marked_ne h a _ _ ha hb same]
      split_ifs with set
      · exact (or_eq_self_of_and set).symm
      · rfl
  · intro ne
    rw [entryAt_marked_ne direct b _ _ hb ha (by rw [only.a20, only.a20]; exact ne.symm), once]

end

/-! ### The walk -/

section
variable {s : State} {lin : Nat} {write user : Bool} (h : s.Direct) (hl : lin < 2 ^ 32)

theorem directoryEntry_aligned (s : State) (lin : Nat) : s.directoryEntry lin % 4 = 0 := by
  unfold State.directoryEntry
  omega

theorem pageEntry_aligned (s : State) (lin : Nat) : s.pageEntry lin % 4 = 0 := by
  unfold State.pageEntry
  omega

include hl in
theorem pdeAddr_eq : s.pdeAddr lin = s.directoryEntry lin := by
  unfold State.pdeAddr State.directoryEntry
  omega

include h hl

theorem pageWalk_not_present
    (hp : (s.entryAt (s.directoryEntry lin)).testBit 0 = false ∨ (s.entryAt (s.pageEntry lin)).testBit 0 = false) :
    pageWalk lin write user s = s.pageFaulted lin false write user := by
  refine M.bind_of_ok rfl ?_
  simp only [pdeAddr_eq hl]
  refine M.bind_of_ok (readEntry_run h false (s.directoryEntry lin)) ?_
  by_cases present : (s.entryAt (s.directoryEntry lin)).testBit 0 = true
  · simp only [present, Bool.not_true, Bool.false_eq_true, if_false]
    refine M.bind_of_ok (readEntry_run h false (s.pageEntry lin)) ?_
    have absent := hp.resolve_left (by rw [present]; exact Bool.noConfusion)
    simp only [absent, Bool.not_false, if_true]
    exact M.bind_error pageFault_run
  · simp only [Bool.eq_false_iff.2 present, Bool.not_false, if_true]
    exact M.bind_error pageFault_run

variable (hd : (s.entryAt (s.directoryEntry lin)).testBit 0 = true) (hp : (s.entryAt (s.pageEntry lin)).testBit 0 = true)
include hd hp

theorem pageWalk_present : pageWalk lin write user s =
    if protectionFault s ((s.entryAt (s.directoryEntry lin)).testBit 2 && (s.entryAt (s.pageEntry lin)).testBit 2)
        ((s.entryAt (s.directoryEntry lin)).testBit 1 && (s.entryAt (s.pageEntry lin)).testBit 1) write user then
      s.pageFaulted lin true write user
    else
      let t := (s.marked (s.directoryEntry lin) (s.entryAt (s.directoryEntry lin)) 0x20).marked (s.pageEntry lin)
        (s.entryAt (s.pageEntry lin)) (accessBits write)
      .ok (s.entryAt (s.pageEntry lin) / 4096 * 4096 + lin % 4096,
          ⟨(s.entryAt (s.pageEntry lin)).testBit 4, (s.entryAt (s.pageEntry lin)).testBit 3⟩)
        { t with tlb := t.tlb.load (lin / 4096) (s.entryAt (s.pageEntry lin) / 4096)
                  ((s.entryAt (s.directoryEntry lin)).testBit 2 && (s.entryAt (s.pageEntry lin)).testBit 2)
                  ((s.entryAt (s.directoryEntry lin)).testBit 1 && (s.entryAt (s.pageEntry lin)).testBit 1)
                  (write || (s.entryAt (s.pageEntry lin)).testBit 6) ((s.entryAt (s.pageEntry lin)).testBit 4)
                  ((s.entryAt (s.pageEntry lin)).testBit 3) } := by
  refine M.bind_of_ok rfl ?_
  simp only [pdeAddr_eq hl]
  refine M.bind_of_ok (readEntry_run h false (s.directoryEntry lin)) ?_
  simp only [hd, Bool.not_true, Bool.false_eq_true, if_false]
  refine M.bind_of_ok (readEntry_run h false (s.pageEntry lin)) ?_
  simp only [hp, Bool.not_true, Bool.false_eq_true, if_false]
  by_cases prot : protectionFault s ((s.entryAt (s.directoryEntry lin)).testBit 2 && (s.entryAt (s.pageEntry lin)).testBit 2)
      ((s.entryAt (s.directoryEntry lin)).testBit 1 && (s.entryAt (s.pageEntry lin)).testBit 1) write user = true
  · rw [if_pos prot, if_pos prot]
    exact M.bind_error pageFault_run
  · rw [if_neg prot, if_neg prot]
    have only := marked_onlyMem h (s.directoryEntry lin) (s.entryAt (s.directoryEntry lin)) 0x20
    have second := markEntry_run (marked_direct h (s.directoryEntry lin) (s.entryAt (s.directoryEntry lin)) 0x20) (s.pageEntry lin)
      (s.entryAt (s.pageEntry lin)) (accessBits write)
    rw [only.cr3Attr] at second
    exact M.bind_of_ok (markEntry_run h ..) (M.bind_of_ok second rfl)

end

end Sys2Proof.Machine
end

section
/-! ## The internal cache over RAM -/
set_option Elab.async false

namespace Sys2Proof.Machine

/-! ### Lines -/

section
variable {l m : CacheLine} {ls : List CacheLine} {p : CacheLine → Bool}

/-- A line that replaces the one found. -/
theorem find_insertLine_same (h : ls.find? p = some l) (key : m.key = l.key) (hm : p m = true) :
    (insertLine m ls).find? p = some m := by
  induction ls with
  | nil => cases h
  | cons x ls ih =>
    unfold insertLine
    split_ifs with lt eq
    · rw [List.find?_cons, hm]
    · rw [List.find?_cons, hm]
    · cases hx : p x with
      | true =>
        rw [List.find?_cons, hx] at h
        exact absurd (key.trans (congrArg CacheLine.key (Option.some.inj h)).symm) eq
      | false =>
        rw [List.find?_cons, hx] at h ⊢
        exact ih h

/-- A line where none was found. -/
theorem find_insertLine_new (h : ls.find? p = none) (hm : p m = true) : (insertLine m ls).find? p = some m := by
  induction ls with
  | nil => simp [insertLine, hm]
  | cons x ls ih =>
    have hx : p x = false := by simpa using (List.find?_eq_none.1 h) x List.mem_cons_self
    rw [List.find?_cons, hx] at h
    unfold insertLine
    split_ifs
    · rw [List.find?_cons, hm]
    · rw [List.find?_cons, hm]
    · rw [List.find?_cons, hx]
      exact ih h

end

/-! ### Bits of a block -/

section
variable {d : BitVec 128} {a n v i j k : Nat}

theorem blockValue_testBit (d : BitVec 128) (a n j : Nat) :
    (blockValue d a n).testBit j = (decide (j < 8 * n) && d.getLsbD (8 * (a % 16) + j)) := by
  rw [blockValue, Nat.testBit_mod_two_pow, BitVec.testBit_toNat, BitVec.getLsbD_ushiftRight]

theorem setBlock_getLsbD (hi : i < 128) : (setBlock d a n v).getLsbD i =
    if 8 * (a % 16) ≤ i ∧ i < 8 * (a % 16) + 8 * n then v.testBit (i - 8 * (a % 16)) else d.getLsbD i := by
  simp only [setBlock, BitVec.getLsbD_or, BitVec.getLsbD_and, BitVec.getLsbD_not, BitVec.getLsbD_shiftLeft, BitVec.getLsbD_ofNat,
    hi, decide_true, Bool.true_and, Nat.testBit_mod_two_pow, Nat.testBit_two_pow_sub_one]
  by_cases low : i < 8 * (a % 16)
  · simp [low, show ¬ 8 * (a % 16) ≤ i by omega]
  · have shifted : i - 8 * (a % 16) < 128 := by omega
    by_cases high : i - 8 * (a % 16) < 8 * n
    · simp [low, high, shifted, show 8 * (a % 16) ≤ i by omega, show i < 8 * (a % 16) + 8 * n by omega]
    · simp [low, high, shifted, show ¬ i < 8 * (a % 16) + 8 * n by omega]

theorem blockValue_setBlock (hn : a % 16 + n ≤ 16) : blockValue (setBlock d a n v) a n = v % 2 ^ (8 * n) := by
  refine Nat.eq_of_testBit_eq fun j => ?_
  rw [blockValue_testBit, Nat.testBit_mod_two_pow]
  by_cases h : j < 8 * n
  · rw [setBlock_getLsbD (by omega), if_pos ⟨by omega, by omega⟩, Nat.add_sub_cancel_left]
  · simp [h]

theorem setBlock_other (hk : k < 16) (h : k < a % 16 ∨ a % 16 + n ≤ k) :
    (setBlock d a n v).extractLsb' (8 * k) 8 = d.extractLsb' (8 * k) 8 := by
  refine BitVec.eq_of_getLsbD_eq fun i hi => ?_
  rw [BitVec.getLsbD_extractLsb', BitVec.getLsbD_extractLsb', setBlock_getLsbD (by omega), if_neg (by omega)]

theorem memValue_testBit (m : Memory) : ∀ (n a j : Nat),
    (memValue m a n).testBit j = (decide (j < 8 * n) && (memRead m (a + j / 8)).getLsbD (j % 8)) := by
  intro n
  induction n with
  | zero => simp [memValue]
  | succ n ih =>
    intro a j
    have eight : (memRead m a).toNat < 2 ^ 8 := (memRead m a).isLt
    rw [memValue, show (memRead m a).toNat + 256 * memValue m (a + 1) n = 2 ^ 8 * memValue m (a + 1) n + (memRead m a).toNat by
      omega, Nat.testBit_two_pow_mul_add _ eight]
    split_ifs with h
    · rw [Nat.div_eq_of_lt h, Nat.mod_eq_of_lt h, BitVec.testBit_toNat, decide_eq_true (show j < 8 * (n + 1) by omega)]
      rfl
    · rw [ih]
      congr 2
      · exact propext (by omega)
      · congr 1
        omega
      · omega

/-- What a burst reads from RAM. -/
def burstBits (m : Memory) (block : Nat) : List Nat → BitVec 128
  | [] => 0
  | o :: os => burstBits m block os ||| (BitVec.ofNat 128 (memValue m (block + o) 4) <<< (8 * o))

theorem burstBits_getLsbD (m : Memory) (block : Nat) {os : List Nat} (hos : ∀ o ∈ os, o % 4 = 0) (hk : k < 16) (hi : i < 8) :
    (burstBits m block os).getLsbD (8 * k + i) = (decide (k / 4 * 4 ∈ os) && (memRead m (block + k)).getLsbD i) := by
  induction os with
  | nil => simp [burstBits]
  | cons o os ih =>
    have four := hos o List.mem_cons_self
    rw [burstBits, BitVec.getLsbD_or, ih fun o ho => hos o (List.mem_cons_of_mem _ ho), BitVec.getLsbD_shiftLeft,
      BitVec.getLsbD_ofNat, memValue_testBit, decide_eq_true (show 8 * k + i < 128 by omega)]
    by_cases eq : k / 4 * 4 = o
    · have le : ¬ 8 * k + i < 8 * o := by omega
      rw [decide_eq_false le, decide_eq_true (show 8 * k + i - 8 * o < 128 by omega),
        decide_eq_true (show 8 * k + i - 8 * o < 8 * 4 by omega), decide_eq_true (show k / 4 * 4 ∈ o :: os by simp [eq]),
        show block + o + (8 * k + i - 8 * o) / 8 = block + k by omega, show (8 * k + i - 8 * o) % 8 = i by omega]
      cases decide (k / 4 * 4 ∈ os) <;> simp
    · have out : (!decide (8 * k + i < 8 * o) && decide (8 * k + i - 8 * o < 8 * 4)) = false := by
        rw [Bool.and_eq_false_iff, Bool.not_eq_false', decide_eq_true_eq, decide_eq_false_iff_not]
        omega
      have same : (k / 4 * 4 ∈ o :: os) = (k / 4 * 4 ∈ os) := by simp [eq]
      rw [Bool.and_eq_false_iff] at out
      rcases out with out | out
      · simp [out, same]
      · simp [out, same]

theorem burstOrder_all (a : Nat) (hk : k < 16) : k / 4 * 4 ∈ burstOrder a ∧ ∀ o ∈ burstOrder a, o % 4 = 0 := by
  have table : ∀ b < 4, (∀ k < 16, k / 4 * 4 ∈ [b * 4, b * 4 ^^^ 4, b * 4 ^^^ 8, b * 4 ^^^ 12]) ∧
      ∀ o ∈ [b * 4, b * 4 ^^^ 4, b * 4 ^^^ 8, b * 4 ^^^ 12], o % 4 = 0 := by decide
  obtain ⟨all, four⟩ := table (a % 16 / 4) (by omega)
  exact ⟨all k hk, four⟩

end

/-! ### Reads -/

section
variable {s : State} {attr : Attr} {pa n v : Nat} {l : CacheLine}

theorem physRead_hit (h : s.cache.find (s.a20 pa) = some l) : physRead false attr pa n s =
    .ok (blockValue l.data (s.a20 pa) n) { s with cache := s.cache.touch l } := by
  simp only [physRead, Bool.false_eq_true, if_false, h]

variable (ram : s.regions = [])
include ram

theorem burst_ram (block : Nat) (os : List Nat) : burst false attr block os s = .ok (burstBits s.mem block os) s := by
  induction os with
  | nil => rfl
  | cons o os ih => exact M.bind_of_ok (busRead_ram ram ..) (M.bind_of_ok ih rfl)

/-- A miss reads memory, and a line enters the cache if it may. -/
theorem physRead_miss (h : s.cache.find (s.a20 pa) = none) : physRead false attr pa n s =
    if s.cd = true ∨ attr.pcd = true then .ok (memValue s.mem (s.a20 pa) n) s
    else .ok (blockValue (burstBits s.mem (s.a20 pa / 16 * 16) (burstOrder (s.a20 pa))) (s.a20 pa) n)
      { s with cache := s.cache.fill (s.a20 pa) (burstBits s.mem (s.a20 pa / 16 * 16) (burstOrder (s.a20 pa))) } := by
  have fills : s.fills attr false (s.a20 pa) = (!s.cd && !attr.pcd) := by
    rw [State.fills, regionAt_ram ram]
    simp
  simp only [physRead, Bool.false_eq_true, if_false, h, fills]
  by_cases off : s.cd = true ∨ attr.pcd = true
  · have : ¬ (!s.cd && !attr.pcd) = true := by
      rcases off with off | off <;> simp [off]
    rw [if_pos off, if_neg this, busRead_ram ram]
  · have : (!s.cd && !attr.pcd) = true := by
      rw [not_or] at off
      simp [off.1, off.2]
    rw [if_neg off, if_pos this]
    refine M.bind_of_ok (burst_ram ram _ _) ?_
    have keeps : s.keeps (s.a20 pa) = true := by rw [State.keeps, regionAt_ram ram]
    simp only [M.bind_run, M.modify_run, keeps, if_true]
    rfl

omit ram

theorem fill_value (a : Nat) (hn : a % 16 + n ≤ 16) :
    blockValue (burstBits s.mem (a / 16 * 16) (burstOrder a)) a n = memValue s.mem a n := by
  refine Nat.eq_of_testBit_eq fun j => ?_
  rw [blockValue_testBit, memValue_testBit]
  by_cases hj : j < 8 * n
  · obtain ⟨mem, four⟩ := burstOrder_all a (show a % 16 + j / 8 < 16 by omega)
    rw [show 8 * (a % 16) + j = 8 * (a % 16 + j / 8) + j % 8 by omega, burstBits_getLsbD _ _ four (by omega) (by omega),
      decide_eq_true mem, show a / 16 * 16 + (a % 16 + j / 8) = a + j / 8 by omega, Bool.true_and]
  · simp [hj]

theorem fill_bytes (a : Nat) : ∀ k < 16,
    (burstBits s.mem (a / 16 * 16) (burstOrder a)).extractLsb' (8 * k) 8 = memRead s.mem (a / 16 * 16 + k) := by
  intro k hk
  obtain ⟨mem, four⟩ := burstOrder_all a hk
  refine BitVec.eq_of_getLsbD_eq fun i hi => ?_
  rw [BitVec.getLsbD_extractLsb', burstBits_getLsbD _ _ four hk hi, decide_eq_true mem, decide_eq_true hi]
  rfl

/-- The line that enters. -/
theorem find_fill (a : Nat) (d : BitVec 128) (h : s.cache.find a = none) (ha : a < 2 ^ 32) :
    ∃ l : CacheLine, (s.cache.fill a d).find a = some l ∧ l.data = d := by
  refine ⟨_, find_insertLine_new h ?_, rfl⟩
  have set : cacheSet a < 2 ^ 7 := Nat.mod_lt _ (by norm_num)
  have tag : cacheTag a < 2 ^ 21 := by
    unfold cacheTag
    omega
  simp only [BitVec.toNat_ofNat, Nat.mod_eq_of_lt set, Nat.mod_eq_of_lt tag, beq_self_eq_true, Bool.and_self]

end

/-! ### Writes -/

section
variable {s : State} {attr : Attr} {pa n v : Nat} {l : CacheLine}

theorem pieces_short {ps : List BytePlace} (h : ps.length ≤ 4) (h0 : ps ≠ []) : pieces ps = [ps] := by
  rcases ps with _ | ⟨p, _ | ⟨q, _ | ⟨r, _ | ⟨x, _ | ⟨y, ps⟩⟩⟩⟩⟩
  · exact absurd rfl h0
  · rfl
  · rfl
  · rfl
  · rfl
  · simp only [List.length_cons] at h
    omega

/-- The bytes of one dword are one transfer. -/
theorem wrote_dword (h0 : 0 < n) (hn : pa % 4 + n ≤ 4) : s.wrote (places pa attr n) v = s.wroteTransfer (places pa attr n) v := by
  obtain ⟨k, rfl⟩ : ∃ k, n = k + 1 := ⟨n - 1, by omega⟩
  have length := places_length pa attr (k + 1)
  have all : lowPart (places pa attr (k + 1)) = (places pa attr (k + 1)).length := by
    rw [lowPart_consecutive (consecutive_places attr rfl _), length]
    omega
  rw [State.wrote, pieces_short (by omega) (by rw [places_succ]; exact List.cons_ne_nil _ _)]
  show s.wrotePiece (places pa attr (k + 1)) v = _
  rw [State.wrotePiece, all, List.drop_length, List.take_length]
  rfl

theorem wroteTransfer_hit (h0 : 0 < n) (h : s.cache.find (s.a20 pa) = some l) : s.wroteTransfer (places pa attr n) v =
    if s.nw then { s with cache := s.cache.write l (s.a20 pa) n v }
    else { s with cache := s.cache.write l (s.a20 pa) n v }.busWrote (places pa attr n) attr (s.a20 pa) v := by
  obtain ⟨k, rfl⟩ : ∃ k, n = k + 1 := ⟨n - 1, by omega⟩
  have length := places_length (pa + 1) attr k
  rw [places_succ]
  simp only [State.wroteTransfer, h, List.length_cons, length]

theorem wroteTransfer_miss (ram : s.regions = []) (h0 : 0 < n) (h : s.cache.find (s.a20 pa) = none) :
    s.wroteTransfer (places pa attr n) v = { s with mem := s.storedAt (places pa attr n) v s.mem } := by
  obtain ⟨k, rfl⟩ : ∃ k, n = k + 1 := ⟨n - 1, by omega⟩
  rw [places_succ]
  simp only [State.wroteTransfer, h]
  exact busWrote_ram ram ..

/-- The line a write that hits leaves. -/
theorem find_write (a n v : Nat) (h : s.cache.find a = some l) :
    (s.cache.write l a n v).find a = some { l with data := setBlock l.data a n v } := by
  have holds : (l.set.toNat == cacheSet a && l.tag.toNat == cacheTag a) = true :=
    List.find?_some (p := fun l : CacheLine => l.set.toNat == cacheSet a && l.tag.toNat == cacheTag a) h
  exact find_insertLine_same h rfl holds

theorem memBytes_places (s : State) (hn : pa % 4 + n ≤ 4) : memBytes s (places pa attr n) = memValue s.mem (s.a20 pa) n := by
  have := memBytes_dword (s := s) (consecutive_places (pa := pa) attr rfl n) (by rw [places_length]; exact hn)
  rwa [places_length] at this

end

end Sys2Proof.Machine
end

section
/-! ## The obligation about memory access -/
set_option Elab.async false

namespace Sys2Proof.Machine

/-! ### Paging -/

/-- What a walk leaves of state, tables, memory and TLB. -/
theorem walk_leaves {s : State} {lin : Nat} {write user : Bool} (h : s.Direct) (hl : lin < 2 ^ 32)
    (hd : (s.entryAt (s.directoryEntry lin)).testBit 0 = true) (hp : (s.entryAt (s.pageEntry lin)).testBit 0 = true)
    (allowed : ¬ s.Forbids write user ((s.entryAt (s.directoryEntry lin)).testBit 2 && (s.entryAt (s.pageEntry lin)).testBit 2)
      ((s.entryAt (s.directoryEntry lin)).testBit 1 && (s.entryAt (s.pageEntry lin)).testBit 1)) :
    let pdeA := s.directoryEntry lin
    let pde := s.entryAt pdeA
    let pteA := s.pageEntry lin
    let pte := s.entryAt pteA
    ∃ t : State, pageWalk lin write user s = .ok (pte / 4096 * 4096 + lin % 4096, ⟨pte.testBit 4, pte.testBit 3⟩) t ∧
      t = { s with mem := t.mem, tlb := t.tlb } ∧ t.entryAt pteA = (pte ||| accessBits write) ∧
      (s.a20 pdeA ≠ s.a20 pteA → t.entryAt pdeA = (pde ||| 0x20)) ∧
      (∀ b, (∀ k < 4, b ≠ s.a20 (pdeA + k) ∧ b ≠ s.a20 (pteA + k)) → memRead t.mem b = memRead s.mem b) ∧
      ∃ e : TlbEntry, t.tlb.find (lin / 4096) = some e ∧ e.frame.toNat = pte / 4096 ∧ e.user = (pde.testBit 2 && pte.testBit 2) ∧
        e.writable = (pde.testBit 1 && pte.testBit 1) ∧ e.dirty = (write || pte.testBit 6) ∧ e.pcd = pte.testBit 4 ∧
        e.pwt = pte.testBit 3 := by
  intro pdeA pde pteA pte
  have run := pageWalk_present (write := write) (user := user) h hl hd hp
  rw [protectionFault_eq_false allowed] at run
  have first := marked_onlyMem h pdeA pde 0x20
  have direct := marked_direct h pdeA pde 0x20
  have only := first.trans (marked_onlyMem direct pteA pte (accessBits write))
  obtain ⟨table, directory⟩ := entries_marked h write (directoryEntry_aligned s lin) (pageEntry_aligned s lin)
  have frame : pte / 4096 < 2 ^ 20 := by
    have := entryAt_lt s pteA
    omega
  refine ⟨_, run, ?_, table, directory, ?_, find_load _ (by omega) frame⟩
  · rw [only]
  · intro b hb
    refine (marked_mem pteA pte (accessBits write) fun k hk => ?_).trans (marked_mem pdeA pde 0x20 fun k hk => (hb k hk).1)
    rw [first.a20]
    exact (hb k hk).2

/-- An access within one page is located where its first byte is. -/
theorem linLocate_page {lin n : Nat} {write user : Bool} {s t : State} (hn : lin % 4096 + n ≤ 4096) :
    (∀ (pa : Nat) (attr : Attr), translate lin write user s = .ok (pa, attr) t →
      linLocate lin n write user s = .ok (places pa attr n) t) ∧
    (∀ e : Stop, translate lin write user s = .error e t → linLocate lin n write user s = .error e t) := by
  have all : firstPart lin n = n := min_eq_left (by omega)
  constructor
  · intro pa attr h
    refine M.bind_of_ok h ?_
    simp only [all, lt_irrefl, if_false]
    rfl
  · exact fun e h => M.bind_error h

/-! ### The cache -/

section
variable {s : State} {pa n v : Nat} {attr : Attr} (ram : s.regions = []) (wf : Memory.wf s.mem = true) (h0 : 0 < n)
  (hn : pa % 4 + n ≤ 4)

theorem offset_in_block (s : State) (hn : pa % 4 + n ≤ 4) : s.a20 pa % 16 + n ≤ 16 := by
  have := s.a20_mod_four pa
  omega

theorem byteValue_eq (l : CacheLine) (a n : Nat) : blockValue l.data a n = l.data.toNat / 2 ^ (8 * (a % 16)) % 2 ^ (8 * n) := by
  rw [blockValue, BitVec.toNat_ushiftRight, Nat.shiftRight_eq_div_pow]

theorem storedAt_congr {t : State} (h : ∀ a, t.a20 a = s.a20 a) :
    ∀ (ps : List BytePlace) (v : Nat) (m : Memory), t.storedAt ps v m = s.storedAt ps v m := by
  intro ps
  induction ps with
  | nil => exact fun _ _ => rfl
  | cons p ps ih =>
    intro v m
    rw [State.storedAt, State.storedAt, h, ih]

theorem busWrote_ram_of {t : State} (ram : t.regions = []) (h : ∀ a, t.a20 a = s.a20 a) (a : Nat) {ps : List BytePlace} :
    t.busWrote ps attr a v = { t with mem := s.storedAt ps v t.mem } := by
  rw [busWrote_ram ram, storedAt_congr h]

include ram h0 hn

theorem wrote_hit {l : CacheLine} (h : s.cache.find (s.a20 pa) = some l) :
    s.wrote (places pa attr n) v = { s with
      cache := s.cache.write l (s.a20 pa) n v
      mem := if s.nw then s.mem else s.storedAt (places pa attr n) v s.mem } := by
  rw [wrote_dword h0 hn, wroteTransfer_hit h0 h]
  by_cases nw : s.nw = true
  · rw [if_pos nw, if_pos nw]
  · rw [if_neg nw, if_neg nw]
    exact busWrote_ram_of (s := s) (t := { s with cache := s.cache.write l (s.a20 pa) n v }) ram (fun _ => rfl) (s.a20 pa)

theorem wrote_miss (h : s.cache.find (s.a20 pa) = none) :
    s.wrote (places pa attr n) v = { s with mem := s.storedAt (places pa attr n) v s.mem } := by
  rw [wrote_dword h0 hn, wroteTransfer_miss ram h0 h]

include wf

/-- The bytes a write leaves in memory, unless it stays in the cache. -/
theorem memBytes_wrote_dword (h : s.nw = false ∨ s.cache.find (s.a20 pa) = none) :
    memBytes (s.wrote (places pa attr n) v) (places pa attr n) = v % 2 ^ (8 * n) := by
  have apart : s.Apart (places pa attr n) :=
    .of_consecutive (consecutive_places attr rfl n) (by rw [places_length]; omega)
  have mem : (s.wrote (places pa attr n) v).mem = s.storedAt (places pa attr n) v s.mem := by
    cases hf : s.cache.find (s.a20 pa) with
    | none => rw [wrote_miss ram h0 hn hf]
    | some l =>
      have nw := h.resolve_right (by rw [hf]; exact Option.some_ne_none l)
      rw [wrote_hit ram h0 hn hf]
      exact if_neg (Bool.eq_false_iff.1 nw)
  have bytes := memBytes_storedAt (wrote_touches s (places pa attr n) v).a20 _ v s.mem apart wf mem
  rwa [places_length] at bytes

/-- A read after a write that reached memory gives what was written. -/
theorem physRead_wrote (nw : s.nw = false) : ∃ u : State,
    physRead false attr pa n (s.wrote (places pa attr n) v) = .ok (v % 2 ^ (8 * n)) u := by
  have block := offset_in_block s hn
  have a20 := (wrote_touches s (places pa attr n) v).a20 pa
  have bytes := memBytes_wrote_dword (v := v) (attr := attr) ram wf h0 hn (.inl nw)
  rw [memBytes_places _ hn, a20] at bytes
  cases hf : s.cache.find (s.a20 pa) with
  | some l =>
    have found : (s.wrote (places pa attr n) v).cache.find ((s.wrote (places pa attr n) v).a20 pa) =
        some { l with data := setBlock l.data (s.a20 pa) n v } := by
      rw [a20, wrote_hit ram h0 hn hf]
      exact find_write _ n v hf
    have run := physRead_hit (attr := attr) (n := n) found
    rw [a20, blockValue_setBlock block] at run
    exact ⟨_, run⟩
  | none =>
    have missed : (s.wrote (places pa attr n) v).cache.find ((s.wrote (places pa attr n) v).a20 pa) = none := by
      rw [a20, wrote_miss ram h0 hn hf]
      exact hf
    have still : (s.wrote (places pa attr n) v).regions = [] := by
      rw [wrote_touches s]
      exact ram
    have run := physRead_miss (attr := attr) (n := n) still missed
    rw [a20, fill_value _ block, bytes] at run
    split_ifs at run
    · exact ⟨_, run⟩
    · exact ⟨_, run⟩

end

/-- Settles O49: without paging the places are those of the linear address; a walk reads and marks two entries; a transfer
hits a line or goes to memory. -/
theorem plainMemoryAccess : Obligations.PlainMemoryAccess := by
  refine ⟨?_, ?_, ?_⟩
  · intro sr off n v s plain h0 hn h lin aligned usable inside code
    obtain ⟨ok, beyond, unusable, misaligned⟩ := plain_operand sr off n v s plain h0 hn
    have inside_iff : h.inLimit off n = true ↔ inside := by
      show h.inLimit off n = true ↔ if h.expandDown then _ else _
      unfold Hidden.inLimit
      cases h.expandDown <;> simp
    refine ⟨fun w us ins al => ok w us (inside_iff.2 ins) al, fun w us out => beyond w us ?_, unusable,
      fun w us ins mis => misaligned w us (inside_iff.2 ins) mis⟩
    exact Bool.eq_false_iff.2 fun ins => out (inside_iff.1 ins)
  · intro lin write user s hl fails forbids
    refine ⟨fun flat => translate_flat flat lin write user, ?_, ?_, ?_⟩
    · intro e hp found dirty agrees
      have run := translate_hit (user := user) hp found dirty agrees
      refine ⟨fun no => ?_, fun yes => ?_⟩
      · rwa [if_pos (protectionFault_iff.2 no)] at run
      · rwa [if_neg (Bool.eq_false_iff.1 (protectionFault_eq_false yes))] at run
    · intro hp uncached walks pdeA pde pteA pte userPage writable
      have run := translate_walk (user := user) hp walks
      have direct := uncached.direct
      refine ⟨fun absent => ?_, fun hd hpte no => ?_, fun hd hpte yes => ?_⟩
      · exact run.trans (pageWalk_not_present direct hl absent)
      · exact run.trans ((pageWalk_present direct hl hd hpte).trans (if_pos (protectionFault_iff.2 no)))
      · obtain ⟨t, walk, rest⟩ := walk_leaves direct hl hd hpte yes
        exact ⟨t, run.trans walk, rest⟩
    · intro n _ page
      exact ⟨fun pa attr t => (linLocate_page page).1 pa attr, fun e t => (linLocate_page page).2 e⟩
  · intro pa n v attr s ram wf h0 hn a byte value t updated
    have block := offset_in_block s hn
    refine ⟨fun l hit => ⟨?_, ?_⟩, fun miss => ⟨?_, ?_, ?_⟩, physRead_wrote ram wf h0 hn⟩
    · refine (physRead_hit hit).trans ?_
      rw [byteValue_eq]
      rfl
    · have left := wrote_hit (v := v) (attr := attr) ram h0 hn hit
      refine ⟨{ l with data := setBlock l.data a n v }, ⟨?_, ?_, fun k hk out => setBlock_other hk out⟩, ?_, fun nw => ?_, fun nw => ?_⟩
      · show (s.wrote (places pa attr n) v).cache.find _ = _
        rw [left]
        exact find_write _ n v hit
      · exact (byteValue_eq _ _ _).symm.trans (blockValue_setBlock block)
      · show s.wrote (places pa attr n) v =
          { s with cache := (s.wrote (places pa attr n) v).cache, mem := (s.wrote (places pa attr n) v).mem }
        rw [left]
      · show (s.wrote (places pa attr n) v).mem = s.mem
        rw [left]
        exact if_pos nw
      · exact memBytes_wrote_dword ram wf h0 hn (.inl nw)
    · show s.wrote (places pa attr n) v = { s with mem := (s.wrote (places pa attr n) v).mem }
      rw [wrote_miss ram h0 hn miss]
    · exact memBytes_wrote_dword ram wf h0 hn (.inr miss)
    · have run := physRead_miss (attr := attr) (n := n) ram miss
      rw [fill_value _ block, ← memBytes_places (attr := attr) s hn] at run
      by_cases off : s.cd = true ∨ attr.pcd = true
      · rw [if_pos off] at run
        refine ⟨s, run, rfl, fun _ => rfl, fun cd pcd => ?_⟩
        rcases off with off | off
        · exact absurd (off.symm.trans cd) Bool.noConfusion
        · exact absurd (off.symm.trans pcd) Bool.noConfusion
      · rw [if_neg off] at run
        obtain ⟨l, found, data⟩ := find_fill (s := s) a (burstBits s.mem (a / 16 * 16) (burstOrder a)) miss (s.a20_lt pa)
        refine ⟨_, run, rfl, fun on => absurd on off, fun _ _ => ⟨l, found, fun k hk => ?_⟩⟩
        show l.data.extractLsb' (8 * k) 8 = _
        rw [data]
        exact fill_bytes a k hk

end Sys2Proof.Machine
end

section
/-! ## Events: the entry in real mode -/
set_option Elab.async false

namespace Sys2Proof.Machine

section
variable {ev : Event} {s t u : State} {ps : List BytePlace}

/-! ### Frames of an entry -/

theorem Event.effects_mem (ev : Event) (s : State) : (ev.effects s).mem = s.mem := by
  unfold Event.effects
  cases ev.kind
  case exception => exact (apply_ite State.mem _ _ _).trans (ite_self _)
  all_goals rfl

theorem State.KeepsBut.of_mem_eq (h : s.KeepsBut t ps) (hu : u.mem = t.mem) : s.KeepsMemory u ps := by
  obtain ⟨-, -, hm⟩ := h
  intro pg a ha
  rw [hu]
  exact hm pg a ha

/-- The state after the pushes of an entry. -/
def State.pushed (s s1 : State) (z : Nat) (pss : List (List BytePlace)) (items : List Nat) : State :=
  (s1.wroteAll pss items).withSP (s.spMinus (z * items.length))

theorem State.pushed_frame {s1 : State} {z : Nat} {pss : List (List BytePlace)} {items : List Nat} (h : s.Reads s1) :
    (s.pushed s1 z pss items).flags = s.flags ∧ (s.pushed s1 z pss items).segs = s.segs := by
  have touches := h.touches.trans (wroteAll_touches s1 pss items)
  constructor
  · show (s1.wroteAll pss items).flags = _
    rw [touches]
  · show (s1.wroteAll pss items).segs = _
    rw [touches]

theorem State.pushed_keeps {s1 : State} {z : Nat} {pss : List (List BytePlace)} {items : List Nat} (h : s.Reads s1) :
    s.KeepsBut (s.pushed s1 z pss items) pss.flatten := by
  have writes := (State.KeepsBut.of_reads h).trans (.wroteAll pss items s1)
  exact (writes.trans (.of_eq rfl rfl rfl)).mono (by simp)

/-! ### Real mode -/

theorem enterReal_run (h : ev.EntersReal s t ps) : enterHandler ev s = .ok () t ∧ s.KeepsMemory t ps := by
  obtain ⟨real, limit, pss, off, sel, s1, s2, s3, places, rfl, first, second, rfl⟩ := h
  have reads := pushPlaces_reads places
  have back := (linRead_reads first).trans (linRead_reads second)
  obtain ⟨hflags, hsegs⟩ := State.pushed_frame (z := 2) (pss := pss)
    (items := [(ev.image s.flags).toNat % 2 ^ 16, ev.cs.toNat, ev.ip.toNat % 2 ^ 16]) reads
  have flags : s3.flags = s.flags := back.flags.trans hflags
  have segs : s3.segs = s.segs := back.segs.trans hsegs
  constructor
  · refine M.bind_of_ok rfl ?_
    rw [if_neg (Bool.eq_false_iff.1 real)]
    refine M.bind_of_ok rfl ?_
    dsimp only
    rw [if_neg (by omega)]
    refine (M.bind_of_ok
      (pushList_run (vs := [(ev.image s.flags).toNat % 2 ^ 16, ev.cs.toNat, ev.ip.toNat % 2 ^ 16]) places)
      (M.bind_of_ok first (M.bind_of_ok second ?_)))
    rw [M.modify_run, flags, segs]
    rfl
  · have written := State.pushed_keeps (z := 2) (pss := pss)
      (items := [(ev.image s.flags).toNat % 2 ^ 16, ev.cs.toNat, ev.ip.toNat % 2 ^ 16]) reads
    have whole : s.KeepsBut s3 pss.flatten := (written.trans (.of_reads back)).mono (by simp)
    exact whole.of_mem_eq (Event.effects_mem _ _)

theorem enterReal_beyond (real : s.pe = false) (beyond : s.idtr.limit.toNat < 4 * ev.vector.toNat + 3) :
    enterHandler ev s = .error (.exn { vector := 13, code := some 0, cls := .fault }) s := by
  refine M.bind_of_ok rfl ?_
  rw [if_neg (Bool.eq_false_iff.1 real)]
  refine M.bind_of_ok rfl ?_
  dsimp only
  rw [if_pos beyond]
  rfl

/-! ### What leads to an entry -/

theorem softInt_run {v : Byte} (h : enterHandler (s.softEvent v) s = .ok () t) : softInt v s = .ok () t.transferred :=
  M.bind_of_ok rfl (M.bind_of_ok h rfl)

theorem intoBody_taken (hf : s.flags.ovf = true) (h : enterHandler (s.softEvent 4) s = .ok () t) :
    intoBody s = .ok () t.transferred := by
  refine M.bind_of_ok rfl ?_
  rw [if_pos hf]
  exact softInt_run h

theorem intoBody_not_taken (hf : s.flags.ovf = false) : intoBody s = .ok () s := by
  refine M.bind_of_ok rfl ?_
  rw [hf]
  rfl

/-- A delivery whose entry ends well. -/
theorem deliver_run {k : Nat} (h : enterHandler ev s = .ok () t) : deliver (k + 1) ev s = .next t := by
  rw [deliver, h]

theorem deliverExn_run {e : Exn} (h : enterHandler (s.faultEvent e.vector e.code) s = .ok () t) : deliverExn e s = .next t :=
  deliver_run h

theorem exec_undefined (f : UndefForm) (hr : s.Ready false) :
    exec (.undefined f) s = deliverExn { vector := 6, code := none, cls := .fault } s.abandon :=
  runInstr_exn (l := false) (k := false) (body := raiseUD) (t := s.begin) hr rfl

theorem exec_undefinedEsc_ready (f : EscForm) (he : s.EscReady) :
    exec (.undefinedEsc f) s = deliverExn { vector := 6, code := none, cls := .fault } s.abandon := by
  have ready : s.Ready true := ⟨he.1, by simp⟩
  exact (exec_undefinedEsc f s).trans (runInstr_exn (t := s.begin) ready (M.bind_of_ok (escCheck_ok (s := s.begin) he nofun) rfl))

end

/-- Settles O50: `enterReal_run`, for each way into the entry. -/
theorem realModeEntry : Obligations.RealModeEntry := by
  intro s t ps
  refine ⟨fun hr => ⟨?_, ?_, ?_, ?_, ?_⟩, ?_, ?_, ?_⟩
  · intro v h
    obtain ⟨run, keeps⟩ := enterReal_run h
    exact completes_of_ok (i := .intIb v) (l := false) (k := false) rfl hr (softInt_run run) rfl keeps
  · intro h
    obtain ⟨run, keeps⟩ := enterReal_run h
    exact completes_of_ok (i := .int3) (l := false) (k := false) rfl hr (softInt_run run) rfl keeps
  · intro hf h
    obtain ⟨run, keeps⟩ := enterReal_run h
    exact completes_of_ok (i := .into) (l := false) (k := false) rfl hr (intoBody_taken (s := s.begin) hf run) rfl keeps
  · intro hf
    exact completes_of_ok (i := .into) (l := false) (k := false) rfl hr (intoBody_not_taken (s := s.begin) hf) rfl (keeps_of_mem rfl)
  · intro f h
    obtain ⟨run, keeps⟩ := enterReal_run h
    exact ⟨(exec_undefined f hr).trans (deliverExn_run run), keeps⟩
  · intro he f h
    obtain ⟨run, keeps⟩ := enterReal_run h
    exact ⟨(exec_undefinedEsc_ready f he).trans (deliverExn_run run), keeps⟩
  · intro e h
    obtain ⟨run, keeps⟩ := enterReal_run h
    exact ⟨deliverExn_run run, keeps⟩
  · exact fun ev real beyond => enterReal_beyond real beyond

end Sys2Proof.Machine
end

section
/-! ## Events: the entry in protected mode -/
set_option Elab.async false

namespace Sys2Proof.Machine

/-! ### Reads -/

section
variable {s t : State}

theorem readGate_reads {lin : Nat} {g : Desc} (h : readGate lin s = .ok g t) : s.Reads t := by
  obtain ⟨ps, u, h1, h⟩ := M.bind_ok.1 h
  obtain ⟨v, w, h2, h⟩ := M.bind_ok.1 h
  cases h
  exact (linLocate_reads h1).trans (readBytes_reads h2)

/-- A check of SS whose failures raise reads only. -/
theorem checkSS_reads_of {cpl : BitVec 2} {sel : Word} {null : M (Hidden × Spot)} {bad : M (Nat × Desc)}
    (hnull : ∀ s x t, null s ≠ .ok x t) (hbad : ∀ s x t, bad s ≠ .ok x t) {x : Hidden × Spot}
    (h : checkSS sel cpl null bad s = .ok x t) : s.Reads t := by
  unfold checkSS at h
  by_cases hn : isNull sel = true
  · rw [if_pos hn] at h
    exact absurd h (hnull _ _ _)
  rw [if_neg hn] at h
  obtain ⟨⟨a, d⟩, u, need, h⟩ := M.bind_ok.1 h
  have reads : s.Reads u := by
    cases ha : s.descAddr sel with
    | none =>
      rw [needDesc_none ha] at need
      exact absurd need (hbad _ _ _)
    | some b =>
      simp only [needDesc, findDesc, M.bind_run, M.get_run, ha] at need
      cases hd : readDesc b s with
      | error e w => simp [hd] at need
      | ok e w =>
        simp only [hd, M.pure_run] at need
        cases need
        exact readDesc_reads hd
  dsimp only at h
  split at h
  · obtain ⟨_, _, raised, -⟩ := M.bind_ok.1 h
    exact absurd raised (hbad _ _ _)
  split at h
  · obtain ⟨_, _, raised, -⟩ := M.bind_ok.1 h
    exact absurd raised (by simp [raiseSS, raise])
  obtain ⟨sp, w, mark, h⟩ := M.bind_ok.1 h
  cases h
  exact reads.trans (markSpot_reads mark)

theorem innerStack_reads {n : Nat} {x : Word × Nat} (h : innerStack n s = .ok x t) : s.Reads t := by
  obtain ⟨_, _, hs, h⟩ := M.bind_ok.1 h
  cases hs
  dsimp only at h
  split at h
  all_goals
    split at h
    · obtain ⟨_, _, raised, -⟩ := M.bind_ok.1 h
      exact absurd raised (by simp [raiseTS, raise])
    obtain ⟨esp, u, h1, h⟩ := M.bind_ok.1 h
    obtain ⟨ss, w, h2, h⟩ := M.bind_ok.1 h
    cases h
    exact (linRead_reads h1).trans (linRead_reads h2)

end

/-! ### The frame -/

section
variable {ev : Event} {g d : Desc} {a : Nat} {s t u : State} {ssSpot : Spot}

/-- EFLAGS, CS, EIP and the error code, with the free upper halves `v` and `w`. -/
def Event.frame (ev : Event) (f : Flags) (z : Size) (v w : Word) : List Nat :=
  [(ev.image f).toNat % 2 ^ z.bits, withUpper z v ev.cs, ev.ip.toNat % 2 ^ z.bits] ++ ev.codeItem z w

theorem pushedCode_run (vector : Byte) (z : Size) (c : Word) (s : State) : ∃ (w : Word) (k : Nat),
    pushedCode vector z c s = .ok (if vector = 14 then c.toNat else withUpper z w c) { s with freeCtr := k } := by
  by_cases h : vector = 14
  · subst h
    exact ⟨0, s.freeCtr, rfl⟩
  · obtain ⟨w, k, run⟩ := freeHigh_run z c s
    have : ¬ (vector == 14) = true := by simpa using h
    exact ⟨w, k, by rw [pushedCode, if_neg this, if_neg h]; exact run⟩

theorem entryItems_run (ev : Event) (f : Flags) (z : Size) (s : State) : ∃ (v w : Word) (c : Nat),
    entryItems ev f z s = .ok (ev.frame f z v w) { s with freeCtr := c } := by
  obtain ⟨v, c, cs⟩ := freeHigh_run z ev.cs s
  cases hc : ev.code with
  | none =>
    refine ⟨v, 0, c, M.bind_of_ok cs ?_⟩
    simp only [hc, Event.frame, Event.codeItem, List.append_nil]
    rfl
  | some e =>
    obtain ⟨w, k, code⟩ := pushedCode_run ev.vector z e { s with freeCtr := c }
    refine ⟨v, w, k, M.bind_of_ok cs ?_⟩
    simp only [hc, Event.frame, Event.codeItem]
    exact M.bind_of_ok code rfl

theorem finishEntry_run {items : List Nat} {pss : List (List BytePlace)} {f : Flags} (hf : s.flags = f)
    (h : ev.EntersFrame g d a f ssSpot items s t pss) :
    finishEntry ev g d a g.gateSize ssSpot items s = .ok () t := by
  subst hf
  obtain ⟨csSpot, s1, s2, s3, s4, places, limit, mark, setSS, setCS, rfl⟩ := h
  have touches : s.Touches s4 := ((((pushPlaces_reads places).trans (markSpot_reads mark)).touches.trans
    (setMark_touches setSS)).trans (setMark_touches setCS))
  have all := touches.trans (wroteAll_touches s4 pss items)
  refine M.bind_of_ok places ?_
  dsimp only
  rw [if_neg (show ¬ g.gateOffset g.gateSize > d.limit from fun beyond => absurd limit (BitVec.not_le.2 beyond))]
  refine M.bind_of_ok mark (M.bind_of_ok setSS (M.bind_of_ok setCS (M.bind_of_ok (writeAll_run ..) (M.bind_of_ok (M.get_run _)
    (M.bind_of_ok (setSP_run ..) ?_)))))
  have sp : (s4.wroteAll pss items).spMinus (g.gateSize.bytes * items.length) = s.spMinus (g.gateSize.bytes * items.length) := by
    rw [all]
    rfl
  have flags : (s4.wroteAll pss items).flags = s.flags := by rw [all]
  rw [M.modify_run, sp, all.cpl]
  show EStateM.Result.ok () (ev.effects { (s4.wroteAll pss items).withSP _ with
    flags := { (s4.wroteAll pss items).flags with tf := false, nt := false, vm := false, rf := false
                                                  intf := (s4.wroteAll pss items).flags.intf && g.type.getLsbD 0 }
    segs := (s4.wroteAll pss items).segs.set .cs _, eip := _ }) = _
  rw [flags, all.segs]
  rfl

/-! ### The gate -/

/-- The gate and its code segment are found. -/
theorem enterProtected_gate (h : ev.HasGate s g d a u) : enterProtected ev s =
    (if !d.hidden.conforming && decide (d.dpl < s.cpl) then enterInner ev g d a g.gateSize
      else entryItems ev s.flags g.gateSize >>= fun items => finishEntry ev g d a g.gateSize none items) u := by
  obtain ⟨-, limit, s1, gate, sys, type, present, soft, null, addr, desc, code, priv, dpresent⟩ := h
  have reads := readGate_reads gate
  have gateType : (g.s || !(g.type.toNat == 5 || g.type.toNat == 6 || g.type.toNat == 7 || g.type.toNat == 14 ||
      g.type.toNat == 15)) = false := by
    simp only [List.mem_cons, List.not_mem_nil, or_false] at type
    rw [sys]
    rcases type with e | e | e | e <;> simp [e]
  have task : ¬ (g.type.toNat == 5) = true := by
    simp only [List.mem_cons, List.not_mem_nil, or_false] at type
    rcases type with e | e | e | e <;> simp [e]
  have software : ¬ (ev.kind == .software && decide (g.dpl < s.cpl)) = true := by
    rw [Bool.and_eq_true, beq_iff_eq, decide_eq_true_eq]
    rintro ⟨kind, lt⟩
    exact absurd lt (BitVec.not_lt.2 (soft kind))
  have segment : ¬ (!d.hidden.isCode || decide (s.cpl < d.dpl)) = true := by
    rw [code]
    simpa using priv
  have addr' : s1.descAddr g.gateSel = some a := (reads.descAddr _).trans addr
  refine M.bind_of_ok (M.get_run _) ?_
  dsimp only
  rw [if_neg (by omega)]
  refine M.bind_of_ok gate ?_
  rw [if_neg (Bool.eq_false_iff.1 gateType), if_neg software, present, if_neg (by decide), if_neg task, null, if_neg (by decide)]
  refine M.bind_of_ok (needDesc_some addr' desc) ?_
  dsimp only
  rw [if_neg segment, dpresent, if_neg (by decide)]
  rfl

theorem enterHandler_protected (pe : s.pe = true) : enterHandler ev s = enterProtected ev s := by
  refine M.bind_of_ok (M.get_run _) ?_
  rw [if_pos pe]

theorem Event.HasGate.reads (h : ev.HasGate s g d a u) : s.Reads u := by
  obtain ⟨-, -, s1, gate, -, -, -, -, -, -, desc, -⟩ := h
  exact (readGate_reads gate).trans (readDesc_reads desc)

theorem enterHandler_same (h : ev.HasGate s g d a u) (level : d.hidden.conforming = true ∨ d.dpl = s.cpl) :
    ∃ (v w : Word) (c : Nat), ∀ (pss : List (List BytePlace)) (t : State),
      ev.EntersFrame g d a s.flags none (ev.frame s.flags g.gateSize v w) { u with freeCtr := c } t pss →
      enterHandler ev s = .ok () t := by
  obtain ⟨v, w, c, items⟩ := entryItems_run ev s.flags g.gateSize u
  refine ⟨v, w, c, fun pss t frame => ?_⟩
  have same : ¬ (!d.hidden.conforming && decide (d.dpl < s.cpl)) = true := by
    rcases level with conforming | equal
    · simp [conforming]
    · simp [equal]
  rw [enterHandler_protected h.1, enterProtected_gate h, if_neg same]
  exact M.bind_of_ok items (finishEntry_run (s := { u with freeCtr := c }) h.reads.flags frame)

theorem enterHandler_inner (h : ev.HasGate s g d a u) (conforming : d.hidden.conforming = false) (lt : d.dpl < s.cpl)
    {ss : Word} {esp : Nat} {hid : Hidden} {u1 u2 : State} (stack : innerStack d.dpl.toNat u = .ok (ss, esp) u1)
    (check : checkSS ss d.dpl (raiseTS (selCode ss)) (raiseTS (selCode ss)) u1 = .ok (hid, ssSpot) u2) :
    ∃ (o v w : Word) (c : Nat), ∀ (pss : List (List BytePlace)) (t : State),
      ev.EntersFrame g d a s.flags ssSpot
        (withUpper g.gateSize o s.segs.ss.sel :: s.regs.esp.toNat % 2 ^ g.gateSize.bits :: ev.frame s.flags g.gateSize v w)
        { u2 with
          cpl := d.dpl
          segs := s.segs.set .ss { sel := ss, hid := hid }
          regs := { s.regs with esp := BitVec.ofNat 32 esp }
          freeCtr := c } t pss →
      enterHandler ev s = .ok () t := by
  have reads := h.reads
  have raises : ∀ {α : Type} (s : State) (x : α) (t : State), raiseTS (selCode ss) s ≠ .ok x t := fun _ _ _ => nofun
  have later := (innerStack_reads stack).trans (checkSS_reads_of raises raises check)
  have whole := reads.trans later
  obtain ⟨o, c0, old⟩ := freeHigh_run g.gateSize u.segs.ss.sel { u2 with
    cpl := d.dpl
    segs := u2.segs.set .ss { sel := ss, hid := hid }
    regs := { u2.regs with esp := BitVec.ofNat 32 esp } }
  obtain ⟨v, w, c, items⟩ := entryItems_run ev u.flags g.gateSize { u2 with
    cpl := d.dpl
    segs := u2.segs.set .ss { sel := ss, hid := hid }
    regs := { u2.regs with esp := BitVec.ofNat 32 esp }
    freeCtr := c0 }
  refine ⟨o, v, w, c, fun pss t frame => ?_⟩
  have inner : (!d.hidden.conforming && decide (d.dpl < s.cpl)) = true := by
    rw [conforming, decide_eq_true lt]
    rfl
  rw [enterHandler_protected h.1, enterProtected_gate h, if_pos inner]
  refine M.bind_of_ok (M.get_run _) (M.bind_of_ok stack (M.bind_of_ok check (M.bind_of_ok (M.modify_run ..) (M.bind_of_ok old
    (M.bind_of_ok items ?_)))))
  rw [reads.flags, reads.segs, reads.regs, whole.segs, whole.regs]
  exact finishEntry_run whole.flags frame

/-! ### No entry -/

/-- The entry stops with the gate's error code. -/
def Event.Stops (ev : Event) (s : State) (v : Byte) (t : State) : Prop := enterHandler ev s =
  .error (.exn { vector := v, code := some (BitVec.ofNat 16 (8 * ev.vector.toNat + 2)), cls := .fault }) t

section
variable (pe : s.pe = true)
include pe

theorem stops_beyond (h : s.idtr.limit.toNat < 8 * ev.vector.toNat + 7) : ev.Stops s 13 s := by
  refine (enterHandler_protected pe).trans (M.bind_of_ok (M.get_run _) ?_)
  dsimp only
  rw [if_pos h]
  rfl

variable (limit : 8 * ev.vector.toNat + 7 ≤ s.idtr.limit.toNat) (gate : readGate (s.idtr.base.toNat + 8 * ev.vector.toNat) s = .ok g u)
include limit gate

/-- Whether a descriptor is a gate that the IDT may hold. -/
def Desc.isIdtGate (g : Desc) : Bool := !g.s && (g.type.toNat == 5 || g.type.toNat == 6 || g.type.toNat == 7 ||
  g.type.toNat == 14 || g.type.toNat == 15)

omit pe limit gate in
theorem isIdtGate_iff : g.isIdtGate = true ↔ g.s = false ∧ g.type.toNat ∈ [5, 6, 7, 14, 15] := by
  simp [Desc.isIdtGate, or_assoc]

/-- The checks of a gate, in their order; `r` is what follows them. -/
theorem enterHandler_checks : ∃ r : EStateM.Result Stop State Unit, enterHandler ev s =
    if g.isIdtGate = false then raiseGP (BitVec.ofNat 16 (8 * ev.vector.toNat + 2)) u
    else if ev.kind = .software ∧ g.dpl < s.cpl then raiseGP (BitVec.ofNat 16 (8 * ev.vector.toNat + 2)) u
    else if g.present = false then raiseNP (BitVec.ofNat 16 (8 * ev.vector.toNat + 2)) u
    else r := by
  refine ⟨enterHandler ev s, ?_⟩
  have kinds : (g.s || !(g.type.toNat == 5 || g.type.toNat == 6 || g.type.toNat == 7 || g.type.toNat == 14 ||
      g.type.toNat == 15)) = !g.isIdtGate := by simp [Desc.isIdtGate]
  have soft : (ev.kind == .software && decide (g.dpl < s.cpl)) = true ↔ ev.kind = .software ∧ g.dpl < s.cpl := by simp
  by_cases passes : g.isIdtGate = true ∧ ¬ (ev.kind = .software ∧ g.dpl < s.cpl) ∧ g.present = true
  · obtain ⟨idt, may, present⟩ := passes
    rw [if_neg (by rw [idt]; decide), if_neg may, if_neg (by rw [present]; decide)]
  refine (enterHandler_protected pe).trans (M.bind_of_ok (M.get_run _) ?_)
  dsimp only
  rw [if_neg (by omega)]
  refine M.bind_of_ok gate ?_
  rw [kinds]
  by_cases idt : g.isIdtGate = true
  · rw [idt, if_neg (show ¬ (!true) = true by decide), if_neg (show ¬ true = false by decide)]
    by_cases may : ev.kind = .software ∧ g.dpl < s.cpl
    · rw [if_pos may, if_pos (soft.2 may)]
      rfl
    · have absent : g.present = false := by
        rw [Bool.eq_false_iff]
        exact fun present => passes ⟨idt, may, present⟩
      rw [if_neg may, if_neg (fun h => may (soft.1 h)), if_pos absent, absent]
      rfl
  · rw [Bool.not_eq_true] at idt
    rw [if_pos idt, idt]
    rfl

theorem stops_no_gate (h : g.isIdtGate = false) : ev.Stops s 13 u := by
  obtain ⟨r, run⟩ := enterHandler_checks pe limit gate
  rw [if_pos h] at run
  exact run

variable (h : g.isIdtGate = true)
include h

theorem stops_software (kind : ev.kind = .software) (lt : g.dpl < s.cpl) : ev.Stops s 13 u := by
  obtain ⟨r, run⟩ := enterHandler_checks pe limit gate
  rw [if_neg (by rw [h]; decide), if_pos ⟨kind, lt⟩] at run
  exact run

theorem stops_not_present (may : ev.kind ≠ .software ∨ s.cpl ≤ g.dpl) (absent : g.present = false) : ev.Stops s 11 u := by
  obtain ⟨r, run⟩ := enterHandler_checks pe limit gate
  have allowed : ¬ (ev.kind = .software ∧ g.dpl < s.cpl) := by
    rintro ⟨kind, lt⟩
    rcases may with other | le
    · exact other kind
    · exact BitVec.not_lt.2 le lt
  rw [if_neg (by rw [h]; decide), if_neg allowed, if_pos absent] at run
  exact run

end

end

/-- Settles O51: the gate and its code segment are read and checked, then the frame is pushed. -/
theorem protectedModeEntry : Obligations.ProtectedModeEntry := by
  intro ev s
  refine ⟨fun g d a u gate => ⟨?_, ?_⟩, ?_, ?_, ?_⟩
  · exact enterHandler_same gate
  · intro conforming lt ss esp h ssSpot u1 u2 stack check
    exact enterHandler_inner gate conforming lt stack check
  · intro stop pe
    refine ⟨stops_beyond pe, fun limit g u gate => ⟨fun none => ?_, fun sys type => ⟨fun kind lt => ?_, fun may absent => ?_⟩⟩⟩
    · refine stops_no_gate pe limit gate ?_
      rw [Bool.eq_false_iff, ne_eq, isIdtGate_iff]
      rintro ⟨sys, type⟩
      rcases none with other | other
      · exact absurd (other.symm.trans sys) Bool.noConfusion
      · exact other type
    · exact stops_software pe limit gate (isIdtGate_iff.2 ⟨sys, type⟩) kind lt
    · exact stops_not_present pe limit gate (isIdtGate_iff.2 ⟨sys, type⟩) may absent
  · intro t hr enters
    refine ⟨fun v h => ?_, fun h => ?_, fun hf h => ?_, fun hf => ?_⟩
    · exact runInstr_ok (l := false) (k := false) hr (softInt_run h)
    · exact runInstr_ok (l := false) (k := false) hr (softInt_run h)
    · exact runInstr_ok (l := false) (k := false) hr (intoBody_taken (s := s.begin) hf h)
    · exact completes_of_ok (i := .into) (l := false) (k := false) rfl hr (intoBody_not_taken (s := s.begin) hf) rfl
        (keeps_of_mem rfl)
  · exact fun e t h => deliverExn_run h

end Sys2Proof.Machine
end

section
/-! ## Events: IRET -/
set_option Elab.async false

namespace Sys2Proof.Machine

/-! ### The stack pointer written back as it is -/

theorem Regs.set_get_self (r : Regs) (n : RegNum) : r.set n (r.get n) = r := by
  fin_cases n <;> rfl

theorem Regs.write_read_sized (r : Regs) (z : Size) (n : RegNum) : r.write z.width n (r.read z.width n) = r := by
  cases z
  · have same : (r.get n).extractLsb' 16 16 ++ BitVec.ofNat 16 ((r.get n).toNat % 2 ^ 16) = r.get n := by
      apply BitVec.eq_of_getLsbD_eq
      intro i hi
      rw [BitVec.getLsbD_append]
      simp only [BitVec.getLsbD_extractLsb', BitVec.getLsbD_ofNat]
      by_cases low : i < 16
      · rw [if_pos low, decide_eq_true low, Bool.true_and, Nat.testBit_mod_two_pow, decide_eq_true low, Bool.true_and]
        rfl
      · have high : i - 16 < 16 := by omega
        rw [if_neg low, decide_eq_true high, Bool.true_and, Nat.add_sub_cancel' (by omega)]
    calc r.write Size.s16.width n (r.read Size.s16.width n)
        = r.set n ((r.get n).extractLsb' 16 16 ++ BitVec.ofNat 16 ((r.get n).toNat % 2 ^ 16)) := rfl
      _ = r := by rw [same, Regs.set_get_self]
  · show r.set n (BitVec.ofNat 32 (r.get n).toNat) = r
    rw [BitVec.ofNat_toNat, BitVec.setWidth_eq, Regs.set_get_self]

theorem State.withSP_self (s : State) {n : Nat} (h : n = s.sp) : s.withSP n = s := by
  subst h
  show ({ s with regs := s.regs.write s.ssz.width regESP (s.regs.read s.ssz.width regESP) } : State) = s
  rw [Regs.write_read_sized]

/-! ### The body of IRET -/

section
variable {s s1 t : State} {off sel f : Nat}

theorem State.Touches.flags (h : s.Touches t) : t.flags = s.flags := by rw [h]

theorem State.Pops.flags {k : Nat} (h : s.Pops t k) : t.flags = s.flags := by
  obtain ⟨reads, -, -⟩ := h
  exact reads.flags

theorem interruptReturn_nested (hp : s.pe = true) (hn : s.flags.nt = true) :
    interruptReturn s = .error (.refuse .nestedTaskReturn) s := by
  simp only [interruptReturn, M.bind_run, M.get_run, hp, hn]
  rfl

theorem interruptReturn_beyond (hp : s.pe = false) (h : 2 ^ 16 < s.sp + 3 * s.osz.bytes) :
    interruptReturn s = raiseGP 0 s := by
  simp only [interruptReturn, M.bind_run, M.get_run, hp, Bool.false_and, Bool.false_eq_true, if_false, Bool.not_false, Bool.true_and,
    decide_eq_true h, if_true]
  rfl

/-- The checks before the pops let IRET go on. -/
def State.MayReturn (s : State) : Prop :=
  (s.pe = true ∧ s.flags.nt = false) ∨ (s.pe = false ∧ s.sp + 3 * s.osz.bytes ≤ 2 ^ 16)

/-- What IRET does after the pops. -/
def iretTail (s : State) (off sel f : Nat) : M Unit := do
  if s.pe && s.osz == .s32 && (BitVec.ofNat 32 f).getLsbD 17 && s.cpl == 0 then throw (.refuse .virtual8086)
  farReturn s.osz.bytes 0 (BitVec.ofNat 16 sel) (BitVec.ofNat 32 off)
  modify (fun t => { t with
    flags := iretFlags s.osz (if s.pe then s.cpl else 0) (Flags.ofBits (BitVec.ofNat 32 f)) t.flags
    latch := { t.latch with nmiInService := false } })

theorem interruptReturn_popped (may : s.MayReturn) (pops : popMany s.osz.bytes 3 s = .ok [off, sel, f] s1) :
    interruptReturn s = iretTail s off sel f s1 := by
  obtain ⟨u, v, p1, p2, p3⟩ := popMany_three pops
  have nested : (s.pe && s.flags.nt) = false := by
    rcases may with ⟨hp, hn⟩ | ⟨hp, -⟩
    · rw [hn, Bool.and_false]
    · rw [hp, Bool.false_and]
  have room : (!s.pe && decide (s.sp + 3 * s.osz.bytes > 2 ^ 16)) = false := by
    rcases may with ⟨hp, -⟩ | ⟨-, h⟩
    · rw [hp]; rfl
    · rw [decide_eq_false (Nat.not_lt.2 h), Bool.and_false]
  simp only [interruptReturn, M.bind_run, M.get_run, nested, room, Bool.false_eq_true, if_false, p1, p2, p3]
  rfl

theorem iretTail_virtual (hp : s.pe = true) (hz : s.osz = .s32) (hv : (BitVec.ofNat 32 f).getLsbD 17 = true) (hc : s.cpl = 0) :
    iretTail s off sel f s1 = .error (.refuse .virtual8086) s1 := by
  simp only [iretTail, hp, hz, hv, hc]
  rfl

theorem iretTail_run (h : s.pe = false ∨ s.osz = .s16 ∨ (BitVec.ofNat 32 f).getLsbD 17 = false ∨ s.cpl ≠ 0)
    (far : farReturn s.osz.bytes 0 (BitVec.ofNat 16 sel) (BitVec.ofNat 32 off) s1 = .ok () t) :
    iretTail s off sel f s1 = .ok () { t with
      flags := iretFlags s.osz (if s.pe then s.cpl else 0) (Flags.ofBits (BitVec.ofNat 32 f)) t.flags
      latch := { t.latch with nmiInService := false } } := by
  have stays : (s.pe && s.osz == .s32 && (BitVec.ofNat 32 f).getLsbD 17 && s.cpl == 0) = false := by
    rcases h with h | h | h | h
    · rw [h]; rfl
    · rw [h, show (Size.s16 == Size.s32) = false from rfl, Bool.and_false]; rfl
    · rw [h, Bool.and_false]; rfl
    · rw [beq_eq_false_iff_ne.2 h, Bool.and_false]
  unfold iretTail
  rw [if_neg (by rw [stays]; decide)]
  exact M.bind_of_ok far rfl

/-- The return without a change of level: CS and EIP loaded, eSP as the pops left it. -/
theorem farReturn_keepsSP {cs : SegReg} {n : Nat} (ht : s1.Touches t) :
    ((t.withSeg .cs cs).withEip n).withSP (s1.sp + 0) = (t.withSeg .cs cs).withEip n :=
  State.withSP_self _ ht.sp.symm

end

section
variable {s s1 t : State} {off sel f : Nat}

/-- The state IRET leaves has the flags of the image, and takes NMI again. -/
def State.iretDone (s t : State) (f : Nat) : State :=
  { t with
    flags := iretFlags s.osz (if s.pe then s.cpl else 0) (Flags.ofBits (BitVec.ofNat 32 f)) s.flags
    latch := { t.latch with nmiInService := false } }

theorem exec_iret_popped (hr : s.Ready false) (may : s.MayReturn) (pops : popMany s.osz.bytes 3 s.begin = .ok [off, sel, f] s1)
    (stays : s.pe = false ∨ s.osz = .s16 ∨ (BitVec.ofNat 32 f).getLsbD 17 = false ∨ s.cpl ≠ 0)
    (far : farReturn s.osz.bytes 0 (BitVec.ofNat 16 sel) (BitVec.ofNat 32 off) s1 = .ok () t) (hf : t.flags = s.flags) :
    exec .iret s = .next ((s.iretDone t f).complete true) := by
  have run := (interruptReturn_popped (s := s.begin) may pops).trans (iretTail_run (s := s.begin) stays far)
  rw [hf] at run
  exact runInstr_ok (l := false) (k := true) hr run

theorem exec_iret_virtual (hr : s.Ready false) (hn : s.flags.nt = false) (pops : popMany s.osz.bytes 3 s.begin = .ok [off, sel, f] s1)
    (hp : s.pe = true) (hz : s.osz = .s32) (hv : (BitVec.ofNat 32 f).getLsbD 17 = true) (hc : s.cpl = 0) :
    exec .iret s = .refused .virtual8086 :=
  runInstr_refuse (l := false) (k := true) hr
    ((interruptReturn_popped (s := s.begin) (.inl ⟨hp, hn⟩) pops).trans (iretTail_virtual (s := s.begin) hp hz hv hc))

theorem State.ReturnsOuter.flags {n imm a : Nat} {cs : Word} {ip : DWord} {d : Desc} (h : s.ReturnsOuter n imm cs ip a d t) :
    t.flags = s.flags := by
  obtain ⟨esp, ss, hid, ssSpot, csSpot, u1, u2, u3, u4, u5, pops, check, mark, setSS, setCS, rfl⟩ := h
  show u5.flags = s.flags
  rw [(setMark_touches setCS).flags, (setMark_touches setSS).flags, (markSpot_reads mark).flags, (checkSS_reads check).flags,
    (popMany_pops pops).flags]
  rfl

end

/-- Settles O53: three pops, the far return, then the flags of the image. -/
theorem interruptReturns : Obligations.InterruptReturn := by
  intro s hr
  refine ⟨fun hp hn => ?_, fun hp beyond => ?_,
    fun off sel f s1 pops => ⟨fun hp room => ?_, fun hp hn => ⟨fun hz hv hc => ?_, ?_, ?_⟩⟩⟩
  · exact runInstr_refuse (l := false) (k := true) hr (interruptReturn_nested (s := s.begin) hp hn)
  · exact raises_of_error (i := .iret) (l := false) (k := true) rfl hr (interruptReturn_beyond (s := s.begin) hp beyond)
  · have popped := popMany_pops pops
    have same := farReturn_real (s := s1) (sel := BitVec.ofNat 16 sel) (off := BitVec.ofNat 32 off) s.osz.bytes 0 (popped.pe.trans hp)
    rw [farReturn_keepsSP (.refl s1), popped.segs] at same
    have run := exec_iret_popped hr (.inr ⟨hp, room⟩) pops (.inl hp) same popped.flags
    simp only [State.iretDone, hp] at run
    rw [run]
    rfl
  · exact exec_iret_virtual hr hn pops hp hz hv hc
  · intro a d h s2 s3 stays target level mark
    have popped := popMany_pops pops
    have pe := popped.pe.trans hp
    have touched := (returnTarget_reads target).touches.trans (accessed_touches mark)
    have same := farReturn_same (n := s.osz.bytes) (imm := 0) pe target (level.trans popped.cpl.symm) mark
    rw [farReturn_keepsSP touched] at same
    have run := exec_iret_popped hr (.inl ⟨hp, hn⟩) pops (.inr stays) same (touched.flags.trans popped.flags)
    simp only [State.iretDone, hp] at run
    rw [run]
    rfl
  · intro a d s2 t stays target level outer
    have popped := popMany_pops pops
    have pe := popped.pe.trans hp
    have far := farReturn_outer pe target (fun h => level (h.trans popped.cpl)) outer
    have run := exec_iret_popped hr (.inl ⟨hp, hn⟩) pops (.inr stays) far
      (outer.flags.trans ((returnTarget_reads target).flags.trans popped.flags))
    simp only [State.iretDone, hp] at run
    exact run

end Sys2Proof.Machine
end

section
/-! ## RESET -/
set_option Elab.async false

namespace Sys2Proof.Machine

/-! ### What other agents change -/

/-- `t` is `s` but for memory, cache and prefetch unit. -/
def State.AgentFrame (s t : State) : Prop := t = { s with mem := t.mem, cache := t.cache, prefetch := t.prefetch }

theorem State.AgentFrame.refl (s : State) : s.AgentFrame s := rfl

theorem State.AgentFrame.trans {s t u : State} (h : s.AgentFrame t) (g : t.AgentFrame u) : s.AgentFrame u := by
  unfold State.AgentFrame at *
  rw [g, h]

theorem State.otherWrite_frame (s : State) (c : Host.Cell) : s.AgentFrame (s.otherWrite c) := by
  unfold State.otherWrite
  split <;> exact rfl

theorem State.externalInvalidate_frame (s : State) : s.AgentFrame s.externalInvalidate := by
  unfold State.externalInvalidate
  split <;> exact rfl

theorem State.otherWrites_frame (cs : List Host.Cell) : ∀ s : State, s.AgentFrame (cs.foldl State.otherWrite s) := by
  induction cs with
  | nil => exact State.AgentFrame.refl
  | cons c cs ih => exact fun s => (s.otherWrite_frame c).trans (ih (s.otherWrite c))

theorem State.snooped_frame (s : State) : s.AgentFrame s.snooped := by
  have seen := (s.otherWrites_frame s.pins.busWrites).trans (State.externalInvalidate_frame _)
  unfold State.snooped
  simp only
  split
  · exact seen.trans rfl
  · exact seen

theorem State.otherAgents_frame (s : State) : s.AgentFrame s.otherAgents := by
  unfold State.otherAgents
  split
  · exact s.snooped_frame.trans rfl
  · exact .refl s

theorem State.sample_pins (s : State) : s.sample.pins = { s.pins with eads := [], busWrites := [] } := by
  show { s.otherAgents.pins with eads := [], busWrites := [] } = _
  rw [s.otherAgents_frame]

theorem State.sample_fpu (s : State) : s.sample.fpu = s.fpu := by
  show s.otherAgents.fpu = _
  rw [s.otherAgents_frame]

/-! ### RESET -/

/-- Every register of the FPU that the self-test leaves is +0.0. -/
theorem initialised_reg (k : RegNum) : (Fpu.initialised FpuRegs.zero).reg k = 0 := by
  fin_cases k <;> rfl

theorem onReset_refused {s : State} (h : s.pins.flush = true) : s.onReset = .refused .triStateTest := by
  rw [State.onReset, if_pos h]

/-- The state RESET leaves (70_reset R921, R922, R930). -/
def State.afterReset (s : State) : State :=
  { State.reset with
    regs := if s.pins.ahold then { State.reset.regs with eax := Config.bistResult } else State.reset.regs
    fpu := if s.pins.ahold then Fpu.initialised FpuRegs.zero else s.fpu
    mem := s.mem
    pins := s.pins
    inputs := s.inputs
    regions := s.regions
    bus := s.bus
    freeCtr := s.freeCtr
    latch := { State.reset.latch with nmiLevel := s.pins.nmi } }

theorem onReset_run {s : State} (h : s.pins.flush = false) : s.onReset = .next s.afterReset := by
  rw [State.onReset, if_neg (by rw [h]; decide)]
  rfl

theorem step_reset {s : State} (h : s.nextPins.pins.reset = true) : step s = s.nextPins.sample.onReset := by
  rw [step, cycle, if_pos h]

/-- The values of the reset tables (70_reset R928 to R930), segment register by segment register. -/
theorem reset_segment (n : SegName) : (State.reset.segs.get n).hid.limit = 0xFFFF ∧ (State.reset.segs.get n).hid.present = true ∧
    (State.reset.segs.get n).hid.db = false ∧
    (n ≠ .cs → (State.reset.segs.get n).sel = 0 ∧ (State.reset.segs.get n).hid.base = 0 ∧
      (State.reset.segs.get n).hid.writable = true) := by
  cases n <;> decide

/-- DH and DL after RESET: the component identifier and the stepping, whatever it is (70_reset R928). -/
theorem componentId (v : Byte) :
    (0x0400 ||| v.setWidth 32 : DWord).extractLsb' 8 8 = 4 ∧ (0x0400 ||| v.setWidth 32 : DWord).extractLsb' 0 8 = v := by
  constructor
  · rw [BitVec.extractLsb'_or, show (v.setWidth 32).extractLsb' 8 8 = 0#8 by ext i hi; simp]
    decide
  · rw [BitVec.extractLsb'_or,
      show (v.setWidth 32).extractLsb' 0 8 = v by
        ext i hi
        simp [BitVec.getLsbD_eq_getElem hi, Nat.lt_trans hi (show 8 < 32 by decide)],
      show (0x0400 : DWord).extractLsb' 0 8 = 0#8 by decide, BitVec.zero_or]

/-- Settles O56: the reset state is read off; RESET overrides the boundary, after the pins are sampled. -/
theorem resetState : Obligations.ResetState := by
  refine ⟨?_, ?_⟩
  · obtain ⟨identifier, stepping⟩ := componentId Config.stepping
    refine ⟨rfl, by decide, rfl, rfl, reset_segment, by decide, identifier, stepping, rfl, rfl, rfl, rfl, rfl, rfl, rfl, rfl, rfl, rfl,
      rfl, rfl, rfl, rfl, rfl, rfl, rfl, rfl, rfl⟩
  · intro s0 s reset
    refine ⟨fun flush => ?_, fun flush => ?_⟩
    · rw [step_reset reset]
      exact onReset_refused ((congrArg Pins.flush s.sample_pins).trans flush)
    · refine ⟨s.sample.afterReset, ?_, rfl, rfl, rfl, rfl, rfl, rfl, rfl, rfl, rfl, rfl, fun ahold => ?_, fun ahold => ?_⟩
      · rw [step_reset reset]
        exact onReset_run ((congrArg Pins.flush s.sample_pins).trans flush)
      · have off : s.sample.pins.ahold = false := (congrArg Pins.ahold s.sample_pins).trans ahold
        show (if s.sample.pins.ahold then Fpu.initialised FpuRegs.zero else s.sample.fpu) = s.fpu
        rw [off, s.sample_fpu]
        rfl
      · have on : s.sample.pins.ahold = true := (congrArg Pins.ahold s.sample_pins).trans ahold
        have fpu : s.sample.afterReset.fpu = Fpu.initialised FpuRegs.zero := if_pos on
        have regs : s.sample.afterReset.regs = { State.reset.regs with eax := Config.bistResult } := if_pos on
        rw [fpu, regs]
        exact ⟨rfl, rfl, by decide, by decide, initialised_reg⟩

end Sys2Proof.Machine
end

section
/-! ## Boundary events: the breakpoints -/
set_option Elab.async false

namespace Sys2Proof.Machine

/-! ### Address translation leaves the breakpoints noted so far -/

/-- `t` has noted the data breakpoints that `s` had. -/
def State.SameBreaks (s t : State) : Prop := t.latch.dataBreak = s.latch.dataBreak

theorem State.SameBreaks.trans {s t u : State} (h : s.SameBreaks t) (g : t.SameBreaks u) : s.SameBreaks u := Eq.trans g h

theorem busRead_breaks {code : Bool} {attr : Attr} {a n v : Nat} {s t : State} (h : busRead code attr a n s = .ok v t) :
    s.SameBreaks t := by
  unfold busRead at h
  simp only at h
  split at h <;> cases h <;> rfl

theorem burst_breaks {code : Bool} {attr : Attr} {block : Nat} {os : List Nat} {s t : State} {d : BitVec 128}
    (h : burst code attr block os s = .ok d t) : s.SameBreaks t := by
  induction os generalizing s d with
  | nil => cases h; rfl
  | cons o os ih =>
    obtain ⟨v, u, h1, h⟩ := M.bind_ok.1 h
    obtain ⟨rest, w, h2, h⟩ := M.bind_ok.1 h
    cases h
    exact (busRead_breaks h1).trans (ih h2)

theorem physRead_breaks {locked : Bool} {attr : Attr} {pa n v : Nat} {s t : State} (h : physRead locked attr pa n s = .ok v t) :
    s.SameBreaks t := by
  unfold physRead at h
  simp only at h
  split at h
  · cases h; rfl
  · split at h
    · obtain ⟨d, u, h1, h⟩ := M.bind_ok.1 h
      obtain ⟨_, w, h2, h⟩ := M.bind_ok.1 h
      cases h2
      cases h
      refine (burst_breaks h1).trans ?_
      dsimp only
      split <;> rfl
    · exact busRead_breaks h

theorem readTransfer_breaks {locked : Bool} {ps : List BytePlace} {s t : State} {v : Nat}
    (h : readTransfer locked ps s = .ok v t) : s.SameBreaks t := by
  cases ps with
  | nil => cases h; rfl
  | cons p ps => exact physRead_breaks h

theorem readPieces_breaks {locked : Bool} {pss : List (List BytePlace)} {s t : State} {v : Nat}
    (h : readPieces locked pss s = .ok v t) : s.SameBreaks t := by
  induction pss generalizing s v with
  | nil => cases h; rfl
  | cons p pss ih =>
    obtain ⟨a, u, h1, h⟩ := M.bind_ok.1 h
    obtain ⟨b, w, h2, h⟩ := M.bind_ok.1 h
    cases h
    obtain ⟨hi, x, h3, h1⟩ := M.bind_ok.1 h1
    obtain ⟨lo, y, h4, h1⟩ := M.bind_ok.1 h1
    cases h1
    exact ((readTransfer_breaks h3).trans (readTransfer_breaks h4)).trans (ih h2)

theorem busWrote_breaks (s : State) (ps : List BytePlace) (attr : Attr) (a v : Nat) : s.SameBreaks (s.busWrote ps attr a v) := by
  unfold State.busWrote
  split <;> rfl

theorem wroteTransfer_breaks (s : State) (ps : List BytePlace) (v : Nat) : s.SameBreaks (s.wroteTransfer ps v) := by
  unfold State.wroteTransfer
  split
  · rfl
  · simp only
    split
    · split
      · rfl
      · exact State.SameBreaks.trans (t := { s with cache := _ }) rfl (busWrote_breaks _ _ _ _ _)
    · exact busWrote_breaks _ _ _ _ _

theorem wrote_breaks (s : State) (ps : List BytePlace) (v : Nat) : s.SameBreaks (s.wrote ps v) := by
  unfold State.wrote
  generalize pieces ps = pss
  induction pss generalizing s v with
  | nil => rfl
  | cons p pss ih => exact ((wroteTransfer_breaks _ _ _).trans (wroteTransfer_breaks _ _ _)).trans (ih _ _)

theorem markEntry_breaks {pa e b : Nat} {attr : Attr} {s t : State} (h : markEntry pa e b attr s = .ok () t) : s.SameBreaks t := by
  unfold markEntry at h
  split at h
  · cases h; rfl
  · obtain ⟨v, u, h1, h⟩ := M.bind_ok.1 h
    rw [writeBytes_run] at h
    cases h
    exact (readPieces_breaks h1).trans (wrote_breaks _ _ _)

theorem pageWalk_breaks {lin : Nat} {w u : Bool} {s t : State} {p : BytePlace} (h : pageWalk lin w u s = .ok p t) :
    s.SameBreaks t := by
  unfold pageWalk at h
  obtain ⟨s0, t0, h0, h⟩ := M.bind_ok.1 h
  cases h0
  simp only at h
  obtain ⟨pde, t1, h1, h⟩ := M.bind_ok.1 h
  split at h
  · exact absurd (M.bind_ok.1 h) (by simp [pageFault])
  obtain ⟨pte, t2, h2, h⟩ := M.bind_ok.1 h
  split at h
  · exact absurd (M.bind_ok.1 h) (by simp [pageFault])
  split at h
  · exact absurd (M.bind_ok.1 h) (by simp [pageFault])
  obtain ⟨_, t3, h3, h⟩ := M.bind_ok.1 h
  obtain ⟨_, t4, h4, h⟩ := M.bind_ok.1 h
  obtain ⟨_, t5, h5, h⟩ := M.bind_ok.1 h
  cases h5
  cases h
  exact (((readPieces_breaks h1).trans (readPieces_breaks h2)).trans (markEntry_breaks h3)).trans (markEntry_breaks h4) |>.trans rfl

theorem useEntry_breaks {e : TlbEntry} {w : Bool} {s t : State} {b : Bool} (h : useEntry e w s = .ok b t) : s.SameBreaks t := by
  unfold useEntry at h
  split at h
  · cases h; rfl
  · split at h <;> cases h <;> rfl

theorem translate_breaks {lin : Nat} {w u : Bool} {s t : State} {p : BytePlace} (h : translate lin w u s = .ok p t) :
    s.SameBreaks t := by
  unfold translate at h
  obtain ⟨s0, t0, h0, h⟩ := M.bind_ok.1 h
  cases h0
  simp only at h
  split at h
  · cases h; rfl
  cases hf : s.tlb.find (lin / 4096) with
  | none => rw [hf] at h; exact pageWalk_breaks h
  | some e =>
    rw [hf] at h
    obtain ⟨b, t1, h1, h⟩ := M.bind_ok.1 h
    split at h
    · split at h
      · exact absurd (M.bind_ok.1 h) (by simp [pageFault])
      · obtain ⟨_, t2, h2, h⟩ := M.bind_ok.1 h
        cases h2
        cases h
        exact State.SameBreaks.trans (useEntry_breaks h1) rfl
    · exact (useEntry_breaks h1).trans (pageWalk_breaks h)

theorem linLocate_breaks {lin n : Nat} {w u : Bool} {s t : State} {ps : List BytePlace}
    (h : linLocate lin n w u s = .ok ps t) : s.SameBreaks t := by
  unfold linLocate at h
  obtain ⟨⟨p1, c1⟩, t1, h1, h⟩ := M.bind_ok.1 h
  simp only at h
  split at h
  · obtain ⟨⟨p2, c2⟩, t2, h2, h⟩ := M.bind_ok.1 h
    cases h
    exact (translate_breaks h1).trans (translate_breaks h2)
  · cases h
    exact translate_breaks h1

/-! ### The fields of DR7 -/

theorem toNat_extract_two (v : DWord) (k : Nat) : (v.extractLsb' k 2).toNat = v.toNat / 2 ^ k % 4 := by
  rw [BitVec.extractLsb'_toNat, Nat.shiftRight_eq_div_pow]

theorem DebugRegs.armed_iff (d : DebugRegs) (i : Nat) :
    d.armed i = true ↔ d.dr7.getLsbD (2 * i) = true ∨ d.dr7.getLsbD (2 * i + 1) = true := Bool.or_eq_true_iff

theorem DebugRegs.rw_eq_iff (d : DebugRegs) (i : Nat) (c : BitVec 2) : d.rw i = c ↔ d.dr7.toNat / 2 ^ (16 + 4 * i) % 4 = c.toNat := by
  rw [← toNat_extract_two]
  exact BitVec.toNat_inj.symm

theorem DebugRegs.lenCode_eq_iff (d : DebugRegs) (i : Nat) (c : BitVec 2) :
    d.lenCode i = c ↔ d.dr7.toNat / 2 ^ (18 + 4 * i) % 4 = c.toNat := by
  rw [← toNat_extract_two]
  exact BitVec.toNat_inj.symm

/-- The bits of DR6 that four matches make. -/
def fourHits (hit : Nat → Bool) : BitVec 4 :=
  BitVec.ofBool (hit 3) ++ BitVec.ofBool (hit 2) ++ BitVec.ofBool (hit 1) ++ BitVec.ofBool (hit 0)

theorem fourHits_getLsbD (hit : Nat → Bool) {i : Nat} (h : i < 4) : (fourHits hit).getLsbD i = hit i := by
  have bits : ∀ a b c d : Bool, let v := BitVec.ofBool d ++ BitVec.ofBool c ++ BitVec.ofBool b ++ BitVec.ofBool a
      v.getLsbD 0 = a ∧ v.getLsbD 1 = b ∧ v.getLsbD 2 = c ∧ v.getLsbD 3 = d := by decide
  obtain ⟨b0, b1, b2, b3⟩ := bits (hit 0) (hit 1) (hit 2) (hit 3)
  interval_cases i
  · exact b0
  · exact b1
  · exact b2
  · exact b3

/-! ### Instruction breakpoints -/

section
variable {s t : State}

/-- Whether breakpoint `i` is set on the execution of the byte at `lin`. -/
def State.execHit (s : State) (lin i : Nat) : Bool := s.dbg.armed i && s.dbg.rw i == 0 && (s.dbg.addr i).toNat == lin

theorem instrBreakHit_run {i : Nat} (lin : Nat) (h : s.dbg.armed i = true → s.dbg.rw i = 0 → s.dbg.lenCode i = 0) :
    instrBreakHit i lin s = .ok (s.execHit lin i) s := by
  by_cases may : s.dbg.armed i = true ∧ s.dbg.rw i = 0
  · obtain ⟨armed, code⟩ := may
    simp only [instrBreakHit, State.execHit, armed, code, h armed code]
    rfl
  · have none : (s.dbg.armed i && s.dbg.rw i == 0) = false := by
      rw [Bool.eq_false_iff, ne_eq, Bool.and_eq_true, beq_iff_eq]
      exact may
    have skip : (!s.dbg.armed i || s.dbg.rw i != 0) = true := by
      rw [bne, ← Bool.not_and, none]
      rfl
    rw [State.execHit, none]
    exact if_pos skip

theorem instrBreaks_suppressed (h : s.flags.rf = true) : instrBreaks s = .ok 0 s := by
  simp only [instrBreaks, M.bind_run, M.get_run, h]
  rfl

theorem instrBreaks_run (hf : s.flags.rf = false) (h : ∀ i < 4, s.dbg.armed i = true → s.dbg.rw i = 0 → s.dbg.lenCode i = 0) :
    instrBreaks s = .ok (fourHits (s.execHit ((s.segs.cs.hid.base.toNat + s.eip.toNat) % 2 ^ 32))) s := by
  simp only [instrBreaks, M.bind_run, M.get_run, hf, Bool.false_eq_true, if_false, instrBreakHit_run _ (h 0 (by decide)),
    instrBreakHit_run _ (h 1 (by decide)), instrBreakHit_run _ (h 2 (by decide)), instrBreakHit_run _ (h 3 (by decide))]
  rfl

/-! ### Data breakpoints -/

/-- Two ranges of linear addresses, the second of at most four bytes and not past FFFFFFFFH, meet when one begins in the other. -/
theorem ranges_meet {lin n a len : Nat} (hl : lin < 2 ^ 32) (hn : 0 < n) (h0 : 0 < len) (hlen : len ≤ 4) (ha : a + len ≤ 2 ^ 32) :
    ((a + 2 ^ 32 - lin) % 2 ^ 32 < n ∨ (lin + 2 ^ 32 - a) % 2 ^ 32 < len) ↔ ∃ k < n, ∃ j < len, (lin + k) % 2 ^ 32 = a + j := by
  constructor
  · rintro (h | h)
    · exact ⟨_, h, 0, h0, by omega⟩
    · exact ⟨0, hn, _, h, by omega⟩
  · rintro ⟨k, hk, j, hj, meet⟩
    omega

/-- Whether breakpoint `i` is set on an access of `n` bytes at `lin`. -/
def State.dataHit (s : State) (lin n : Nat) (w : Bool) (i : Nat) : Bool :=
  s.dbg.armed i && s.dbg.rw i != 0 && ((w || s.dbg.rw i == 3) && s.dbg.covers i lin n)

theorem breakHit_run {i : Nat} (lin n : Nat) (w : Bool) (h : s.dbg.armed i = true → s.dbg.rw i ≠ 2 ∧ s.dbg.lenCode i ≠ 2) :
    breakHit i lin n w s = .ok (s.dataHit lin n w i) s := by
  by_cases may : (s.dbg.armed i && s.dbg.rw i != 0) = true
  · obtain ⟨armed, code⟩ := Bool.and_eq_true_iff.1 may
    obtain ⟨rwDefined, lenDefined⟩ := h armed
    have go : ¬ (!s.dbg.armed i || s.dbg.rw i == 0) = true := by
      rw [Bool.or_eq_true, Bool.not_eq_true', beq_iff_eq, armed]
      rintro (no | no)
      · cases no
      · exact bne_iff_ne.1 code no
    have defined : ¬ (s.dbg.rw i == 2 || s.dbg.lenCode i == 2) = true := by
      rw [Bool.or_eq_true, beq_iff_eq, beq_iff_eq]
      exact not_or.2 ⟨rwDefined, lenDefined⟩
    rw [State.dataHit, may, Bool.true_and]
    exact (if_neg go).trans (if_neg defined)
  · rw [Bool.not_eq_true] at may
    have skip : (!s.dbg.armed i || s.dbg.rw i == 0) = true := by
      rw [← Bool.not_eq_false', Bool.not_or, Bool.not_not]
      exact may
    rw [State.dataHit, may, Bool.false_and]
    exact if_pos skip

theorem noteAccess_run (lin n : Nat) (w : Bool) (h : ∀ i < 4, s.dbg.armed i = true → s.dbg.rw i ≠ 2 ∧ s.dbg.lenCode i ≠ 2) :
    noteAccess lin n w s =
      .ok () { s with latch := { s.latch with dataBreak := s.latch.dataBreak ||| fourHits (s.dataHit lin n w) } } :=
  M.bind_of_ok (breakHit_run lin n w (h 0 (by decide))) (M.bind_of_ok (breakHit_run lin n w (h 1 (by decide)))
    (M.bind_of_ok (breakHit_run lin n w (h 2 (by decide))) (M.bind_of_ok (breakHit_run lin n w (h 3 (by decide))) rfl)))

theorem State.Touches.dbg (h : s.Touches t) : t.dbg = s.dbg := by rw [h]

/-- What locating an operand notes. -/
theorem locate_breaks {sr : SegName} {off n al : Nat} {w : Bool} {ps : List BytePlace}
    (h : ∀ i < 4, s.dbg.armed i = true → s.dbg.rw i ≠ 2 ∧ s.dbg.lenCode i ≠ 2) (run : locate sr off n al w s = .ok ps t) :
    t.latch.dataBreak =
      s.latch.dataBreak ||| fourHits (s.dataHit (((s.segs.get sr).hid.base.toNat + off) % 2 ^ 32) n w) := by
  obtain ⟨lin, s1, h1, run⟩ := M.bind_ok.1 run
  obtain ⟨rfl, rfl⟩ := segCheck_ok h1
  obtain ⟨_, s2, h2, run⟩ := M.bind_ok.1 run
  obtain rfl := alignCheck_ok h2
  obtain ⟨_, s3, h3, run⟩ := M.bind_ok.1 run
  cases h3
  obtain ⟨qs, s4, h4, run⟩ := M.bind_ok.1 run
  obtain ⟨_, s5, h5, run⟩ := M.bind_ok.1 run
  cases run
  have dbg := (linLocate_reads h4).dbg
  rw [noteAccess_run _ _ _ (by rw [dbg]; exact h)] at h5
  cases h5
  have hits : ∀ lin, s4.dataHit lin n w = s2.dataHit lin n w := by
    intro lin
    unfold State.dataHit
    rw [dbg]
  show s4.latch.dataBreak ||| fourHits (s4.dataHit _ n w) = _
  rw [hits, linLocate_breaks h4]

end
end Sys2Proof.Machine
end

section
/-! ## Boundary events: their order -/
set_option Elab.async false

namespace Sys2Proof.Machine

section
variable {s t : State}

/-! ### The breakpoint clauses over the fields of DR7 -/

theorem lengths_defined {l : Nat} (h : l < 4) (hne : l ≠ 2) : l = 0 ∨ l = 1 ∨ l = 3 := by omega

/-- The range a breakpoint watches ends at FFFFFFFFH at the latest: it is aligned to its length. -/
theorem aligned_end {a l : Nat} (ha : a < 2 ^ 32) (h : l = 0 ∨ l = 1 ∨ l = 3) : a / (l + 1) * (l + 1) + (l + 1) ≤ 2 ^ 32 := by
  rcases h with rfl | rfl | rfl <;> omega

theorem State.execHit_iff (lin i : Nat) : s.execHit lin i = true ↔
    s.dbg.armed i = true ∧ s.dbg.dr7.toNat / 2 ^ (16 + 4 * i) % 4 = 0 ∧ (s.dbg.addr i).toNat = lin := by
  rw [State.execHit, Bool.and_eq_true, Bool.and_eq_true, beq_iff_eq, beq_iff_eq, DebugRegs.rw_eq_iff, and_assoc]
  rfl

theorem DebugRegs.lenCode_toNat (d : DebugRegs) (i : Nat) : (d.lenCode i).toNat = d.dr7.toNat / 2 ^ (18 + 4 * i) % 4 :=
  toNat_extract_two _ _

theorem DebugRegs.rw_toNat (d : DebugRegs) (i : Nat) : (d.rw i).toNat = d.dr7.toNat / 2 ^ (16 + 4 * i) % 4 := toNat_extract_two _ _

theorem DebugRegs.covers_iff {d : DebugRegs} {lin n i l : Nat} (hl : lin < 2 ^ 32) (hn : 0 < n) (len : (d.lenCode i).toNat = l)
    (h : l = 0 ∨ l = 1 ∨ l = 3) : d.covers i lin n = true ↔
      ∃ k < n, ∃ j < l + 1, (lin + k) % 2 ^ 32 = (d.addr i).toNat / (l + 1) * (l + 1) + j := by
  rw [DebugRegs.covers, len, Bool.or_eq_true, decide_eq_true_eq, decide_eq_true_eq]
  exact ranges_meet hl hn l.succ_pos (by omega) (aligned_end (d.addr i).isLt h)

/-- The codes of R/W that match a data access. -/
theorem dataCode_iff {c : BitVec 2} (h : c ≠ 2) (w : Bool) :
    ((c != 0) = true ∧ (w || c == 3) = true) ↔ c.toNat = 3 ∨ (c.toNat = 1 ∧ w = true) := by
  revert c w
  decide

theorem State.dataHit_iff {lin n i c l : Nat} {w : Bool} (hl : lin < 2 ^ 32) (hn : 0 < n) (code : (s.dbg.rw i).toNat = c)
    (len : (s.dbg.lenCode i).toNat = l) (h : s.dbg.armed i = true → c ≠ 2 ∧ l ≠ 2) : s.dataHit lin n w i = true ↔
      s.dbg.armed i = true ∧ (c = 3 ∨ (c = 1 ∧ w = true)) ∧
        ∃ k < n, ∃ j < l + 1, (lin + k) % 2 ^ 32 = (s.dbg.addr i).toNat / (l + 1) * (l + 1) + j := by
  rw [State.dataHit, Bool.and_eq_true, Bool.and_eq_true, Bool.and_eq_true, and_assoc]
  refine and_congr_right fun armed => ?_
  obtain ⟨rwDefined, lenDefined⟩ := h armed
  have small : l < 4 := by
    rw [← len]
    exact (s.dbg.lenCode i).isLt
  have two : s.dbg.rw i ≠ 2 := fun e => rwDefined (code.symm.trans (congrArg BitVec.toNat e))
  rw [← and_assoc, dataCode_iff two, code, DebugRegs.covers_iff hl hn len (lengths_defined small lenDefined)]

/-! ### The conditions of the events -/

theorem takesDebug_iff : t.takesDebug = true ↔
    (t.latch.dataBreak ≠ 0 ∨ t.latch.singleStep = true) ∧ t.latch.shadow ≠ .held ∧ (t.run = .running ∨ t.run = .halted) := by
  simp only [State.takesDebug, Bool.and_eq_true, Bool.or_eq_true, bne_iff_ne, beq_iff_eq, and_assoc]

theorem takesNmi_iff : t.takesNmi = true ↔
    t.latch.nmiPending = true ∧ t.latch.nmiInService = false ∧ t.latch.shadow = .none ∧ t.run ≠ .stuck := by
  simp only [State.takesNmi, Bool.and_eq_true, Bool.not_eq_true', bne_iff_ne, beq_iff_eq, and_assoc]

theorem takesIntr_iff : t.takesIntr = true ↔
    t.pins.intr = true ∧ t.flags.intf = true ∧ t.latch.shadow = .none ∧ t.run ≠ .shutdown ∧ t.run ≠ .stuck := by
  simp only [State.takesIntr, Bool.and_eq_true, bne_iff_ne, beq_iff_eq, and_assoc]

/-! ### The order of the events -/

theorem step_boundary (h : s.nextPins.pins.reset = false) : step s = s.nextPins.sample.boundary := by
  rw [step, cycle, if_neg (by rw [h]; decide)]

theorem boundary_debug (h : t.takesDebug = true) : t.boundary = t.debugTrap := if_pos h

/-- B0 to B3 and BS as DR6 receives them. -/
theorem debugStatus_single (d : DWord) (hits : BitVec 4) (single : Bool) :
    d ||| hits.setWidth 32 ||| ((BitVec.ofBool single).setWidth 32 <<< 14) =
      d ||| hits.setWidth 32 ||| (if single then 0x4000 else 0) := by
  cases single <;> rfl

theorem debugTrap_eq (t : State) : t.debugTrap = deliver deliverFuel { t.faultEvent 1 none with rf := t.flags.rf }
    { t with
      run := .running
      dec := Dec.start
      prefetch := Prefetch.empty
      dbg := { t.dbg with dr6 := t.dbg.dr6 ||| t.latch.dataBreak.setWidth 32 ||| (if t.latch.singleStep then 0x4000 else 0) }
      latch := { t.latch with shadow := .none, repActive := false, dataBreak := 0, singleStep := false } } := by
  rw [← debugStatus_single]
  rfl

theorem boundary_nmi (hd : ¬ t.takesDebug = true) (h : t.takesNmi = true) : t.boundary = t.nmi := (if_neg hd).trans (if_pos h)

theorem boundary_intr (hd : ¬ t.takesDebug = true) (hn : ¬ t.takesNmi = true) (h : t.takesIntr = true) : t.boundary = t.intr :=
  (if_neg hd).trans ((if_neg hn).trans (if_pos h))

theorem boundary_quiet (hd : ¬ t.takesDebug = true) (hn : ¬ t.takesNmi = true) (hi : ¬ t.takesIntr = true) :
    t.boundary = if t.run = .running then runOne t else .next t := (if_neg hd).trans ((if_neg hn).trans (if_neg hi))

theorem reportDebug_hits (hits : BitVec 4) :
    s.reportDebug hits false = { s with dbg := { s.dbg with dr6 := s.dbg.dr6 ||| hits.setWidth 32 } } := by
  have none : s.dbg.dr6 ||| hits.setWidth 32 ||| ((BitVec.ofBool false).setWidth 32 <<< 14) = s.dbg.dr6 ||| hits.setWidth 32 :=
    BitVec.or_zero
  rw [State.reportDebug, none]

theorem instrBreakHit_frame {i lin : Nat} {b : Bool} (h : instrBreakHit i lin s = .ok b t) : t = { s with freeCtr := t.freeCtr } := by
  unfold instrBreakHit at h
  simp only at h
  split at h
  · cases h; rfl
  · split at h <;> cases h <;> rfl

/-- Looking for instruction breakpoints takes free values only. -/
theorem instrBreaks_frame {hits : BitVec 4} (h : instrBreaks s = .ok hits t) : t = { s with freeCtr := t.freeCtr } := by
  obtain ⟨_, s0, h0, h⟩ := M.bind_ok.1 h
  cases h0
  split at h
  · cases h; rfl
  · obtain ⟨b0, s1, h1, h⟩ := M.bind_ok.1 h
    obtain ⟨b1, s2, h2, h⟩ := M.bind_ok.1 h
    obtain ⟨b2, s3, h3, h⟩ := M.bind_ok.1 h
    obtain ⟨b3, s4, h4, h⟩ := M.bind_ok.1 h
    cases h
    rw [instrBreakHit_frame h4, instrBreakHit_frame h3, instrBreakHit_frame h2, instrBreakHit_frame h1]

theorem runOne_hit {hits : BitVec 4} (hv : (t.pe && t.flags.vm) = false) (h : instrBreaks t = .ok hits s) (hit : hits ≠ 0) :
    runOne t = deliverExn { vector := 1, code := none, cls := .fault }
      { s with dbg := { s.dbg with dr6 := s.dbg.dr6 ||| hits.setWidth 32 } }.abandon := by
  rw [runOne, if_neg (by rw [hv]; decide), h]
  simp only [bne_iff_ne.2 hit, if_true]
  rw [reportDebug_hits]

theorem runOne_run (hv : (t.pe && t.flags.vm) = false) (h : instrBreaks t = .ok 0 s) :
    runOne t = afterInstr s (runItems s fetchFuel { s with dec := Dec.start }) := by
  rw [runOne, if_neg (by rw [hv]; decide), h]
  rfl

theorem afterInstr_next {u : State} : afterInstr s (.next u) = .next { u with
    dec := Dec.start
    latch := { u.latch with
      shadow := if u.latch.repActive = true ∧ s.latch.shadow = .held then .held else u.latch.shadow
      singleStep := u.latch.singleStep || (s.flags.tf && u.dec.done) } } := by
  simp only [afterInstr, Bool.and_eq_true, beq_iff_eq]

end

/-- Settles O54: the events are tried in their order; a breakpoint is a match of DR7's fields and an address register. -/
theorem boundaryEvents : Obligations.BoundaryEvents := by
  refine ⟨?_, ?_⟩
  · intro s reset t debug nmi intr woken rf
    rw [step_boundary reset]
    have debugIff : t.takesDebug = true ↔ debug := takesDebug_iff
    have nmiIff : t.takesNmi = true ↔ nmi := takesNmi_iff
    have intrIff : t.takesIntr = true ↔ intr := takesIntr_iff
    refine ⟨fun hd => ?_, fun hd hn run => ?_, fun hn run => ?_, fun hd hn hi => ?_, fun hd hn hi run => ?_,
      fun hd hn hi run hv hits s1 breaks => ⟨fun hit => ?_, fun none u runs => ?_⟩⟩
    · rw [boundary_debug (debugIff.2 hd), debugTrap_eq]
    · rw [boundary_nmi (debugIff.not.2 hd) (nmiIff.2 hn)]
      exact if_neg run
    · have hd : ¬ debug := by
        rintro ⟨-, -, other | other⟩ <;> cases run.symm.trans other
      rw [boundary_nmi (debugIff.not.2 hd) (nmiIff.2 hn)]
      exact ⟨_, _, if_pos run⟩
    · rw [boundary_intr (debugIff.not.2 hd) (nmiIff.not.2 hn) (intrIff.2 hi)]
      rfl
    · rw [boundary_quiet (debugIff.not.2 hd) (nmiIff.not.2 hn) (intrIff.not.2 hi), if_neg run]
    · rw [boundary_quiet (debugIff.not.2 hd) (nmiIff.not.2 hn) (intrIff.not.2 hi), if_pos run]
      exact runOne_hit hv breaks hit
    · rw [boundary_quiet (debugIff.not.2 hd) (nmiIff.not.2 hn) (intrIff.not.2 hi), if_pos run]
      subst none
      rw [runOne_run hv breaks, runs, afterInstr_next]
      have frame := instrBreaks_frame breaks
      rw [show s1.latch = t.latch by rw [frame], show s1.flags = t.flags by rw [frame]]
  · intro s armed rw len addr
    have addressOf : ∀ {i : Nat}, i < 4 → (s.dbg.addr i).toNat = addr i := by
      intro i hi
      interval_cases i <;> rfl
    refine ⟨instrBreaks_suppressed, fun hf defined => ?_, fun defined sr off n al w ps t hn run i hi => ?_⟩
    · refine ⟨_, instrBreaks_run hf fun i hi on code => ?_, fun i hi => ?_⟩
      · exact (s.dbg.lenCode_eq_iff i 0).2 (Nat.succ.inj (defined i hi (s.dbg.armed_iff i |>.1 on) ((s.dbg.rw_eq_iff i 0).1 code)))
      · rw [fourHits_getLsbD _ hi, State.execHit_iff, DebugRegs.armed_iff, addressOf hi]
    · have codes : ∀ i < 4, s.dbg.armed i = true → s.dbg.rw i ≠ 2 ∧ s.dbg.lenCode i ≠ 2 := by
        intro i hi on
        obtain ⟨code, length⟩ := defined i hi (s.dbg.armed_iff i |>.1 on)
        exact ⟨fun e => code ((s.dbg.rw_eq_iff i 2).1 e), fun e => length (congrArg (· + 1) ((s.dbg.lenCode_eq_iff i 2).1 e))⟩
      rw [locate_breaks codes run, BitVec.getLsbD_or, Bool.or_eq_true, fourHits_getLsbD _ hi]
      refine or_congr_right ?_
      rw [State.dataHit_iff (Nat.mod_lt _ (by decide)) hn (s.dbg.rw_toNat i) (s.dbg.lenCode_toNat i), DebugRegs.armed_iff]
      · simp only [Nat.mod_add_mod, ← addressOf hi]
        rfl
      · intro on
        obtain ⟨code, length⟩ := defined i hi (s.dbg.armed_iff i |>.1 on)
        exact ⟨code, fun e => length (congrArg (· + 1) e)⟩

end Sys2Proof.Machine
end

section
/-! ## The fetch: what it changes, and the instruction it finds -/
set_option Elab.async false

namespace Sys2Proof

/-! ### The longest item -/

theorem bytesV_length (z : Size) (v : DWord) : (bytesV z v).length ≤ 4 := by
  cases z
  · exact (by decide : 2 ≤ 4)
  · exact Nat.le_refl 4

theorem Disp.bytes_length (d : Disp) : d.bytes.length ≤ 4 := by
  cases d
  · exact Nat.zero_le 4
  · exact (by decide : 1 ≤ 4)
  · exact (by decide : 2 ≤ 4)
  · exact Nat.le_refl 4

theorem Mem.restBytes_length (m : Mem) : m.restBytes.length ≤ 5 := by
  cases m with
  | a16 _ d | a32 _ d => exact Nat.le_succ_of_le d.bytes_length
  | abs16 v => exact (by decide : 2 ≤ 5)
  | abs32 v => exact (by decide : 4 ≤ 5)
  | sib _ _ _ d => exact Nat.succ_le_succ d.bytes_length
  | sibAbs _ _ v => exact Nat.le_refl 5

theorem Tail.bytes_length (t : Tail) : t.bytes.length ≤ 6 := by
  cases t with
  | none | opreg => exact Nat.zero_le 6
  | raw => exact (by decide : 1 ≤ 6)
  | rm reg m =>
    cases m with
    | reg => exact (by decide : 1 ≤ 6)
    | mem m => exact Nat.succ_le_succ m.restBytes_length

theorem Imm.bytes_length (z a : Size) (im : Imm) : (im.bytes z a).length ≤ 6 := by
  cases im with
  | none => exact Nat.zero_le 6
  | ib => exact (by decide : 1 ≤ 6)
  | iw => exact (by decide : 2 ≤ 6)
  | iv v => exact (bytesV_length z v).trans (by decide)
  | cp off sel =>
    show (bytesV z off ++ bytes2 sel).length ≤ 6
    rw [List.length_append]
    exact Nat.add_le_add_right (bytesV_length z off) 2
  | moffs v => exact (bytesV_length a v).trans (by decide)
  | enter => exact (by decide : 3 ≤ 6)

/-- An item without its prefixes is shorter than the longest instruction (30_encoding R267). -/
theorem encode_length (z a : Size) (i : Instr) : (encode z a i).length ≤ maxLength := by
  have tail := i.raw.tail.bytes_length
  have imm := i.raw.imm.bytes_length z a
  have escape : (if i.raw.two then [(0x0F : Byte)] else []).length ≤ 1 := by cases i.raw.two <;> decide
  rw [encode, Raw.bytes, List.length_append, List.length_cons, List.length_append]
  show _ ≤ 15
  omega

end Sys2Proof

namespace Sys2Proof.Machine

/-! ### The frame of a fetch -/

/-- What a fetch may change: the prefetch unit, besides what a read may. -/
def State.FetchFrame (s t : State) : Prop :=
  t = { s with cache := t.cache, tlb := t.tlb, mem := t.mem, bus := t.bus, freeCtr := t.freeCtr, prefetch := t.prefetch
               latch := { s.latch with dataBreak := t.latch.dataBreak } }

theorem State.FetchFrame.refl (s : State) : s.FetchFrame s := rfl

theorem State.FetchFrame.trans {s t u : State} (h : s.FetchFrame t) (g : t.FetchFrame u) : s.FetchFrame u := by
  unfold State.FetchFrame at *
  rw [g, h]

section
variable {s t u : State}

theorem State.Touches.fetchFrame (h : s.Touches t) : s.FetchFrame t := by
  unfold State.FetchFrame
  rw [h]

theorem State.FetchFrame.eip (h : s.FetchFrame t) : t.eip = s.eip := by rw [h]
theorem State.FetchFrame.dec (h : s.FetchFrame t) : t.dec = s.dec := by rw [h]
theorem State.FetchFrame.osz (h : s.FetchFrame t) : t.osz = s.osz := by rw [h]; rfl
theorem State.FetchFrame.asz (h : s.FetchFrame t) : t.asz = s.asz := by rw [h]; rfl

theorem codeRead_frame {lin pa : Nat} {attr : Attr} {v : Byte} (h : codeRead lin pa attr s = .ok v t) : s.FetchFrame t := by
  unfold codeRead at h
  dsimp only at h
  split at h
  · cases h; rfl
  · split at h
    · cases h; rfl
    · obtain ⟨d, u, h1, h⟩ := M.bind_ok.1 h
      obtain ⟨_, w, h2, h⟩ := M.bind_ok.1 h
      cases h2
      cases h
      refine (burst_reads h1).touches.fetchFrame.trans ?_
      dsimp only
      split <;> rfl

theorem queuedByte_frame {lin : Nat} {v w : Byte} {cs : List Host.Cell} (h : queuedByte lin v cs s = .ok w t) : s.FetchFrame t := by
  induction cs generalizing s with
  | nil => cases h; rfl
  | cons c cs ih =>
    unfold queuedByte at h
    split at h
    · obtain ⟨b, u, h1, h⟩ := M.bind_ok.1 h
      cases h1
      split at h
      · cases h; rfl
      · exact State.FetchFrame.trans (t := { s with freeCtr := s.freeCtr + 1 }) rfl (ih h)
    · exact ih h

/-- A byte is fetched within the limit of CS. -/
theorem fetchByte_frame {off : Nat} {b : Byte} (h : fetchByte off s = .ok b t) : s.FetchFrame t ∧ off < 2 ^ 32 := by
  obtain ⟨_, s0, h0, h⟩ := M.bind_ok.1 h
  cases h0
  dsimp only at h
  split at h
  · cases h
  next inside =>
    refine ⟨?_, Nat.lt_of_le_of_lt (Nat.not_lt.1 inside) (s.segs.cs.hid.limit).isLt⟩
    obtain ⟨⟨pa, attr⟩, s1, h1, h⟩ := M.bind_ok.1 h
    have seen := (translate_reads h1).touches.fetchFrame
    dsimp only at h
    generalize List.find? _ s.prefetch.held = held at h
    cases held with
    | some c => cases h; exact seen
    | none =>
      obtain ⟨v, s2, h2, h⟩ := M.bind_ok.1 h
      exact (seen.trans (codeRead_frame h2)).trans (queuedByte_frame h)

theorem State.Fetches.frame {bs : List Byte} {off : Nat} (h : s.Fetches off bs t) : s.FetchFrame t := by
  induction bs generalizing s off with
  | nil => cases h; rfl
  | cons b bs ih =>
    obtain ⟨u, h1, h2⟩ := h
    obtain ⟨frame, -⟩ := fetchByte_frame h1
    exact frame.trans (ih h2)

/-! ### One item -/

/-- The machine with `n` more bytes counted. -/
def State.counted (s : State) (n : Nat) : State := { s with dec := { s.dec with len := s.dec.len + n } }

variable {fuel : Nat} {bs : List Byte} {i : Instr}

theorem fetchItem_decoded {rest : List Byte} (h : decode s.osz s.asz bs = .ok (i, rest)) :
    fetchItem (fuel + 1) bs s = .ok i (s.counted bs.length) := by
  simp only [fetchItem, M.bind_run, M.get_run, h]
  rfl

theorem fetchItem_truncated (h : decode s.osz s.asz bs = .error .truncated) : fetchItem (fuel + 1) bs s =
    (fetchByte (s.eip.toNat + s.dec.len + bs.length) >>= fun b => fetchItem fuel (bs ++ [b])) s := by
  simp only [fetchItem, M.bind_run, M.get_run, h]

theorem decode_cases (z a : Size) (bs : List Byte) :
    (∃ i rest, decode z a bs = .ok (i, rest)) ∨ decode z a bs = .error .truncated := by
  cases h : decode z a bs with
  | ok r => exact .inl ⟨r.1, r.2, rfl⟩
  | error e =>
    cases e with
    | truncated => exact .inr rfl
    | undefined => exact absurd h (decode_ne_undefined z a bs)

theorem encode_ne_nil (z a : Size) (i : Instr) : encode z a i ≠ [] := by
  unfold encode Raw.bytes
  exact List.append_ne_nil_of_right_ne_nil _ (List.cons_ne_nil _ _)

theorem decode_nil (z a : Size) : decode z a [] = .error .truncated := by
  rcases decode_cases z a [] with ⟨i, rest, h⟩ | h
  · obtain ⟨-, bytes⟩ := encode_decode h
    exact absurd (List.append_eq_nil_iff.1 bytes.symm).1 (encode_ne_nil z a i)
  · exact h

/-- No encoding decodes before its last byte is there. -/
theorem decode_prefix {z a : Size} {pre suf : List Byte} (hw : i.wf z a = true) (h : encode z a i = pre ++ suf) (hs : suf ≠ []) :
    decode z a pre = .error .truncated := by
  rcases decode_cases z a pre with ⟨j, rest, hj⟩ | ht
  · obtain ⟨hwj, bytes⟩ := encode_decode hj
    have two : decode z a (encode z a i) = .ok (j, rest ++ suf) := by
      rw [h, bytes, List.append_assoc]
      exact decode_encode _ hwj
    have one : decode z a (encode z a i) = .ok (i, []) := by
      have whole := decode_encode [] hw
      rwa [List.append_nil] at whole
    have both := Except.ok.inj (two.symm.trans one)
    exact absurd (List.append_eq_nil_iff.1 (Prod.mk.inj both).2).2 hs
  · exact ht

/-- The bytes of an instruction, fetched one by one, give the instruction. -/
theorem fetchItem_run (suf : List Byte) : ∀ {fuel : Nat} {pre : List Byte} {s : State}, i.wf s.osz s.asz = true →
    encode s.osz s.asz i = pre ++ suf → s.Fetches (s.eip.toNat + s.dec.len + pre.length) suf u → suf.length < fuel →
    fetchItem fuel pre s = .ok i (u.counted (pre ++ suf).length) := by
  induction suf with
  | nil =>
    intro fuel pre s hw h fetches room
    obtain ⟨fuel, rfl⟩ := Nat.exists_eq_succ_of_ne_zero (Nat.ne_of_gt room)
    cases fetches
    rw [List.append_nil] at h ⊢
    have whole := decode_encode [] hw
    rw [List.append_nil, h] at whole
    exact fetchItem_decoded whole
  | cons b suf ih =>
    intro fuel pre s hw h fetches room
    obtain ⟨fuel, rfl⟩ := Nat.exists_eq_succ_of_ne_zero (Nat.ne_of_gt (Nat.lt_of_le_of_lt (Nat.zero_le _) room))
    obtain ⟨s1, byte, fetches⟩ := fetches
    obtain ⟨frame, -⟩ := fetchByte_frame byte
    have longer : pre ++ b :: suf = (pre ++ [b]) ++ suf := by rw [List.append_assoc]; rfl
    rw [fetchItem_truncated (decode_prefix hw h (List.cons_ne_nil b suf)), longer]
    refine M.bind_of_ok byte (ih ?_ ?_ ?_ (Nat.lt_of_succ_lt_succ room))
    · rw [frame.osz, frame.asz]; exact hw
    · rw [frame.osz, frame.asz, h, longer]
    · rw [frame.eip, frame.dec, List.length_append]
      exact fetches

/-- What an item read leaves: its bytes counted, all of them below 2^32. -/
theorem fetchItem_ok : ∀ {fuel : Nat} {bs : List Byte} {s : State}, fetchItem fuel bs s = .ok i t →
    (bs = [] ∨ s.eip.toNat + s.dec.len + bs.length ≤ 2 ^ 32) →
    ∃ (u : State) (n : Nat), s.FetchFrame u ∧ t = u.counted n ∧ 0 < n ∧ s.eip.toNat + s.dec.len + n ≤ 2 ^ 32 := by
  intro fuel
  induction fuel with
  | zero => exact nofun
  | succ fuel ih =>
    intro bs s h inside
    rcases decode_cases s.osz s.asz bs with ⟨j, rest, decoded⟩ | truncated
    · rw [fetchItem_decoded decoded] at h
      cases h
      have some : bs ≠ [] := by
        rintro rfl
        rw [decode_nil] at decoded
        cases decoded
      exact ⟨s, bs.length, .refl s, rfl, List.length_pos_iff.2 some, inside.resolve_left some⟩
    · rw [fetchItem_truncated truncated] at h
      obtain ⟨b, s1, byte, h⟩ := M.bind_ok.1 h
      obtain ⟨frame, limit⟩ := fetchByte_frame byte
      have next := ih h (.inr (by
        rw [frame.eip, frame.dec, List.length_append, List.length_singleton]
        omega))
      rw [frame.eip, frame.dec] at next
      obtain ⟨u, n, rest, count⟩ := next
      exact ⟨u, n, frame.trans rest, count⟩

end
end Sys2Proof.Machine
end

section
/-! ## A step runs the instruction at CS:EIP -/
set_option Elab.async false

namespace Sys2Proof.Machine

section
variable {i : Instr} {k : Nat} {start s u : State}

/-- The machine with the item of `n` bytes fetched, from `s` with the bytes read in `u`. -/
def State.fetched (s u : State) (n : Nat) : State := { u with dec := { s.dec with len := s.dec.len + n } }

/-- The bytes of a well-formed instruction for the sizes in force lie next to be fetched. -/
def State.Next (s : State) (i : Instr) (u : State) : Prop :=
  i.wf s.osz s.asz = true ∧ s.Fetches (s.eip.toNat + s.dec.len) (encode s.osz s.asz i) u

theorem State.Next.fetchItem (h : s.Next i u) :
    fetchItem (maxLength + 1) [] s = .ok i (s.fetched u (encode s.osz s.asz i).length) := by
  obtain ⟨hw, fetches⟩ := h
  rw [fetchItem_run (encode s.osz s.asz i) (fuel := maxLength + 1) (pre := []) hw rfl fetches
    (Nat.lt_succ_of_le (encode_length s.osz s.asz i))]
  show EStateM.Result.ok i ({ u with dec := { u.dec with len := u.dec.len + _ } } : State) = _
  rw [fetches.frame.dec]
  rfl

theorem runItems_prefix (h : s.Next i u) (hp : isPrefix i = true) {v : State}
    (hv : exec i (s.fetched u (encode s.osz s.asz i).length) = .next v) : runItems start (k + 1) s = runItems start k v := by
  rw [runItems, h.fetchItem]
  simp only [hp, hv, if_true]

theorem runItems_instr (h : s.Next i u) (hp : isPrefix i = false) (hn : s.dec.len + (encode s.osz s.asz i).length ≤ 15) :
    runItems start (k + 1) s =
      retired (s.fetched u (encode s.osz s.asz i).length) (exec i (s.fetched u (encode s.osz s.asz i).length)) := by
  have short : ¬ (s.fetched u (encode s.osz s.asz i).length).dec.len > maxLength := Nat.not_lt.2 hn
  rw [runItems, h.fetchItem]
  simp only [hp, Bool.false_eq_true, if_false, if_neg short]

theorem runItems_long (h : s.Next i u) (hp : isPrefix i = false) (hn : 15 < s.dec.len + (encode s.osz s.asz i).length) :
    runItems start (k + 1) s = deliverExn { vector := 13, code := some 0, cls := .fault } (rollback start u).abandon := by
  have long : (s.fetched u (encode s.osz s.asz i).length).dec.len > maxLength := hn
  rw [runItems, h.fetchItem]
  simp only [hp, Bool.false_eq_true, if_false, if_pos long]
  rfl

theorem fetchFuel_pos : fetchFuel = fetchFuel - 1 + 1 := by
  unfold fetchFuel
  norm_num

theorem step_runs {t s1 : State} (reset : s.nextPins.pins.reset = false) (ht : t = s.nextPins.sample) (hd : t.takesDebug = false)
    (hn : t.takesNmi = false) (hi : t.takesIntr = false) (run : t.run = .running) (hv : (t.pe && t.flags.vm) = false)
    (breaks : instrBreaks t = .ok 0 s1) :
    step s = afterInstr s1 (runItems s1 (fetchFuel - 1 + 1) { s1 with dec := Dec.start }) := by
  rw [step_boundary reset, ← ht, boundary_quiet (Bool.eq_false_iff.1 hd) (Bool.eq_false_iff.1 hn) (Bool.eq_false_iff.1 hi),
    if_pos run, runOne_run hv breaks, ← fetchFuel_pos]

end

/-- Settles O55: the decoder finds the instruction when its last byte is there, and not before. -/
theorem stepRunsDecodedInstruction : Obligations.StepRunsDecodedInstruction := by
  refine ⟨?_, ?_⟩
  · intro i s s1 u reset t hd hn hi run hv breaks s2 bytes hw fetches ready
    have next : s2.Next i u := ⟨hw, fetches⟩
    have same : s2.fetched u bytes.length = ready := by
      show ({ u with dec := { Dec.start with len := 0 + bytes.length } } : State) = _
      rw [Nat.zero_add]
    have short : s2.dec.len + bytes.length ≤ 15 := by
      show 0 + bytes.length ≤ 15
      rw [Nat.zero_add]
      exact encode_length s2.osz s2.asz i
    rw [step_runs reset rfl hd hn hi run hv breaks, ← same]
    exact ⟨fun hp => congrArg (afterInstr s1) (runItems_instr next hp short),
      fun hp v hx => congrArg (afterInstr s1) (runItems_prefix next hp hx)⟩
  · intro i k start s u bytes n hw fetches ready
    have next : s.Next i u := ⟨hw, fetches⟩
    exact ⟨fun hp v => runItems_prefix next hp, runItems_instr next, runItems_long next⟩

end Sys2Proof.Machine
end

section
/-! ## Nested delivery; no delivery and no step faults -/
set_option Elab.async false

namespace Sys2Proof.Machine

/-! ### A fault met while an event is delivered -/

section
variable {k : Nat} {ev : Event} {e : Exn} {s s' : State}

theorem contributory_iff (v : Byte) : contributory v = true ↔ v = 0 ∨ v = 10 ∨ v = 11 ∨ v = 12 ∨ v = 13 := by
  simp only [contributory, Bool.or_eq_true, beq_iff_eq, or_assoc]

theorem doubleFault_iff (ev : Event) (second : Byte) : doubleFault ev second = true ↔ ev.kind = .exception ∧
    ((contributory ev.vector = true ∧ contributory second = true) ∨
      (ev.vector = 14 ∧ (second = 14 ∨ contributory second = true))) := by
  simp only [doubleFault, Bool.and_eq_true, Bool.or_eq_true, beq_iff_eq]

/-- EXT is set in the code of a contributory exception other than the divide error, which has none. -/
theorem withExt_eq (e : Exn) :
    withExt e = if contributory e.vector = true ∧ e.vector ≠ 0 then e.code.map (· ||| 1) else e.code := by
  have same : (e.vector == 10 || e.vector == 11 || e.vector == 12 || e.vector == 13) = true ↔
      contributory e.vector = true ∧ e.vector ≠ 0 := by
    generalize e.vector = v
    revert v
    decide
  exact if_congr same rfl rfl

variable (h : enterHandler ev s = .error (.exn e) s')
include h

theorem deliver_shutdown (kind : ev.kind = .exception) (vector : ev.vector = 8) :
    deliver (k + 1) ev s = .next (rollback s s').shutdown := by
  simp only [deliver, h, kind, vector]
  rfl

theorem deliver_double (esc : doubleFault ev e.vector = true) (notEight : ev.vector ≠ 8) : deliver (k + 1) ev s =
    deliver k (doubleEvent (rollback s s')) { rollback s s' with freeCtr := (rollback s s').freeCtr + 1 } := by
  simp only [deliver, h, beq_eq_false_iff_ne.2 notEight, Bool.and_false, Bool.false_eq_true, if_false, esc, if_true]

theorem deliver_next (esc : doubleFault ev e.vector = false) (notDouble : ¬ (ev.kind = .exception ∧ ev.vector = 8)) :
    deliver (k + 1) ev s = deliver k
      { kind := .exception, vector := e.vector, code := withExt e, cs := ev.cs, ip := ev.ip, rf := true } (rollback s s') := by
  have other : ¬ (ev.kind == .exception && ev.vector == 8) = true := by
    rw [Bool.and_eq_true, beq_iff_eq, beq_iff_eq]
    exact notDouble
  simp only [deliver, h, if_neg other, esc, Bool.false_eq_true, if_false]

end

/-! ### What does not fault -/

/-- An outcome that is a next state or a refusal. -/
def NoFault (o : Host.Outcome State Fault Refusal) : Prop := ∀ r : Fault, o ≠ .fault r

theorem noFault_next (s : State) : NoFault (.next s) := nofun
theorem noFault_refused (r : Refusal) : NoFault (.refused r) := nofun

theorem deliver_noFault (k : Nat) : ∀ (ev : Event) (s : State), NoFault (deliver k ev s) := by
  induction k with
  | zero => exact fun ev s => noFault_next _
  | succ k ih =>
    intro ev s
    unfold deliver
    split
    · exact noFault_next _
    · exact noFault_refused _
    · split
      · exact noFault_next _
      · split
        · exact ih _ _
        · exact ih _ _
    · exact noFault_next _

theorem deliverExn_noFault (e : Exn) (s : State) : NoFault (deliverExn e s) := deliver_noFault _ _ _

theorem runInstr_noFault (l k : Bool) (body : M Unit) (s : State) : NoFault (runInstr l k body s) := by
  unfold runInstr
  split
  · exact noFault_refused _
  · split
    · exact noFault_next _
    · exact deliverExn_noFault _ _
    · exact noFault_refused _
    · exact noFault_next _
    · exact noFault_next _

theorem retired_noFault {s : State} {o : Host.Outcome State Fault Refusal} (h : NoFault o) : NoFault (retired s o) := by
  cases o with
  | next t => exact noFault_next _
  | refused r => exact noFault_refused r
  | fault r => exact absurd rfl (h r)

theorem afterInstr_noFault {s : State} {o : Host.Outcome State Fault Refusal} (h : NoFault o) : NoFault (afterInstr s o) := by
  cases o with
  | next t => exact noFault_next _
  | refused r => exact noFault_refused r
  | fault r => exact absurd rfl (h r)

/-- What takes LOCK runs a body. -/
theorem exec_lockable {i : Instr} (s : State) (h : takesLock i = true) :
    ∃ (l k : Bool) (body : M Unit), exec i s = runInstr l k body s := by
  cases i
  case add | or | adc | sbb | and | sub | xor | bts | btr | btc => exact ⟨_, _, _, rfl⟩
  case inc f | dec f | neg f | not f | xadd f | cmpxchg f | xchg f => cases f <;> exact ⟨_, _, _, rfl⟩
  all_goals cases h

theorem exec_noFault {i : Instr} (s : State) (hp : isPrefix i = false) : NoFault (exec i s) := by
  by_cases lock : takesLock i = true
  · obtain ⟨l, k, body, run⟩ := exec_lockable s lock
    rw [run]
    exact runInstr_noFault _ _ _ _
  · by_cases esc : isEsc i = true
    · obtain ⟨body, run⟩ := exec_esc s esc
      rw [run]
      exact runInstr_noFault _ _ _ _
    · obtain ⟨k, body, run⟩ := exec_lockless s (Bool.eq_false_iff.2 lock) hp (Bool.eq_false_iff.2 esc)
      rw [run]
      exact runInstr_noFault _ _ _ _

/-- Such an item sets a decode variable and counts no byte. -/
theorem exec_prefix {i : Instr} (s : State) (h : isPrefix i = true) :
    ∃ d : Dec, exec i s = .next (s.withPrefix d) ∧ d.len = s.dec.len := by
  cases i
  case repPrefix | repnePrefix | lockPrefix | csPrefix | ssPrefix | dsPrefix | esPrefix | fsPrefix | gsPrefix | opsizePrefix |
      addrsizePrefix =>
    exact ⟨_, rfl, rfl⟩
  all_goals cases h

/-- The items of an instruction end before its bytes pass the limit of CS. -/
theorem runItems_noFault (start : State) (k : Nat) : ∀ s : State, s.eip.toNat + s.dec.len ≤ 2 ^ 32 →
    2 ^ 32 < k + (s.eip.toNat + s.dec.len) → NoFault (runItems start k s) := by
  induction k with
  | zero =>
    intro s inside fuel
    omega
  | succ k ih =>
    intro s inside fuel
    unfold runItems
    split
    next i s' fetched =>
      split
      next hp =>
        obtain ⟨u, n, frame, rfl, pos, low⟩ := fetchItem_ok fetched (.inl rfl)
        obtain ⟨d, run, len⟩ := exec_prefix (u.counted n) hp
        have eip : (u.counted n).eip = s.eip := frame.eip
        have count : d.len = s.dec.len + n := by
          rw [len, ← frame.dec]
          rfl
        rw [run]
        refine ih _ ?_ ?_
        · show (u.counted n).eip.toNat + d.len ≤ 2 ^ 32
          rw [eip, count]
          omega
        · show 2 ^ 32 < k + ((u.counted n).eip.toNat + d.len)
          rw [eip, count]
          omega
      next hp =>
        split
        · exact deliverExn_noFault _ _
        · exact retired_noFault (exec_noFault _ (Bool.eq_false_iff.2 hp))
    · exact deliverExn_noFault _ _
    · exact noFault_refused _
    · exact noFault_next _

theorem runOne_noFault (s : State) : NoFault (runOne s) := by
  unfold runOne
  split
  · exact noFault_refused _
  · split
    next hits t breaks =>
      split
      · exact deliverExn_noFault _ _
      · refine afterInstr_noFault (runItems_noFault _ _ _ ?_ ?_)
        · exact Nat.le_of_lt t.eip.isLt
        · exact Nat.lt_of_lt_of_le (Nat.lt_succ_self _) (Nat.le_add_right _ _)
    · exact noFault_next _

theorem nmi_noFault (s : State) : NoFault s.nmi := by
  unfold State.nmi
  dsimp only
  split <;> exact deliver_noFault _ _ _

theorem boundary_noFault (s : State) : NoFault s.boundary := by
  unfold State.boundary
  split
  · exact deliver_noFault _ _ _
  · split
    · exact nmi_noFault s
    · split
      · exact deliver_noFault _ _ _
      · split
        · exact runOne_noFault s
        · exact noFault_next s

theorem onReset_noFault (s : State) : NoFault s.onReset := by
  unfold State.onReset
  split
  · exact noFault_refused _
  · exact noFault_next _

theorem step_noFault (s : State) : NoFault (step s) := by
  unfold step cycle
  split
  · exact onReset_noFault _
  · exact boundary_noFault _

/-- Settles O52: one delivery step by cases, and each part of a step shown to answer or refuse. -/
theorem nestedDelivery : Obligations.NestedDelivery := by
  refine ⟨?_, fun ev s => deliver_noFault _ ev s, fun ev s => rfl, step_noFault⟩
  intro k ev e s s' h t contrib escalates
  have contribIff : ∀ v, contributory v = true ↔ contrib v := contributory_iff
  have escalatesIff : doubleFault ev e.vector = true ↔ escalates := by
    rw [doubleFault_iff, contribIff, contribIff]
  refine ⟨deliver_shutdown h, fun esc => ?_, fun esc notDouble => ?_⟩
  · have notEight : ev.vector ≠ 8 := by
      intro eight
      obtain ⟨-, ⟨first, -⟩ | ⟨first, -⟩⟩ := esc
      · have no : contributory 8 = false := by decide
        rw [eight] at first
        exact Bool.false_ne_true (no.symm.trans ((contribIff 8).2 first))
      · exact absurd (eight.symm.trans first) (by decide)
    exact ⟨_, _, deliver_double h (escalatesIff.2 esc) notEight⟩
  · rw [deliver_next h (Bool.eq_false_iff.2 (escalatesIff.not.2 esc)) notDouble, withExt_eq]
    congr 2
    exact if_congr (and_congr_left' (contribIff e.vector)) rfl rfl

end Sys2Proof.Machine
end
